-- ==== Sys2Proof/Word.lean ====
section
/-! DEFINITION. The word types of the block and the sparse-store type. Nothing here computes. -/

namespace Sys2Proof

/-- A register of control space, and a scalar register of a core, is 64 bits (00_scope.md, Control space). -/
abbrev Word := BitVec 64

/-- One byte of memory. -/
abbrev Byte := BitVec 8

/-- Bits 25:0 of a single instruction word (05 Table 5.3), and of a long instruction with its whole second word above
them. -/
abbrev Payload := BitVec 26
abbrev LPayload := BitVec 58

/-- A sparse store: keys strictly rising, no entry equal to what an unlisted key reads as. -/
abbrev SMap (V : Type) := List (Nat × V)

/-- A number as the arithmetic of 02_number_formats.md sees it before rounding: NaN, an infinity, or
`(-1)^neg * m * 2^e` (a zero keeps its sign). -/
inductive Val where
  | nan
  | inf (neg : Bool)
  | fin (neg : Bool) (m : Nat) (e : Int)
  deriving DecidableEq, Repr

/-- A floating-point layout of Table 2.2: exponent bits, mantissa bits, bias, the magnitude code of the largest
finite value, and the magnitude codes of infinity and of the canonical NaN where the format has them. -/
structure FmtSpec where
  eb : Nat
  mb : Nat
  bias : Nat
  maxCode : Nat
  infCode : Option Nat
  nanCode : Option Nat
  deriving DecidableEq, Repr

/-- The rounding an instruction selects (R45, R46): to nearest even, or stochastic with the 16 bits drawn. -/
inductive Rnd where
  | rne
  | sr (u : Nat)
  deriving DecidableEq, Repr

/-- The access codes of Table 0.7. -/
inductive Acc where
  | ro | rw | wo | w1c | rws | sh
  deriving DecidableEq, Repr

/-- The control-space blocks of Table 0.6. -/
inductive Block where
  | gl | mg | tm | pw | sc | et | hb | nw | cl | sq | co
  deriving DecidableEq, Repr

/-- A field of a register: the row of the register table, the lowest bit and the width. -/
structure Fld where
  reg : Nat
  lo : Nat
  w : Nat
  deriving DecidableEq, Repr

/-- A register of control space: block, offset, (stride, count) of each index, reset word, and the fields with
their access codes. -/
structure RegRow where
  block : Block
  off : Nat
  dims : List (Nat × Nat)
  reset : Nat
  fields : List (Nat × Nat × Acc)
  deriving DecidableEq, Repr

namespace Machine

/-- R180, R304: the command an action belongs to, as records name it: its waybill, its stream and the local tag. -/
structure Origin where
  way : Nat := 0
  stream : Nat := 0
  tag : Nat := 0
  deriving DecidableEq, Repr

/-- Who makes a request (R91, R222): a core's load-store unit, DMA unit or instruction fetch (slot of the device,
cluster * 28 + slot), another sub-unit of a core by its class of Table 10.6 that reaches the core's own memories, a sequencer's DMA engine or record fetch, a router unit, the translation walker of a cluster's interface, a host of a lodging over RDMA, firmware
or the innkeeper, the scrubber. A request made for a command carries that command (R180); a core's own requests belong
to its program. -/
inductive Rq where
  | core (u : Nat) (o : Option Origin := none)
  | coreDma (u : Nat) (o : Option Origin := none)
  | fetch (u : Nat)
  | part (u cls : Nat) (o : Option Origin := none)
  | seqDma (c : Nat) (o : Option Origin := none)
  | seqFetch (c : Nat) (o : Option Origin := none)
  | router (c : Nat) (o : Option Origin := none)
  | walker (c : Nat)
  | host (l p : Nat)
  | firmware
  | scrubber
  deriving DecidableEq, Repr

end Machine

/-- A management message as it arrives (16_management_subsystem.md R434-R437): the session it names and its SEQUENCE,
whether its MAC is right, whether its header is, and whether the queue of 64 was full. -/
structure MsgHdr where
  session : Nat
  seq : Nat
  macOk : Bool
  wellFormed : Bool
  queueFull : Bool
  deriving DecidableEq, Repr

/-- What LODGING_OPEN asks for, and, with the ranges left out, what LODGING_CHANGE adds (14 R390, R392): clusters and
barriers as masks, a number of frames, and the hash of the lodging host's key (16 R435). -/
structure LodgingReq where
  l : Nat
  clusters : Nat
  mode : Nat
  frames : Nat
  barriers : Nat
  ports : Nat
  txShare : Nat
  streamFirst : Nat
  streamCount : Nat
  ptFirst : Nat
  ptCount : Nat
  keyFirst : Nat
  keyCount : Nat
  hostKeyHash : Nat
  deriving DecidableEq, Repr

/-- One entry of a PAGE_MAP (Table 16.4): a virtual page, and the frame it is to map, or none for an unmapping. -/
structure PageEntry where
  page : Nat
  frame : Option Nat
  write : Bool
  exec : Bool
  deriving DecidableEq, Repr

/-- What CONN_OPEN names (15_ethernet_and_training_continuity.md R410); the acknowledgement timeout in µs, rings as an
address and the binary logarithm of their entries. -/
structure ConnReq where
  c : Nat
  port : Nat
  sub : Nat
  mac : Nat
  ip : Nat
  qp : Nat
  sendPsn : Nat
  recvPsn : Nat
  mtu : Nat
  dscp : Nat
  txSlot : Nat
  rxSlot : Nat
  sendRing : Nat
  sendBits : Nat
  rxRing : Nat
  rxBits : Nat
  rxSize : Nat
  cplRing : Nat
  flagC : Nat
  flagK : Nat
  timeout : Nat
  retryMax : Nat
  rnrMax : Nat
  deriving DecidableEq, Repr

/-- A received packet of connection `c` of lodging `l` (15 R412-R417): its sequence number, its place in its message, its
remote key, address and length (in the first packet), its payload, decrypted, its immediate, whether its tag and its
protection header are right, and whether it was marked Congestion Experienced. -/
structure Pkt where
  l : Nat
  c : Nat
  psn : Nat
  first : Bool
  last : Bool
  rkey : Nat
  addr : Nat
  len : Nat
  payload : List (BitVec 8)
  imm : Nat
  tagOk : Bool
  verOk : Bool
  ce : Bool
  deriving DecidableEq, Repr

/-- A host's defect list (13_bring_up_and_reset.md R367): the header's serial, start number and entry count, and the
entries that have arrived. -/
structure HostList where
  serial : Nat
  start : Nat
  count : Nat
  entries : List Nat
  deriving DecidableEq, Repr

/-- What a start step came to (13 R361-R365): whether it succeeded, the unit its journal entry names, the defects it
found (Table 13.4), the clusters that finished it (steps 6, 9 and 10) or whose domains are up (step 4), and the links and
routers it found absent or removed (step 7). -/
structure StepReport where
  ok : Bool
  unit : Nat
  found : List Nat
  done : Nat
  links : List Nat
  routers : List Nat
  deriving DecidableEq, Repr

end Sys2Proof
end

