-- ==== Sys2Proof/Syntax.lean ====
section
/-! DEFINITION. The commands of the block, one constructor for each row of spec/opcode_table.json, in its order. An
operand that names a unit is its number: a core slot of the device (28 * cluster + slot), a cluster, a link, a router. What
only the world outside or a physical measurement settles (a parity outcome, a temperature, the level of a pin) is an
operand too (log 4). -/

namespace Sys2Proof

inductive Instr where
  /-- R8: A control-space write to a register that has no row of its own is performed under its field access codes, or
  refused or discarded. -/
  | registerWrite (rq : Machine.Rq) (a bytes : Nat) (w : Word)
  /-- R376: At a block's commit point, the last pending SH value of each field takes effect, including the load of the
  stochastic-rounding seed. -/
  | shCommit (b : Block) (u : Nat)
  /-- R89: A read request reaches WM, AM, PM or CM and is served under port precedence, or refused for range, power
  state, gate or ownership. -/
  | sramRead (rq : Machine.Rq) (a n parity stall : Nat)
  /-- R94: A write request reaches WM, AM, PM or CM and is performed directly or as a read-modify-write, or refused.
  -/
  | sramWrite (rq : Machine.Rq) (a : Nat) (bs : List (BitVec 8)) (parity stall : Nat)
  /-- R95: A granted writer delivers the 32 rows of a tile, and the transposing path writes the tile in 16 core
  cycles, or refuses it. -/
  | transposingWrite (rq : Machine.Rq) (width dst pitch : Nat) (mx : Bool) (rows : List Nat) (stall : Bool)
  /-- R116: A 1 in CO_MEM_POWER.OFF closes the gate of a WM or AM half and starts its power-down. -/
  | memPowerOff (rq : Machine.Rq) (u q : Nat)
  /-- R117: A 1 in CO_MEM_POWER.ON starts the power-up of a WM or AM half. -/
  | memPowerOn (rq : Machine.Rq) (u q : Nat)
  /-- R116: A 1 in CL_CM_POWER.OFF closes the gate of a CM bank and starts its power-down. -/
  | cmPowerOff (rq : Machine.Rq) (c b : Nat)
  /-- R117: A 1 in CL_CM_POWER.ON starts the power-up of a CM bank. -/
  | cmPowerOn (rq : Machine.Rq) (c b : Nat)
  /-- R116: Once a gated part's outstanding writes reach zero, its power is removed and STATE clears. -/
  | powerDownComplete (k : Nat)
  /-- R117: Once a powered-up part has been cleared to zero, STATE sets and the part serves requests. -/
  | powerUpComplete (k : Nat)
  /-- R107: CL_SEM_WRITE with OP 0 sets a semaphore's count, after which its wait queue is examined. -/
  | semWriteSet (rq : Machine.Rq) (c k v : Nat)
  /-- R107: CL_SEM_WRITE with OP 1 adds to a semaphore's count, saturating, after which its wait queue is examined. -/
  | semWriteAdd (rq : Machine.Rq) (c k v : Nat)
  /-- R107: CL_SEM_WRITE with OP 2 subtracts from a semaphore's count, stopping at 0. -/
  | semWriteSubtract (rq : Machine.Rq) (c k v : Nat)
  /-- R99: A signal message reaches its semaphore, adds its amount, saturating, and then serves waits at the head of
  the queue. -/
  | semaphoreSignal (n : Nat)
  /-- R100: A wait message reaches its semaphore and completes at once or enters the queue. -/
  | semaphoreWait (n : Nat)
  /-- R105: A semaphore grant reaches its waiting core or sequencer, or is returned as a signal if the waiter is being
  reset. -/
  | semGrantArrival (n : Nat)
  /-- R134: An ALU instruction computes sD from sA and sB with the integer or FP32 function that FN names. -/
  | alu (u : Nat) (x : Payload)
  /-- R135: ADDI adds the sign-extended IMM12 to sA. -/
  | addi (u : Nat) (x : Payload)
  /-- R135: ANDI ANDs sA with the sign-extended IMM12. -/
  | andi (u : Nat) (x : Payload)
  /-- R135: ORI ORs sA with the sign-extended IMM12. -/
  | ori (u : Nat) (x : Payload)
  /-- R135: XORI XORs sA with the sign-extended IMM12. -/
  | xori (u : Nat) (x : Payload)
  /-- R135: SHI shifts sA by an immediate amount, in the kind that IMM12[7:6] selects. -/
  | shi (u : Nat) (x : Payload)
  /-- R135: LIH writes IMM16 into one 16-bit field of sD, optionally clearing the others. -/
  | lih (u : Nat) (x : Payload)
  /-- R135: CMP compares two scalars under a condition and writes a predicate. -/
  | cmp (u : Nat) (x : Payload)
  /-- R135: PLOG combines or moves predicates under its FN. -/
  | plog (u : Nat) (x : Payload)
  /-- R137: LD loads 2^SZ bytes from memory or control space into sD. -/
  | ld (u : Nat) (x : Payload)
  /-- R137: ST stores 2^SZ bytes of sD to memory or control space. -/
  | st (u : Nat) (x : Payload)
  /-- R138: VLD loads 256 bytes into a vector register, lanes masked by the predicate. -/
  | vld (u : Nat) (x : Payload)
  /-- R138: VST stores a vector register's enabled lanes to 256 bytes of memory. -/
  | vst (u : Nat) (x : Payload)
  /-- R135: BR compares sA with sB and branches relative to its own address when the condition holds. -/
  | br (u : Nat) (x : Payload)
  /-- R135: J jumps relative to its own address when its predicate holds. -/
  | j (u : Nat) (x : Payload)
  /-- R135: JR writes the return address to sD and jumps to sA. -/
  | jr (u : Nat) (x : Payload)
  /-- R137: SYS NOP does nothing. -/
  | sysNop (u : Nat) (x : Payload)
  /-- R137: SYS END stops issue; the program ends once every earlier long instruction has completed. -/
  | sysEnd (u : Nat) (x : Payload)
  /-- R178: A core's END completes after its last long instruction completes, ending the program and possibly
  completing its CALL_CORE. -/
  | programEnd (u : Nat)
  /-- R137: SYS FENCE waits until earlier instructions of the selected classes have completed and their writes have
  been performed. -/
  | sysFence (u : Nat) (x : Payload)
  /-- R137: SYS SEMWAIT sends a wait on the semaphore named by sA and blocks the core until it is granted. -/
  | semwait (u : Nat) (x : Payload)
  /-- R102: SYS SEMSIG sends a signal once every earlier instruction of the core has completed. -/
  | semsig (u : Nat) (x : Payload)
  /-- R156: SYS ICINV invalidates the instruction cache. -/
  | sysIcinv (u : Nat) (x : Payload)
  /-- R137: SYS TRAP raises fault 0x4107, with sA as the fault address. -/
  | sysTrap (u : Nat) (x : Payload)
  /-- R137: SYS RDTIME reads the region's site-time count into sD. -/
  | rdtime (u : Nat) (x : Payload)
  /-- R137: SYS RDCORE reads the logical core, cluster, lodging and level in force into sD. -/
  | rdcore (u : Nat) (x : Payload)
  /-- R186: SYS QPUT fills a reduction slot of the core, waiting while the slot is unconsumed, and may complete
  waiting REDUCE_Q commands. -/
  | qput (u : Nat) (x : Payload)
  /-- R137: SYS RDBASE reads the address of the core's own logical sub-window into sD. -/
  | rdbase (u : Nat) (x : Payload)
  /-- R143: LDD loads a 64-byte loop descriptor from memory, checking its fields. -/
  | ldd (u : Nat) (x : Payload)
  /-- R143: STD stores a loop descriptor to memory. -/
  | std (u : Nat) (x : Payload)
  /-- R143: DSET writes sA into one field of a loop descriptor. -/
  | dset (u : Nat) (x : Payload)
  /-- R138: VALU applies a lane-wise FP32 or integer function to vector registers. -/
  | valu (u : Nat) (x : Payload)
  /-- R138: VCMP compares lanes and writes a predicate. -/
  | vcmp (u : Nat) (x : Payload)
  /-- R138: VCVTO converts 64 FP32 lanes to a packed narrower format, with MX scales to a scalar. -/
  | vcvto (u : Nat) (x : Payload)
  /-- R138: VCVTI unpacks 64 elements of a format into FP32 lanes. -/
  | vcvti (u : Nat) (x : Payload)
  /-- R138: VSPLIT splits FP32 lanes into BF16 high and low parts under CVT.SPLIT. -/
  | vsplit (u : Nat) (x : Payload)
  /-- R138: VRED reduces the enabled lanes of a vector register into a scalar. -/
  | vred (u : Nat) (x : Payload)
  /-- R138: VMOV broadcasts, inserts, extracts, permutes or copies lanes under its FN. -/
  | vmov (u : Nat) (x : Payload)
  /-- R147: MATMUL issues to the matrix path, loads weight tiles and feeds activation rows through the array into PM
  accumulators. -/
  | matmul (u : Nat) (bcast : Bool) (w : LPayload)
  /-- R151: PMOUT passes accumulator rows through the output stage and writes the converted results. -/
  | pmout (u : Nat) (bcast : Bool) (w : LPayload)
  /-- R152: PMCLR sets the walked accumulator rows to +0. -/
  | pmclr (u : Nat) (bcast : Bool) (w : LPayload)
  /-- R154: A DMA with SUB 0 reads walked runs and writes them contiguously. -/
  | dmaGather (u : Nat) (bcast : Bool) (w : LPayload)
  /-- R154: A DMA with SUB 1 reads contiguous runs and writes them to walked points. -/
  | dmaScatter (u : Nat) (bcast : Bool) (w : LPayload)
  /-- R95: A DMA with SUB 2 to 4 copies tile rows through a transposing write into AM or CM. -/
  | dmaTranspose (u : Nat) (bcast : Bool) (w : LPayload)
  /-- R154: A DMA with SUB 5 fills walked runs with one byte value. -/
  | dmaFill (u : Nat) (bcast : Bool) (w : LPayload)
  /-- R209: A DMA with SUB 6 reads a dispatch list and gathers the listed tokens of an expert range into a packed
  buffer. -/
  | dmaDispatchGather (u : Nat) (bcast : Bool) (w : LPayload)
  /-- R209: A DMA with SUB 7 reads a dispatch list and scatters packed results into per-token slots. -/
  | dmaDispatchScatter (u : Nat) (bcast : Bool) (w : LPayload)
  /-- R247: A DMA with SUB 8 sends runs as REDUCE_ADD flits for in-network reduction, at contract levels 1 and 2 only.
  -/
  | dmaReduceStore (u : Nat) (bcast : Bool) (w : LPayload)
  /-- R155: REDUCE walks elements, converts them to FP32 and reduces them into a scalar. -/
  | reduce (u : Nat) (bcast : Bool) (w : LPayload)
  /-- R153: ZMAP reads runs of elements and writes a zero-block map to AM. -/
  | zmap (u : Nat) (bcast : Bool) (w : LPayload)
  /-- R156: An instruction-cache miss fetches the line and its successor from HBM, or faults on a failed fetch. -/
  | icacheMiss (u : Nat) (parity : Bool)
  /-- R222: A response or write acknowledgement reaches its requester and frees its response-table entry. -/
  | responseArrival (id error addr : Nat)
  /-- R283: Once all checks of a step have passed, its shadow rows become committed contents in one core cycle. -/
  | stepCommit (u op : Nat)
  /-- R146: Once its last step has committed and its writes are performed, a long instruction completes and sends its
  signal-at-commit. -/
  | longInstructionComplete (op : Nat)
  /-- R285: A failed check aborts the step, discards uncommitted steps, writes a record and restarts the step from its
  latched state. -/
  | stepReplay (u op event inst dev : Nat) (lost : Bool)
  /-- R289: When the takeover copy ends, the core map moves, the spare is reset and loaded, and held traffic is
  released. -/
  | takeoverCopyDone (c l : Nat) (lost : Bool) (bad : List Nat)
  /-- R81: CO_ME_TEST.INJECT injects one fault into the next pass. -/
  | meInject (rq : Machine.Rq) (u code : Nat)
  /-- R81: CO_ME_TEST.CLR_COUNTS clears the three counters of CO_ME_STATUS. -/
  | meClrCounts (rq : Machine.Rq) (u : Nat)
  /-- R288: At each 1 ms boundary the sequencer probes every present core and fences one that has missed two answers.
  -/
  | coreHeartbeatProbe (c : Nat) (silent : List Nat)
  /-- R296: STORM_HOLD after the stop, the cluster's clock restarts one frequency step lower. -/
  | stormHoldEnd (c : Nat)
  /-- R296: After 1 s without a further burst, the burst ceiling lifts. -/
  | stormCeilingLift (c : Nat)
  /-- R295: A sequencer lockstep mismatch stops it, faults its streams and resets it, or fences the cluster on a
  second mismatch. -/
  | sequencerMismatch (c : Nat)
  /-- R299: At each 1 s boundary the innkeeper starts an eligible or due dressing run, swapping the slot with its
  spare. -/
  | dressingSchedule
  /-- R302: A dressing run ends with a pass or a failure, and the slot becomes the spare or is fenced. -/
  | dressingRunEnd (u verdict : Nat)
  /-- R309: A write of MG_LEDGER_READ.READ frees the records from the old index to the new. -/
  | ledgerReadAdvance (rq : Machine.Rq) (v : Nat)
  /-- R303: A write of MG_LEDGER_MIRROR.BASE copies every held record to the mirror ring. -/
  | ledgerMirrorSet (rq : Machine.Rq) (v : Nat)
  /-- R165: Writing STATE = 1 to a free or ended stream table entry arms it, or refuses the arm. -/
  | streamArm (rq : Machine.Rq) (id : Nat) (w : Word)
  /-- R165: Writing word 7 with STATE = 0 to an ARMED entry disarms it. -/
  | streamDisarm (rq : Machine.Rq) (id : Nat) (w : Word)
  /-- R165: Writing STATE = 0 to a DONE, FAULTED or STOPPED entry frees it. -/
  | streamFree (rq : Machine.Rq) (id : Nat) (w : Word)
  /-- R167: At each 1 µs boundary the scheduler examines ARMED entries and releases up to 256 whose conditions hold.
  -/
  | streamReleaseBoundary (mismatch : Bool)
  /-- R162: When a sequencer slot frees, the earliest-released READY stream takes it and becomes RUNNING. -/
  | streamSlotAssign (c i : Nat)
  /-- R194: GL_STREAM_CTRL with OP 1 stops the named stream. -/
  | streamStop (rq : Machine.Rq) (id : Nat)
  /-- R175: A TENSOR command broadcasts a long instruction to the named gang of logical cores. -/
  | tensor (c i : Nat)
  /-- R175: When every core of the gang has a free broadcast entry, the instruction is delivered to all in one network
  cycle. -/
  | tensorDelivery (c : Nat)
  /-- R178: A CALL_CORE reads the binary header and starts the named logical cores, or faults its stream. -/
  | callCore (c i : Nat)
  /-- R125: A named core whose earlier program has ended clears its state, loads its arguments and starts at the
  entry. -/
  | coreProgramStart (c l : Nat)
  /-- R154: A DMA command record queues a transfer on the sequencer's DMA engine. -/
  | dma (c i : Nat)
  /-- R102: A SEM_SIGNAL command sends a signal once every earlier command of its stream has completed. -/
  | semSignal (c i : Nat)
  /-- R101: A SEM_WAIT command blocks its stream on a semaphore wait. -/
  | semWait (c i : Nat)
  /-- R182: A FLAG_SET command sets, adds to or raises a flag after earlier commands complete, and re-examines waits.
  -/
  | flagSet (c i : Nat)
  /-- R182: A FLAG_WAIT command blocks its stream until a flag comparison holds. -/
  | flagWait (c i : Nat)
  /-- R184: A BARRIER command arrives at a barrier counter and blocks its stream until the generation completes. -/
  | barrier (c i : Nat)
  /-- R348: At each wave interval the waiting streams of the next cluster are released. -/
  | barrierWaveRelease (b : Nat)
  /-- R188: A WAIT_TIME command blocks its stream until a site-time count. -/
  | waitTime (c i : Nat)
  /-- R188: The region's site time reaches the WAIT_TIME count and the stream issues its next command. -/
  | waitTimeExpiry (c i : Nat)
  /-- R186: A REDUCE_Q command combines the cores' reduction slots into a q register once all are full. -/
  | reduceQ (c i : Nat)
  /-- R187: A BRANCH command compares q registers or an immediate and redirects the stream. -/
  | branch (c i : Nat)
  /-- R346: A RAMP_NOTICE command passes an announced ramp to the power controller, which drives the outputs and holds
  the notice. -/
  | rampNotice (c i : Nat)
  /-- R346: At START + DURATION a notice's window ends and the RAMP_NOTICE outputs fall back. -/
  | rampNoticeExpiry
  /-- R190: A CHECKPOINT_MARK records the micro-batch and checkpoint position, and holds the stream while a capture is
  pending. -/
  | checkpointMark (c i : Nat)
  /-- R173: An END command ends its stream, which becomes DONE, once earlier commands complete. -/
  | endCmd (c i : Nat)
  /-- R173: A launched command completes on its cores, freeing a launch place and possibly ending a stopping or
  faulted stream. -/
  | launchComplete (n : Nat)
  /-- R191: A timed wait that exceeds its timeout faults its stream with event 0x4008. -/
  | streamWaitTimeout (qput : Bool) (k : Nat)
  /-- R183: CL_FLAG_WRITE with OP 0 sets a flag and re-examines waits and release conditions. -/
  | flagWriteSet (rq : Machine.Rq) (c k v : Nat)
  /-- R183: CL_FLAG_WRITE with OP 1 adds to a flag, saturating. -/
  | flagWriteAdd (rq : Machine.Rq) (c k v : Nat)
  /-- R183: CL_FLAG_WRITE with OP 2 raises a flag to the maximum of it and VALUE. -/
  | flagWriteMax (rq : Machine.Rq) (c k v : Nat)
  /-- R203: A write of CL_ROUTE_SUBMIT queues a routing job, or is refused when the queue is full or the router
  fenced. -/
  | routeSubmit (rq : Machine.Rq) (c desc : Nat)
  /-- R199: The router takes its next job, reads the descriptor, clears STATUS and runs pass 1 and pass 2. -/
  | routingJobStart (c : Nat) (bad : Option Nat)
  /-- R199: A routing job ends by writing the list header and sending its signal, or by replay or failure. -/
  | routingJobEnd (c : Nat) (bad : Option Nat)
  /-- R230: A flit that fails its CRC at a link receiver is discarded and replayed, charging lane groups. -/
  | linkCrcRetry (i flit : Nat) (groups : List Nat) (again : Bool)
  /-- R232: A receiver without a valid flit for 1,024 network cycles retrains its link. -/
  | linkIdleTimeout (i : Nat)
  /-- R232: A link retraining ends, restoring traffic or removing the link after three failures. -/
  | linkRetrainDone (i : Nat) (ok : Bool)
  /-- R245: NW_LINK_CMD with OP 1 retrains a link. -/
  | linkRetrain (rq : Machine.Rq) (i : Nat)
  /-- R245: NW_LINK_CMD with OP 2 removes a link, stranding its queued flits. -/
  | linkRemove (rq : Machine.Rq) (i : Nat)
  /-- R233: At each 1 ms boundary router heartbeats are checked and a router that missed two is fenced. -/
  | routerHeartbeatCheck (silent : List Nat)
  /-- R228: NW_TOPO_CTRL.ARM arms a detour-table bank switch at NW_TOPO_SWITCH. -/
  | topoSwitchArm (rq : Machine.Rq)
  /-- R228: At the switch count every router makes its other bank active and re-injects stranded flits. -/
  | topoSwitch
  /-- R234: NW_SWEEP.START arms a sweep for a fenced router at the next switch count. -/
  | sweepStart (rq : Machine.Rq) (r : Nat)
  /-- R234: At S + 100 µs every request issued before S and still outstanding gets an error response. -/
  | sweepExpiry (reads : List (Machine.Rq × Nat × Nat))
  /-- R235: After at most 50 µs of draining, routers switched off for heat go off, and a sweep follows if flits
  remained. -/
  | routerDrainEnd (field : Nat) (flitsLeft : Bool)
  /-- R242: A grant of kind 2 or 4 held for WATCHDOG network cycles is force-released. -/
  | ostlerHoldWatchdog (kind unit index : Nat)
  /-- R243: A router output port starved of credit for WATCHDOG cycles fires its watchdog and retrains the link. -/
  | creditWatchdog (r port : Nat)
  /-- R248: A REDUCE_ADD flit at a router allocates or merges into a reduction buffer entry, or passes. -/
  | reduceAddMerge (r n : Nat) (mismatch : Bool)
  /-- R248: After 8 merges or HOLD network cycles, a reduction entry is forwarded as one flit. -/
  | reduceEntryForward (id : Nat)
  /-- R249: The acknowledgement of a forwarded reduction flit returns and the router acknowledges each merged
  requester. -/
  | reduceAck (id : Nat)
  /-- R259: A granted 64 B access is performed at an HBM front end, with parity retries and ECC handling. -/
  | hbmAccess (rq : Machine.Rq) (op pa : Nat) (raw : Bool) (write : Option (List (Option (BitVec 8)))) (parity ecc : Nat)
  /-- R264: Every 1 s the innkeeper reads the DRAM's error-check-and-scrub counts and records increases. -/
  | hbmEcsPoll (counts : List Nat)
  /-- R260: At the HB_RATE_SWITCH count a stack freezes its front ends and enters self refresh for a rate change. -/
  | hbmRateChange (k : Nat)
  /-- R260: The stack leaves self refresh at the new rate and its ostlers unfreeze. -/
  | hbmRateChangeDone (k : Nat)
  /-- R268: A translation miss reads a page table entry and fills caches or raises a translation fault. -/
  | translationWalk (rq : Machine.Rq) (op va : Nat) (wr ex : Bool) (parity ecc lost : Nat)
  /-- R271: A write of GL_TLB_INVAL drops cached entries of a lodging's page range. -/
  | tlbInvalidate (rq : Machine.Rq) (l first pages : Nat)
  /-- R271: Once requests translated through dropped entries are performed, PENDING clears and DONE sets. -/
  | tlbInvalidateDone
  /-- R272: A write of GL_SCRUB_SUBMIT queues a scrub job of physical frames. -/
  | scrubSubmit (rq : Machine.Rq) (first frames : Nat)
  /-- R272: A scrub job ends when every zero write is performed and COMPLETED advances. -/
  | scrubJobDone (bad : List (Nat × Nat))
  /-- R318: At each 1 ms boundary each region compares its count with the sync word and reloads it on mismatch. -/
  | regionSyncCheck (faults : List (Nat × Nat))
  /-- R321: A PTP frame is timestamped and the servo trims TM_FREQ_ADJ or flags a step. -/
  | ptpSample (kind port sub domain : Nat) (who : List Nat) (time frac : Nat)
  /-- R322: A SITE_TICK edge is stamped, accepted or rejected, and TM_TICK_NEXT advances. -/
  | siteTickEdge (frac : Nat)
  /-- R323: With no valid sample for 3 s or 3 ticks, discipline enters HOLDOVER. -/
  | disciplineHoldover
  /-- R320: A write of TM_STEP_FWD steps the counter forward in one tick while STEP_NEEDED is set. -/
  | stepForward (rq : Machine.Rq) (amount : Nat)
  /-- R320: A write of TM_SITE_NOW while no lodging is open sets the master count. -/
  | siteNowWrite (rq : Machine.Rq) (v : Nat)
  /-- R324: At every 1 s boundary SITE_TICK_OUT begins a pulse. -/
  | siteTickOutPulse
  /-- R324: After OUT_WIDTH ms the SITE_TICK_OUT pulse ends. -/
  | siteTickOutEnd
  /-- R325: A write of a TM_STEP_TABLE entry is accepted or refused against the fused limits. -/
  | stepTableWrite (rq : Machine.Rq) (i w : Nat)
  /-- R327: A write of TM_SWITCH_COUNT starts a synchronised step change: S is chosen and voltages and synthesisers
  prepare. -/
  | switchCountWrite (rq : Machine.Rq) (target count : Nat)
  /-- R327: At S every ready region moves its clock to the new frequency step. -/
  | frequencySwitch (late : List (Nat × Nat))
  /-- R327: A region not ready at S switches at the first 1 µs boundary after it becomes ready. -/
  | regionLateSwitch (r : Nat)
  /-- R327: When every region has switched and settled, PENDING clears and event 0x5106 is written. -/
  | frequencySwitchComplete
  /-- R329: After a ceiling change, a region switches step at a boundary once its synthesiser and voltage are ready.
  -/
  | regionCeilingSwitch (r : Nat)
  /-- R334: A regulator phase with a fault is disabled, and its domain is ceilinged, turned off or the device stopped.
  -/
  | phaseFault (d phase : Nat)
  /-- R336: At each 1 ms boundary domain current and voltage means are updated. -/
  | domainMeasure (vals : List (Nat × Nat))
  /-- R338: At each 1 ms boundary each domain refits its estimator gain and offset. -/
  | estimatorCalibration
  /-- R340: At every 1 µs boundary the limiter computes permitted power and sets the throttles. -/
  | limiterTick (acts leaks : List Nat) (board demand duty : Nat) (pause : Bool) (gate pace hbm : Nat)
  /-- R339: A write of a sustained, peak or shed cap is clamped to range and takes effect at the next 1 µs boundary.
  -/
  | capWrite (rq : Machine.Rq) (which v : Nat)
  /-- R341: SHED_N taken as asserted applies the shed cap and lifts the fall limit. -/
  | shedAssert
  /-- R341: SHED_N taken as released removes the shed cap. -/
  | shedRelease
  /-- R344: After DWELL of reduced duty, every cluster's power ceiling falls one frequency step. -/
  | powerCeilingLower
  /-- R344: After 20 ms of full duty with headroom, the power ceiling rises one frequency step. -/
  | powerCeilingRaise
  /-- R349: At its count a valid cap-schedule entry writes its caps and slope as one write and clears VALID. -/
  | capScheduleStep (i : Nat)
  /-- R350: Every 20 µs all thermal sensors are read and the thermal stops are applied. -/
  | sensorScan (temps bad : List Nat)
  /-- R351: Every 10 ms while Tc exceeds TARGET, the cluster's thermal ceiling falls one step. -/
  | thermalCeilingFall (c : Nat)
  /-- R351: Every 100 ms while Tc is below TARGET − 3 °C, the thermal ceiling rises one step. -/
  | thermalCeilingRise (c : Nat)
  /-- R235: A field at or above 115 °C for 1 ms has its routers drained and switched off. -/
  | fieldRoutersOff (f : Nat)
  /-- R455: VSTBY becomes valid: site time starts at 0 and BOOT_SRC is sampled. -/
  | vstbyValid (straps : Nat) (resetN : Bool)
  /-- R456: PWR_GOOD taken as high lets the start enable in-package regulators. -/
  | pwrGoodRise
  /-- R354: PWR_GOOD taken as low stops every clock outside VSTBY and holds a whole-device reset. -/
  | pwrGoodFall
  /-- R458: RESET_N taken as asserted holds a whole-device reset. -/
  | resetNAssert
  /-- R458: RESET_N taken as released marks t0 of the start sequence. -/
  | resetNRelease (straps : Nat)
  /-- R361: At t0 the innkeeper runs the start steps from ROM boot to ready, writing the boot journal. -/
  | startSequence
  /-- R375: A start step exceeding its watchdog is marked failed and a whole-device reset follows. -/
  | startStepWatchdog (done : Nat)
  /-- R359: Every 1 s until an offer arrives, the innkeeper sends BOOT_REQUEST on each selected source. -/
  | bootRequest
  /-- R359: An IMAGE_OFFER announces a firmware image, or with STAGE a staged update, and is accepted or refused. -/
  | imageOffer (h : Option MsgHdr) (source version size : Nat) (list : Bool)
  /-- R359: An IMAGE_DATA chunk is stored and the highest contiguous offset acknowledged. -/
  | imageData (h : Option MsgHdr) (source offset : Nat) (bs : List (BitVec 8))
  /-- R367: A DEFECT_LIST message delivers a host defect list. -/
  | defectList (h : Option MsgHdr) (source : Nat) (p : HostList)
  /-- R360: IMAGE_END triggers verification of the image and an IMAGE_VERDICT reply. -/
  | imageEnd (h : Option MsgHdr) (source : Nat)
  /-- R359: A host silent for 60 s after its offer has its transfer discarded. -/
  | imageTransferTimeout
  /-- R375: BOOT_INSTRUCT tells a stopped start to retry normally, retry by the alternative, or stay stopped. -/
  | bootInstruct (what : Nat)
  /-- R377: MG_START_CTRL with OP 1 makes a whole-device reset. -/
  | wholeDeviceReset (rq : Machine.Rq)
  /-- R372: MG_START_CTRL with OP 2 burns runtime defect entries into the next OTP spare generation. -/
  | burnGeneration (rq : Machine.Rq) (fails : Nat) (cut : Bool)
  /-- R375: MG_START_CTRL with OP 3 clears the start-step failure counts. -/
  | clearFailureCounts (rq : Machine.Rq)
  /-- R379: CL_RESET with OP 1 resets one core slot. -/
  | coreReset (rq : Machine.Rq) (c slot : Nat)
  /-- R380: CL_RESET with OP 2 resets a cluster, with a scrub when SCRUB is set. -/
  | clusterReset (rq : Machine.Rq) (c : Nat) (scrub : Bool)
  /-- R381: GL_LODGING_RESET with START begins a lodging reset, stopping its streams and cores. -/
  | glLodgingResetStart (rq : Machine.Rq) (l : Nat) (scrub : Bool)
  /-- R381: At t0 + 200 µs of a lodging reset, LODGING_FREEZE is set and parked requesters leave with error responses.
  -/
  | lodgingFreezePoint (l : Nat)
  /-- R381: At t0 + 4 ms of a lodging reset, outstanding requests complete with error responses and clusters are
  reset. -/
  | lodgingResetSweep (l : Nat)
  /-- R381: The clusters' resets end, LODGING_FREEZE clears and event 0x6103 is written. -/
  | lodgingResetComplete (l : Nat)
  /-- R378: A late response for an absorbed entry is discarded and its entries freed. -/
  | absorbedResponse (id : Nat)
  /-- R435: ATTACH opens a management session for an owner or lodging host, negotiating versions and a channel key. -/
  | attach (h : MsgHdr) (mgmt : Bool) (role l key : Nat) (versions : List (List Nat))
  /-- R435: DETACH ends a management session. -/
  | detach (h : MsgHdr)
  /-- R435: A session without a valid message for 60 s ends. -/
  | sessionTimeout (n : Nat)
  /-- R438: OWNER_BIND burns the owner key hash into a new persistent-settings record. -/
  | ownerBind (h : MsgHdr)
  /-- R398: ATTEST_REQ returns a signed attestation report, and a wrapped session key when the host gives a key. -/
  | attestReq (h : MsgHdr) (nonce : Nat) (modulus : Option (List (BitVec 8)))
  /-- R401: KEY_INSTALL unwraps a key into an empty slot of the lodging's range, or refuses it. -/
  | keyInstall (h : MsgHdr) (l k id dir wrapped : Nat)
  /-- R402: KEY_ERASE empties a key slot of the lodging's range. -/
  | keyErase (h : MsgHdr) (l k : Nat)
  /-- R390: LODGING_OPEN checks and grants resources and opens a lodging. -/
  | lodgingOpen (h : MsgHdr) (q : LodgingReq)
  /-- R392: LODGING_CHANGE adds resources to or removes clusters from an open lodging. -/
  | lodgingChange (h : MsgHdr) (q : LodgingReq) (remove : Bool)
  /-- R391: LODGING_CLOSE resets and scrubs a lodging and releases all its grants. -/
  | lodgingClose (h : MsgHdr) (l : Nat)
  /-- R381: The LODGING_RESET message starts a lodging reset for its lodging. -/
  | lodgingReset (h : MsgHdr) (l : Nat) (scrub : Bool)
  /-- R438: PAGE_MAP writes or clears page table entries and invalidates their translations. -/
  | pageMap (h : MsgHdr) (l : Nat) (es : List PageEntry)
  /-- R394: FRAME_RETURN releases frames of a lodging for scrubbing. -/
  | frameReturn (h : MsgHdr) (l : Nat) (fs : List Nat)
  /-- R410: CONN_OPEN opens a RoCE connection of a lodging, or refuses it. -/
  | connOpen (h : MsgHdr) (l : Nat) (q : ConnReq)
  /-- R411: CONN_CLOSE closes a connection, freeing its index. -/
  | connClose (h : MsgHdr) (l c : Nat)
  /-- R408: ADDR_SET sets a sub-port's MAC, IPv4 and IPv6 addresses. -/
  | addrSet (h : MsgHdr) (port sub mac ip4 ip6 : Nat)
  /-- R439: LEDGER_READ returns up to 21 ledger records, freeing them for the owner when asked. -/
  | ledgerRead (h : MsgHdr) (w : Nat) (free : Bool)
  /-- R439: An unacknowledged push is resent every 100 ms, three times at most, then recorded as failed. -/
  | eventPushRetry (dst written : Nat)
  /-- R439: A host's acknowledgement of an EVENT_PUSH stops its resends. -/
  | eventPushAck (h : MsgHdr) (written : Nat)
  /-- R370: DEFECT_READ returns the runtime defect list. -/
  | defectRead (h : MsgHdr)
  /-- R372: OTP_BURN asks for the next OTP defect generation to be burnt. -/
  | otpBurn (h : MsgHdr) (fails : Nat) (cut : Bool)
  /-- R397: FW_MIN_RAISE burns a higher minimum firmware version, or is refused. -/
  | fwMinRaise (h : MsgHdr) (v : Nat)
  /-- R438: POWER_SET writes caps, slope, priority and cap-schedule entries. -/
  | powerSet (h : MsgHdr) (ws : List (Nat × Nat × Word))
  /-- R438: TELEMETRY_READ returns power, sensor and discipline telemetry. -/
  | telemetryRead (h : MsgHdr)
  /-- R438: SITE_SET writes the discipline, tick, site-time and switch registers. -/
  | siteSet (h : MsgHdr) (ws : List (Nat × Nat × Word))
  /-- R445: DRESS_LEASE grants a lease to dress cores that have no qualifying spare. -/
  | dressLease (h : MsgHdr) (c mask start length : Nat)
  /-- R445: A lease ends when every named core is dressed or at its end count, and the results are replied. -/
  | dressLeaseEnd (c : Nat)
  /-- R445: DRESS_STATUS returns due times, spare qualification and dressing status. -/
  | dressStatus (h : MsgHdr)
  /-- R444: UPDATE_COMMIT schedules the staged image's commit at a site-time count, or is refused. -/
  | updateCommit (h : MsgHdr) (count : Nat) (force : Bool)
  /-- R444: At the commit count the staged image is copied, a commit mark recorded and a whole-device reset made. -/
  | updateCommitExecute (intact : Bool)
  /-- R432: A lockstep mismatch of the innkeeper controller restarts it from ROM, or stops it on a second mismatch. -/
  | controllerMismatch
  /-- R440: An SMBus Read Byte returns a status or identity byte. -/
  | smbusReadByte (cmd : Nat) (hung : Bool)
  /-- R440: An SMBus Read Word returns a telemetry or status word. -/
  | smbusReadWord (cmd : Nat) (hung : Bool)
  /-- R465: SCL low for 25 to 35 ms releases the bus and resets the SMBus state machine. -/
  | smbusTimeout
  /-- R466: The EXTEST instruction drives the boundary cells while PWR_GOOD is low. -/
  | extest (cells : Nat)
  /-- R466: The SAMPLE/PRELOAD instruction captures and preloads the boundary-scan chain. -/
  | samplePreload (cells : Nat)
  /-- R466: The IDCODE instruction returns the 32-bit device identifier. -/
  | idcode
  /-- R466: The CLAMP instruction holds the boundary outputs while PWR_GOOD is low. -/
  | clamp
  /-- R466: The HIGHZ instruction floats the boundary outputs while PWR_GOOD is low. -/
  | highz
  /-- R466: The BYPASS instruction selects the 1-bit bypass register. -/
  | bypass
  /-- R466: TRST_N low resets the TAP asynchronously. -/
  | jtagTapReset
  /-- R466: An IMAGE_LOAD offer command starts a JTAG image transfer of a given size. -/
  | imageLoadOffer (size : Nat)
  /-- R466: An IMAGE_LOAD data command delivers the next 4 bytes of the image. -/
  | imageLoadData (w : Nat) (busy : Bool)
  /-- R466: An IMAGE_LOAD end command triggers verification of the JTAG image. -/
  | imageLoadEnd
  /-- R416: A received RDMA WRITE packet is decrypted, checked against its region and performed, then acknowledged. -/
  | rdmaWrite (p : Pkt)
  /-- R417: A received RDMA WRITE with immediate is performed and writes a completion record and raises the notify
  flag. -/
  | rdmaWriteWithImmediate (p : Pkt)
  /-- R414: A received RDMA READ request is checked against its region and answered with read responses. -/
  | rdmaRead (p : Pkt)
  /-- R417: A received SEND fills the next receive buffer and writes a completion record. -/
  | send (p : Pkt)
  /-- R417: A received SEND with immediate fills a receive buffer and writes a completion record with its immediate.
  -/
  | sendWithImmediate (p : Pkt)
  /-- R419: A read response packet for a Vuveand READ is written to local memory, completing the request at its end.
  -/
  | rdmaReadResponse (p : Pkt)
  /-- R419: A received acknowledgement or NAK completes or retransmits Vuveand's requests in ring order. -/
  | acknowledgement (p : Pkt) (syndrome : Nat)
  /-- R411: An acknowledgement timeout retransmits go-back-N, or puts the connection into ERROR when retries are
  exhausted. -/
  | ackTimeout (l c : Nat)
  /-- R408: A received CNP halves the connection's transmit rate. -/
  | cnp (p : Pkt)
  /-- R408: Every 50 µs without a CNP, a connection's transmit rate rises by 1/64 of line rate. -/
  | cnpRateRecovery (l c : Nat)
  /-- R408: An ARP request for a sub-port's address is answered in hardware. -/
  | arpRequest (port sub ip : Nat)
  /-- R408: An IPv6 Neighbor Solicitation for a sub-port's address is answered in hardware. -/
  | neighborSolicitation (port sub ip : Nat)
  /-- R408: A received IEEE 802.1Qbb pause frame pauses RoCE transmission at its priority. -/
  | pauseFrame (port sub prio : Nat) (on : Bool)
  /-- R407: A sub-port's link comes up or goes down. -/
  | subportLinkChange (port sub : Nat) (up : Bool)
  /-- R418: A write of ET_CONN_POST.TAIL posts work requests on a connection's send ring. -/
  | sendRingPost (rq : Machine.Rq) (l c : Nat) (w : Word)
  /-- R417: A write of ET_CONN_POST.RX_READ frees receive buffers and completion records. -/
  | rxRingFree (rq : Machine.Rq) (l c : Nat) (w : Word)
  /-- R418: The engine starts the next work request in ring order, sending its packets or refusing it; stalled, its first frame is
  granted and held (R237, R242). -/
  | workRequestStart (l c : Nat) (stall : Bool)
  /-- R422: At a capture's due count the capture becomes pending, or is skipped while the previous drain runs. -/
  | checkpointDue (l : Nat)
  /-- R424: Once the lodging is quiescent, its schedule state is taken into the buffer and the drain begins. -/
  | checkpointCapture (l : Nat)
  /-- R423: A capture not taken within CAPTURE_LIMIT is abandoned and held streams continue. -/
  | captureLimitExpiry (l : Nat)
  /-- R428: ET_RESUME with START restores a resume image into a lodging, or refuses it. -/
  | resume (rq : Machine.Rq) (l base : Nat)
  /-- R379: Up to 20 µs after a core reset began, its held accesses and broadcasts are released, CORE_BUSY clears and
  event 0x6101 is written. -/
  | coreResetComplete (u : Nat)
  /-- R380: At the end of a cluster reset, or after the heat stop ends, the ostlers unfreeze, held requests are
  served, pending takeovers proceed and event 0x6102 is written. -/
  | clusterResetComplete (c : Nat)
  /-- R361: A start step such as link training, memory marches or a retention phase ends, its journal OUTCOME is set
  and the next step begins. -/
  | startStepComplete (k : Nat) (r : StepReport)
  /-- R424: At most 2 ms after taking began, held configuration writes and completions are performed, held streams
  continue, event 0x8010 is written and the drain begins. -/
  | checkpointStateTaken (l : Nat)
  /-- R428: Within 20 ms of START, the restore has written semaphores, flags, barriers and entries, RESULT becomes 2
  and event 0x8015 is written. -/
  | resumeCompleted (l : Nat)
  /-- R432: Within 100 ms of a lockstep restart, the innkeeper controller resumes from its checked image and again
  accepts management messages and advances heartbeats. -/
  | controllerResume (imageOk : Bool)
  /-- R233: A SECDED error in router storage is corrected and counted, or, if it cannot be corrected, the router is
  fenced with event 0x3007. -/
  | routerStorageError (r : Nat) (corrected : Bool)
  /-- R293: A cluster interface fails its lockstep compare or its heartbeat to the uncore hub, and the whole cluster
  is fenced with event 0x1019, cause 2. -/
  | clusterInterfaceFailure (c : Nat)
  /-- R265: At each refresh interval, stretched or doubled as in force, a front end issues per-bank refresh at rank 3
  of its ostler, also in self refresh and during resets. -/
  | hbmRefresh (k pc bank : Nat) (mgmt : Bool)
  /-- R252: Every 1 ms the innkeeper reads each stack's temperature, setting HB_STATUS.HOT and doubling the refresh
  rate above 85 °C. -/
  | hbmTemperatureReadout (temps : List Nat)
  /-- R321: At the PTP message rate, Vuveand sends a Delay_Req in the management class and stamps its transmission in
  hardware for the servo. -/
  | delayReq (frac : Nat)
  /-- R440: An SMBus write transaction has its command byte acknowledged and its data byte not acknowledged, and
  changes nothing. -/
  | smbusWrite (cmd : Nat) (hung : Bool)
  /-- R408: A received frame that is not RoCE v2, PTP, ARP or Neighbor Solicitation for the sub-port, or management on
  port 0, is dropped and counted in ET_PORT_STATUS.DROPPED. -/
  | frameNotAccepted (port sub : Nat)
  /-- R409: A received RoCE request for an atomic operation, memory window, invalidation or SEND with invalidate draws
  an Invalid Request NAK. -/
  | unsupportedOperation (p : Pkt)
  /-- R457: VSTBY is removed, losing the ledger, boot journal, runtime defect list, retention memory and site time. -/
  | vstbyRemoval
  /-- R132: An instruction with a reserved major opcode or reserved long opcode, including an all-zero word, raises
  fault 0x4101 whatever its predicate. -/
  | reservedOpcode (u : Nat) (bcast : Bool) (word : BitVec 32)
  /-- R172: A command record with OPC 0x00 or an unlisted kind faults its stream with event 0x4001. -/
  | reservedCommandKind (c i : Nat)
  deriving DecidableEq, Repr

end Sys2Proof
end

