-- ==== Sys2Proof/Decode.lean ====
section
/-! DEFINITION. The block takes commands, not words: no row of spec/opcode_table.json gives bits, so that no word spells
one. -/

namespace Sys2Proof

def decodeTableWord (_nbits _w : Nat) : Option Instr := none

end Sys2Proof
end

