-- ==== Sys2Proof/Config.lean ====
section
/-! DEFINITION. What the spec leaves open: constants without a body, so that nothing in Lean can see a value of
them. Each is named in a row of notes/assumptions. -/

namespace Sys2Proof.Config

/-- The deviation, 0 to 4 standing for -2 to +2 units in the last place, of VEXP2, VLOG2, VRCP, VRSQRT and VTANH
(R138: accurate to within 2 ulp), by function and operand. -/
opaque freeUlp : Nat → BitVec 32 → BitVec 3

/-- The lane VEXP2, VLOG2, VRCP, VRSQRT or VTANH writes where the spec states no accuracy (a subnormal result). -/
opaque freeLane : Nat → BitVec 32 → BitVec 32

/-- The sort key that fixes an order the spec leaves open (R47 draws, R155 additions): by use number and index. -/
opaque freeOrder : Nat → Nat → Nat

/-- A 32-bit value the spec does not state, by use number. -/
opaque free32 : Nat → BitVec 32

/-- A 64-bit value the spec does not state, by use number. -/
opaque free64 : Nat → BitVec 64

/-- A byte the spec does not state, by use number and index. -/
opaque freeByte : Nat → Nat → BitVec 8

/-- The refresh interval of a bank, in counts of site time, at STRETCH 1 and not HOT, and the activations of a bank at which the
DRAM asks for a refresh-management command (R252: the DRAM's mode registers state them). -/
opaque refreshInterval : Nat
opaque rfmThreshold : Nat

/-- The set of a cluster's translation cache that holds a page of a lodging (R269). -/
opaque tlbSet : Nat → Nat → BitVec 7

/-- A choice the spec leaves to the hardware, by use number. -/
opaque freeBool : Nat → Bool

/-- How a combine weight lies about its exact value, and the weight where the spec states none (R198): by the
descriptor, the biases and the token's logits, the token and the rank, which fix it. -/
opaque freeWeight : List Nat → Nat → Nat → BitVec 32

/-- How a region's copy of the site time differs from the master count at that count: 0 equal, 1 one ahead, 2 one behind,
3 equal (11 R317). -/
opaque freeSkew : Nat → Nat → BitVec 2

/-- Fused conversion efficiency of the regulators, per mille (12 R337). -/
opaque regulatorEff : BitVec 10

/-- Rated power of a regulator domain, 0.01 W (12 R338). -/
opaque ratedPower : Nat → BitVec 24

/-- Which of a cluster's two sensors lies nearer a core slot of the device (10 R298): not placed by the spec. -/
opaque nearerSensor : Nat → Bool

/-- The code of a reason that the spec names without numbering it, by event and case: the reason of a refused image
(13 Table 13.12), the cause of a whole-device reset, the reason of a refused ATTACH and the cause of a session's end
(16 Table 16.7). -/
opaque code : Nat → Nat → BitVec 8

/-- The code of the reason of a connection's ERROR (15 R411, Table 15.10): 0 retries, 1 receiver-not-ready retries,
2 remote access error, 3 key slot, 4 lodging reset. -/
opaque connReason : Nat → BitVec 5

/-- What OTP and ROM hold for the part (Table 14.3, R471): the serial, the hash of the identity modulus and that of the
modulus the ROM derives, the firmware key hash, the hash of the boot ROM, and the MAC address of the management port. -/
opaque serial : BitVec 128
opaque identityHash : BitVec 256
opaque derivedHash : BitVec 256
opaque fwKeyHash : BitVec 256
opaque romHash : BitVec 256

/-- The version of the boot ROM that BOOT_REQUEST carries (13 R359). -/
opaque romVersion : BitVec 32

/-- Whether an image's signature verifies under the key its key block holds (13 R360): uninterpreted (log 10). -/
opaque verifies : List (BitVec 8) → Bool

/-- SHA-256 of a byte string, as a number (13 R360, 16 R435, R444); the spec names the function and this model
leaves it uninterpreted (log 10). -/
opaque sha256 : List (BitVec 8) → Nat

/-- RSASSA-PSS signature with the identity key over a byte string (14 R398, 16 R435): uninterpreted. -/
opaque sign : List (BitVec 8) → Nat

/-- RSAES-OAEP encryption of a key under a host's public key (14 R398): uninterpreted. -/
opaque oaep : Nat → Nat → Nat

/-- The key that wrapped bytes hold under a session key, none where the integrity check fails (14 R401): uninterpreted. -/
opaque unwrapKey : Nat → Nat → Option Nat

/-- Output of the CTR_DRBG, by use number (14 R398, 15 R414): uninterpreted. -/
opaque drbg : Nat → Nat

/-- AES-256-GCM of a payload under a key and an invocation counter (15 R413): uninterpreted. -/
opaque gcm : Nat → Nat → List (BitVec 8) → List (BitVec 8)

end Sys2Proof.Config
end

