-- ==== Sys2Proof/Machine/Float.lean ====
section
/-! DEFINITION. Number formats and binary32 arithmetic (02_number_formats.md R27-R31, R34-R38, R42-R48): exact
values, one rounding, and the numeric status bits an operation raises. -/

namespace Sys2Proof

/-- Bits of the numeric status (Table 2.11). -/
def nsInvalid : Nat := 1
def nsOverflow : Nat := 2
def nsSaturated : Nat := 4
def nsNanLost : Nat := 8
def nsIntInexact : Nat := 16
def nsFtz : Nat := 32

/-- Table 2.2, FP32. -/
def f32Spec : FmtSpec := ⟨8, 23, 127, 0x7F7FFFFF, some 0x7F800000, some 0x7FC00000⟩

/-- Table 2.2 by element format code; MX formats use their element format (R32). Integer formats have no layout. -/
def fmtSpec : Nat → FmtSpec
  | 0x2 => ⟨4, 3, 7, 0x7E, none, some 0x7F⟩
  | 0xA => ⟨4, 3, 7, 0x7E, none, some 0x7F⟩
  | 0x3 => ⟨5, 2, 15, 0x7B, some 0x7C, some 0x7E⟩
  | 0xB => ⟨5, 2, 15, 0x7B, some 0x7C, some 0x7E⟩
  | 0x4 => ⟨2, 3, 1, 0x1F, none, none⟩
  | 0xC => ⟨2, 3, 1, 0x1F, none, none⟩
  | 0x5 => ⟨3, 2, 3, 0x1F, none, none⟩
  | 0xD => ⟨3, 2, 3, 0x1F, none, none⟩
  | 0x6 => ⟨2, 1, 1, 0x7, none, none⟩
  | 0xE => ⟨2, 1, 1, 0x7, none, none⟩
  | 0x7 => ⟨8, 7, 127, 0x7F7F, some 0x7F80, some 0x7FC0⟩
  | 0x8 => ⟨5, 10, 15, 0x7BFF, some 0x7C00, some 0x7E00⟩
  | _ => f32Spec

/-- Element bits of each format code (Table 2.1). -/
def fmtBits : Nat → Nat
  | 0x1 => 4
  | 0x6 => 4
  | 0xE => 4
  | 0x4 => 6
  | 0x5 => 6
  | 0xC => 6
  | 0xD => 6
  | 0x7 => 16
  | 0x8 => 16
  | 0x9 => 32
  | _ => 8

/-- Formats 0xA to 0xF carry a block scale (Table 2.1). -/
def fmtIsMx (f : Nat) : Bool := decide (0xA ≤ f)

/-- INT8 and INT4 (R29). -/
def fmtIsInt (f : Nat) : Bool := f == 0 || f == 1

/-- Elements that are two's complement integers: INT8, INT4 and MXINT8. -/
def fmtIsIntElt (f : Nat) : Bool := f == 0 || f == 1 || f == 0xF

/-- Array class of a matrix operand (Table 2.1): 0 4/6-bit, 1 8-bit, 2 16-bit, 3 none. -/
def fmtClass (f : Nat) : Nat :=
  if f = 9 then 3 else if fmtBits f = 16 then 2 else if fmtBits f = 8 then 1 else 0

/-- R28: the value of a code. -/
def decodeF (f : FmtSpec) (x : Nat) : Val :=
  let neg := x.testBit (f.eb + f.mb)
  let e := (x >>> f.mb) % 2 ^ f.eb
  let m := x % 2 ^ f.mb
  let code := x % 2 ^ (f.eb + f.mb)
  if f.infCode = some code then .inf neg
  else if f.nanCode.isSome && decide (f.maxCode < code) then .nan
  else if e = 0 then .fin neg m (1 - (f.bias : Int) - f.mb)
  else .fin neg (2 ^ f.mb + m) ((e : Int) - f.bias - f.mb)

/-- Two's complement reading of the low w bits. -/
def signed (w x : Nat) : Int :=
  let y := x % 2 ^ w
  if y < 2 ^ (w - 1) then (y : Int) else (y : Int) - (2 ^ w : Nat)

/-- The exact value of an integer. -/
def valOfInt (i : Int) : Val := .fin (decide (i < 0)) i.natAbs 0

/-- The value of an element code of format f (R28-R30), without its block scale; MXINT8 has the implied 2^-6. -/
def decodeElt (f x : Nat) : Val :=
  if fmtIsInt f then valOfInt (signed (fmtBits f) x)
  else if f = 0xF then
    match valOfInt (signed 8 x) with
    | .fin s m e => .fin s m (e - 6)
    | v => v
  else decodeF (fmtSpec f) x

/-- R32: an E8M0 scale applied exactly; 0xFF makes the element NaN. -/
def scaleVal (x : Nat) : Val → Val
  | .fin s m e => if x = 0xFF then .nan else .fin s m (e + x - 127)
  | .inf s => if x = 0xFF then .nan else .inf s
  | .nan => .nan

def valF32 (x : BitVec 32) : Val := decodeF f32Spec x.toNat

def Val.isNan : Val → Bool
  | .nan => true
  | _ => false

def Val.isFin : Val → Bool
  | .fin _ _ _ => true
  | _ => false

def Val.isInf : Val → Bool
  | .inf _ => true
  | _ => false

def Val.isZero : Val → Bool
  | .fin _ m _ => m == 0
  | _ => false

def Val.neg : Val → Bool
  | .fin s _ _ => s
  | .inf s => s
  | .nan => false

def Val.abs : Val → Val
  | .fin _ m e => .fin false m e
  | .inf _ => .inf false
  | .nan => .nan

def Val.negate : Val → Val
  | .fin s m e => .fin (!s) m e
  | .inf s => .inf (!s)
  | .nan => .nan

/-- The magnitude of m * 2^e in units of 2^q: the whole part, the remainder and the width of the remainder. -/
def unitsOf (m : Nat) (e q : Int) : Nat × Nat × Nat :=
  if q ≤ e then (m <<< (e - q).toNat, 0, 0)
  else
    let d := (q - e).toNat
    (m >>> d, m % 2 ^ d, d)

/-- R45, R46: whether a magnitude with whole part n and remainder r of d bits rounds up. -/
def roundsUp (rnd : Rnd) (n r d : Nat) : Bool :=
  match rnd with
  | .rne => decide (2 ^ d < 2 * r) || (decide (r ≠ 0) && decide (2 * r = 2 ^ d) && decide (n % 2 = 1))
  | .sr u =>
    let f := if 16 ≤ d then r >>> (d - 16) else r <<< (16 - d)
    decide (u < f)

/-- The magnitude code of m * 2^e (m not 0) rounded to the layout, before any overflow is looked at: codes rise
with magnitude, so a code above `maxCode` is an overflow. -/
def roundCode (f : FmtSpec) (rnd : Rnd) (m : Nat) (e : Int) : Nat :=
  let qmin : Int := 1 - (f.bias : Int) - f.mb
  let top : Int := (m.log2 : Int) + e
  let q : Int := max (top - f.mb) qmin
  let (n, r, d) := unitsOf m e q
  let n' := if roundsUp rnd n r d then n + 1 else n
  (q - qmin).toNat * 2 ^ f.mb + n'

/-- Whether m * 2^e is below the smallest normal magnitude of the layout. -/
def belowNormal (f : FmtSpec) (m : Nat) (e : Int) : Bool :=
  decide ((m.log2 : Int) + e < 1 - (f.bias : Int))

def signBit (f : FmtSpec) (neg : Bool) : Nat := if neg then 2 ^ (f.eb + f.mb) else 0

/-- R43, Table 2.8: conversion of a value to a floating layout: the code and the status bits. -/
def cvtFloat (f : FmtSpec) (sat : Bool) (rnd : Rnd) (ftz : Bool) (v : Val) : Nat × Nat :=
  match v with
  | .nan => match f.nanCode with
    | some c => (c, 0)
    | none => (0, nsNanLost)
  | .inf s => match sat, f.infCode, f.nanCode with
    | false, some c, _ => (signBit f s + c, 0)
    | false, none, some c => (c, 0)
    | _, _, _ => (signBit f s + f.maxCode, nsSaturated)
  | .fin s m e =>
    if m = 0 then (signBit f s, 0)
    else if ftz && belowNormal f m e then (signBit f s, nsFtz)
    else
      let c := roundCode f rnd m e
      if c ≤ f.maxCode then (signBit f s + c, 0)
      else match sat, f.infCode, f.nanCode with
        | false, some i, _ => (signBit f s + i, nsOverflow)
        | false, none, some n => (n, nsOverflow)
        | _, _, _ => (signBit f s + f.maxCode, nsOverflow ||| nsSaturated)

/-- R43, R46: conversion to a two's complement integer of w bits, in units of 2^q. -/
def cvtInt (w : Nat) (q : Int) (rnd : Rnd) (v : Val) : Nat × Nat :=
  let lim (s : Bool) : Nat := if s then 2 ^ (w - 1) else 2 ^ (w - 1) - 1
  match v with
  | .nan => (0, nsNanLost)
  | .inf s => (lim s, nsSaturated)
  | .fin s m e =>
    let (n, r, d) := unitsOf m e q
    let n' := if roundsUp rnd n r d then n + 1 else n
    if n' ≤ lim s then ((if s then 2 ^ w - n' else n') % 2 ^ w, 0)
    else (lim s, nsOverflow ||| nsSaturated)

/-- Conversion to a non-MX destination format (R40 last two lines, R43). -/
def cvtFmt (dst : Nat) (sat : Bool) (rnd : Rnd) (ftz : Bool) (v : Val) : Nat × Nat :=
  if fmtIsInt dst then cvtInt (fmtBits dst) 0 rnd v
  else cvtFloat (fmtSpec dst) sat rnd ftz v

/-- R44, R45: a value as binary32, rounded to nearest even. -/
def toF32 (v : Val) : BitVec 32 := BitVec.ofNat 32 (cvtFloat f32Spec false .rne false v).1

/-- Exact sum; an exact zero of two signs is +0 (round to nearest). -/
def Val.add : Val → Val → Val
  | .nan, _ => .nan
  | _, .nan => .nan
  | .inf a, .inf b => if a = b then .inf a else .nan
  | .inf a, _ => .inf a
  | _, .inf b => .inf b
  | .fin a m e, .fin b n f =>
    let q := min e f
    let x : Int := ((m <<< (e - q).toNat : Nat) : Int)
    let y : Int := ((n <<< (f - q).toNat : Nat) : Int)
    let z := (if a then -x else x) + (if b then -y else y)
    if z = 0 then .fin (a && b) 0 q else .fin (decide (z < 0)) z.natAbs q

/-- Exact product. -/
def Val.mul : Val → Val → Val
  | .nan, _ => .nan
  | _, .nan => .nan
  | .inf a, .inf b => .inf (a != b)
  | .inf a, .fin b n _ => if n = 0 then .nan else .inf (a != b)
  | .fin a m _, .inf b => if m = 0 then .nan else .inf (a != b)
  | .fin a m e, .fin b n f => .fin (a != b) (m * n) (e + f)

/-- Quotient, exact to 64 further bits with a sticky bit below, enough for one rounding to binary32. -/
def Val.div : Val → Val → Val
  | .nan, _ => .nan
  | _, .nan => .nan
  | .inf _, .inf _ => .nan
  | .inf a, .fin b _ _ => .inf (a != b)
  | .fin a _ _, .inf b => .fin (a != b) 0 0
  | .fin a m e, .fin b n f =>
    if n = 0 then (if m = 0 then .nan else .inf (a != b))
    else if m = 0 then .fin (a != b) 0 0
    else
      let x := m <<< 64
      .fin (a != b) (2 * (x / n) + (if x % n = 0 then 0 else 1)) (e - f - 65)

/-- Integer square root, one bit a turn. -/
def isqrtGo : Nat → Nat → Nat → Nat
  | 0, _, r => r
  | k + 1, x, r =>
    let c := r + 2 ^ k
    isqrtGo k x (if c * c ≤ x then c else r)

def isqrt (x : Nat) : Nat := isqrtGo (x.log2 / 2 + 1) x 0

/-- Square root, exact to at least 32 further bits with a sticky bit below. -/
def Val.sqrt : Val → Val
  | .nan => .nan
  | .inf s => if s then .nan else .inf false
  | .fin s m e =>
    if m = 0 then .fin s 0 0
    else if s then .nan
    else
      let (m', e') := if e % 2 = 0 then (m, e) else (2 * m, e - 1)
      let x := m' <<< 64
      let r := isqrt x
      .fin false (2 * r + (if r * r = x then 0 else 1)) (e' / 2 - 33)

/-- Order of two numbers that are not NaN, with -0 equal to +0: whether a < b. -/
def Val.lt (a b : Val) : Bool :=
  match a, b with
  | .nan, _ => false
  | _, .nan => false
  | .inf s, .inf t => s && !t
  | .inf s, .fin _ _ _ => s
  | .fin _ _ _, .inf t => !t
  | .fin s m e, .fin t n f =>
    let q := min e f
    let x : Int := ((m <<< (e - q).toNat : Nat) : Int)
    let y : Int := ((n <<< (f - q).toNat : Nat) : Int)
    decide ((if s then -x else x) < (if t then -y else y))

/-- Equality of two numbers, both ordered; +0 equals -0 (R136). -/
def Val.feq (a b : Val) : Bool := !a.isNan && !b.isNan && !a.lt b && !b.lt a

/-- One binary32 result with its status bits (R54): INVALID for a NaN made from operands that hold none, OVERFLOW
for an infinity made from finite operands unless it is a quotient by zero. -/
def fresult (ops : List Val) (byZero : Bool) (v : Val) : BitVec 32 × Nat :=
  let (c, _) := cvtFloat f32Spec false .rne false v
  let isInf := decide (c % 2 ^ 31 = 0x7F800000)
  let fl := if v.isNan && ops.all (fun x => !x.isNan) then nsInvalid
    else if isInf && ops.all Val.isFin && !byZero then nsOverflow else 0
  (BitVec.ofNat 32 c, fl)

def fadd (a b : BitVec 32) : BitVec 32 × Nat :=
  fresult [valF32 a, valF32 b] false ((valF32 a).add (valF32 b))

def fsub (a b : BitVec 32) : BitVec 32 × Nat :=
  fresult [valF32 a, valF32 b] false ((valF32 a).add (valF32 b).negate)

def fmul (a b : BitVec 32) : BitVec 32 × Nat :=
  fresult [valF32 a, valF32 b] false ((valF32 a).mul (valF32 b))

def fdiv (a b : BitVec 32) : BitVec 32 × Nat :=
  fresult [valF32 a, valF32 b] (valF32 b).isZero ((valF32 a).div (valF32 b))

def fsqrt (a : BitVec 32) : BitVec 32 × Nat := fresult [valF32 a] false (valF32 a).sqrt

/-- a * b + d with one rounding; `neg` gives -(a * b) + d (Table 5.10). -/
def ffma (neg : Bool) (a b d : BitVec 32) : BitVec 32 × Nat :=
  let p := (valF32 a).mul (valF32 b)
  fresult [valF32 a, valF32 b, valF32 d] false ((if neg then p.negate else p).add (valF32 d))

/-- VMAX and VMIN (R138): the other operand when one is NaN, canonical NaN when both are, -0 below +0. -/
def fminmax (isMax : Bool) (a b : BitVec 32) : BitVec 32 :=
  let x := valF32 a
  let y := valF32 b
  if x.isNan && y.isNan then 0x7FC00000#32
  else if x.isNan then b
  else if y.isNan then a
  else
    let less := x.lt y || (x.feq y && x.isZero && x.neg && !y.neg)
    if isMax then (if less then b else a) else (if less then a else b)

/-- R138: |a| and -a, a NaN delivered canonical (R38). -/
def fabs (a : BitVec 32) : BitVec 32 := toF32 (valF32 a).abs
def fneg (a : BitVec 32) : BitVec 32 := toF32 (valF32 a).negate

/-- I2F and F2I of Table 5.7: F2I truncates, saturates and turns NaN into 0. -/
def i2f (a : Word) : BitVec 32 := toF32 (valOfInt a.toInt)

def f2i (a : BitVec 32) : Word :=
  match valF32 a with
  | .nan => 0#64
  | .inf s => if s then BitVec.ofNat 64 (2 ^ 63) else BitVec.ofNat 64 (2 ^ 63 - 1)
  | .fin s m e =>
    let n := (unitsOf m e 0).1
    if s then (if 2 ^ 63 ≤ n then BitVec.ofNat 64 (2 ^ 63) else BitVec.ofInt 64 (-(n : Int)))
    else if 2 ^ 63 ≤ n then BitVec.ofNat 64 (2 ^ 63 - 1) else BitVec.ofNat 64 n

/-- CVT.SPLIT of one FP32 value (R52): the BF16 high and low parts. -/
def bf16Spec : FmtSpec := fmtSpec 0x7

def splitF32 (a : BitVec 32) : BitVec 16 × BitVec 16 :=
  match valF32 a with
  | .nan => (0x7FC0#16, 0x7FC0#16)
  | .inf s => (BitVec.ofNat 16 (signBit bf16Spec s + 0x7F80), 0#16)
  | .fin _ _ _ =>
    let r := cvtFloat bf16Spec false .rne false (valF32 a)
    let h := if r.1 % 2 ^ 15 = 0x7F80 then (a.toNat >>> 16) else r.1
    let lowv := toF32 ((valF32 a).add (decodeF bf16Spec h).negate)
    (BitVec.ofNat 16 h, BitVec.ofNat 16 (cvtFloat bf16Spec false .rne false (valF32 lowv)).1)

/-- R47: one step of the generator with taps 64, 63, 61 and 60. -/
def lfsrStep (x : Word) : Word :=
  let b := (x.getLsbD 63 ^^ x.getLsbD 62) ^^ (x.getLsbD 60 ^^ x.getLsbD 59)
  (x <<< 1) ||| (if b then 1#64 else 0#64)

/-- R47: one element takes 16 steps; the first new bit becomes bit 15 of u. -/
def lfsrGo : Nat → Word → Word
  | 0, x => x
  | n + 1, x => lfsrGo n (lfsrStep x)

def lfsrDraw (x : Word) : Nat × Word :=
  let y := lfsrGo 16 x
  (y.toNat % 2 ^ 16, y)

/-- n draws, in the order drawn. -/
def lfsrDraws : Nat → Word → List Nat × Word
  | 0, x => ([], x)
  | n + 1, x =>
    let (u, y) := lfsrDraw x
    let (us, z) := lfsrDraws n y
    (u :: us, z)

/-- An index put into a list kept in the order of a free key. -/
def orderInsert (c k : Nat) : List Nat → List Nat
  | [] => [k]
  | a :: l => if Config.freeOrder c k < Config.freeOrder c a then k :: a :: l else a :: orderInsert c k l

/-- An order of 0 to n - 1 that the spec leaves open: use number c of `Config.freeOrder` fixes it. -/
def freeOrderOf (c n : Nat) : List Nat := (List.range n).foldl (fun l k => orderInsert c k l) []

/-- R42: emax of an MX element format. -/
def mxEmax (f : Nat) : Int :=
  match f with
  | 0xA => 8
  | 0xB => 15
  | 0xC => 2
  | 0xD => 4
  | 0xE => 2
  | _ => 0

/-- R42: a block of y values as a scale byte, element codes and status bits. An infinity counts as the largest
finite FP32 magnitude in SAT mode. The draws are by element. -/
def mxBlock (dst : Nat) (sat : Bool) (draws : Option (List Nat)) (ftz : Bool) (ys : List Val) : Nat × List Nat × Nat :=
  let big : Val := .fin false (2 ^ 24 - 1) 104
  if ys.any Val.isNan then (0xFF, ys.map (fun _ => 0), 0)
  else if !sat && ys.any Val.isInf then (0xFF, ys.map (fun _ => 0), nsOverflow)
  else
    let mags := ys.map (fun v => if v.isInf then big else v.abs)
    let amax := mags.foldl (fun a b => if a.lt b then b else a) (.fin false 0 0)
    let x : Nat := match amax with
      | .fin _ m e => if m = 0 then 0 else min 254 ((m.log2 : Int) + e - mxEmax dst + 127).toNat
      | _ => 0
    let one (k : Nat) (v : Val) : Nat × Nat :=
      let e : Val := match v with
        | .fin s m q => .fin s m (q + 127 - x)
        | w => w
      let rnd : Rnd := match draws with
        | some us => .sr (us.getD k 0)
        | none => .rne
      let r := if dst = 0xF then cvtInt 8 (-6) rnd e else cvtFloat (fmtSpec dst) true rnd ftz e
      (r.1, if r.2 = (nsOverflow ||| nsSaturated) then nsSaturated else r.2)
    let rs := (List.range ys.length).zip ys |>.map (fun p => one p.1 p.2)
    (x, rs.map Prod.fst, rs.foldl (fun a r => a ||| r.2) 0)

/-- R31: elements packed densely, lowest index in the lowest bits, as one number. -/
def packElts (bits : Nat) : List Nat → Nat
  | [] => 0
  | x :: l => x % 2 ^ bits + (packElts bits l) <<< bits

/-- R31: element k of a packing. -/
def eltOf (bits x k : Nat) : Nat := (x >>> (bits * k)) % 2 ^ bits

end Sys2Proof
end

