-- ==== Sys2Proof/Machine/State.lean ====
section
/-! DEFINITION. The state of the block as plain data. Every register of control space lives in `regs`, keyed by
register row, unit and index; what has no register stands in the structures below (INVENTORY.md, State). -/

namespace Sys2Proof.Machine

/-- Why a run stops. No meaning of this model raises it: errors of the block are effects on its state (log 3). Safe. -/
inductive Fault where
  | none
  deriving DecidableEq, Repr

/-- Why a command is refused. -/
inductive Refusal where
  /-- A command without a meaning yet, by its mnemonic. Raised by exec's arms only. Safe. -/
  | notModelled (mnemonic : String)
  deriving DecidableEq, Repr

/-- What leaves the block: the model's own record of outward effects (log 8). -/
inductive OutKind where
  | errorResponse | response | reply | refusalReply | push | packet | smbus | jtag | trace
  | bootRequest | imageVerdict
  deriving DecidableEq, Repr

/-- One outward effect: its kind, who receives it (a unit ID, a session or a connection), its code (an event, a
reason, a message kind) and its data. -/
structure Out where
  kind : OutKind
  dst : Nat
  code : Nat
  data : List Nat
  deriving DecidableEq, Repr

/-- A ledger record (Table 10.4). -/
structure LedgerRec where
  time : Nat
  waybill : Nat
  event : Nat
  outcome : Nat
  step : Nat
  unit : Nat
  temp : Nat
  volt : Nat
  curr : Nat
  stream : Nat
  lodging : Nat
  count : Nat
  flags : Nat
  tag : Nat
  detail : List (BitVec 8)
  deriving DecidableEq, Repr

/-- A long instruction as latched at issue (R140, R176): words, base values, descriptors, quad, walk sizes, and the
origin that its records carry (R180). -/
structure Latch where
  w0 : BitVec 32
  w1 : BitVec 32
  a : Word
  b : Word
  /-- Register SB + 1, the list address of a dispatch-list DMA (R207). -/
  b1 : Word
  y : Word
  da : List Word
  db : List Word
  dy : List Word
  quad : List Word
  level : Nat
  bcast : Bool
  waybill : Nat
  stream : Nat
  tag : Nat
  pc : Nat
  deriving DecidableEq, Repr

/-- Where the walks of a long instruction stand between two steps (R282, R285): the next point, pass, row or run, counted in
walk order; for a MATMUL the stored tiles met, the core cycle of its next pass and that of its tile's first; and what the points
before it have come to: the header fields of a dispatch list, the elements of a REDUCE with their status bits, the zero flags of
the rows of a map. -/
structure WalkPos where
  i : Nat := 0
  stored : Nat := 0
  cyc : Nat := 0
  tileAt : Nat := 0
  header : List Nat := []
  vals : List (BitVec 32) := []
  flags : Nat := 0
  zeros : List Bool := []
  deriving DecidableEq, Repr

/-- What one step of a long instruction holds back until it commits (R282, R283): accumulator words by PM offset, and
numeric status bits; where its walks stand after it; and the least deviation, in units of 2^-320, above which the tally check of
one of its passes fails, none where no pass of it is compared (R77). -/
structure StepRes where
  pm : List (Nat × BitVec 32)
  flags : Nat
  after : WalkPos := {}
  tally : Option Nat := none
  deriving DecidableEq, Repr

/-- A long instruction in flight (R144-R146): its latch, its steps carried out and not yet committed, where the first of them
began and where the next one begins (none when no step is left), the number committed, a fault that follows the last of them,
the scalar it writes when it commits, and the writes not yet acknowledged. It has begun so many of its walks; `gens` are the
generators it holds, those of the A and Y walks of a MATMUL in `gensY`. -/
structure LongOp where
  id : Nat
  u : Nat
  opc : Nat
  latch : Latch
  steps : List StepRes
  done : Nat
  fault : Option (Nat × Nat)
  sreg : Option (Nat × Word)
  writes : Nat
  gens : Nat
  /-- The launch whose broadcast it is; 0 for an instruction of the core's own program. -/
  group : Nat
  start : WalkPos := {}
  next : Option WalkPos := none
  walks : Nat := 0
  gensY : Nat := 0
  deriving DecidableEq, Repr

/-- A broadcast instruction waiting in a logical core's queue (R175, R176): TENSOR delivery `group`, the latch parts
the record gives, and whether a pack came with it. -/
structure BQEntry where
  c : Nat
  l : Nat
  group : Nat
  record : List Word
  pack : List Word
  pos : Nat
  deriving DecidableEq, Repr

/-- A cached instruction line of a slot (R156). -/
structure ICLine where
  u : Nat
  line : Nat
  bytes : List (BitVec 8)
  deriving DecidableEq, Repr

/-- Where a message is that has entered the network (R221, R225, R229): the router it stands at and the port it came in by,
the outputs it has still to take, each with its router, its port and the phase in which it takes it, and its lot: 0 in an
input buffer, or arrived once no output is left, 1 in the router's stranded buffer, 2 lost with its router, 3 at a router from
which nothing leads to its destination any more. -/
structure Pos where
  here : Nat
  inp : Nat
  hops : List (Nat × Nat × Nat)
  lot : Nat
  deriving DecidableEq, Repr

/-- A wait in a semaphore's queue (R100): the waiter is core slot `u`, or sequencer slot `16 * c + i` when `seq`. -/
structure SemWait where
  sem : Nat
  seq : Bool
  who : Nat
  amount : Nat
  pos : Option Pos := none
  deriving DecidableEq, Repr

/-- A grant on its way to its waiter (R105). -/
structure SemGrant where
  sem : Nat
  seq : Bool
  who : Nat
  amount : Nat
  pos : Option Pos := none
  deriving DecidableEq, Repr

/-- A signal on its way to its semaphore (R99, R102): the sender's unit and lodging, its waybill, the kind of the
command record that sent it, 0 for none, and, for a signal-at-commit, the tag of the long instruction, whether it was a broadcast,
and the address its records name (R157, R180). -/
structure SemSig where
  sem : Nat
  amount : Nat
  waybill : Nat
  unit : Nat
  lodging : Nat
  stream : Nat
  opc : Nat
  tag : Nat := 0
  bcast : Bool := false
  pc : Nat := 0
  pos : Option Pos := none
  deriving DecidableEq, Repr

/-- A signal a unit sends once its earlier work has completed (R102): the long instructions and the stores' requests it
waits for. -/
structure HeldSig where
  u : Nat
  after : List Nat
  sem : Nat
  amount : Nat
  waybill : Nat
  acks : List Nat := []
  deriving DecidableEq, Repr

/-- A program start that waits for a named core (R125, R178): cluster, logical core, launch, entry, arguments and
contract level. -/
structure CoreStart where
  c : Nat
  l : Nat
  launch : Nat
  entry : Nat
  args : List Word
  level : Nat
  deriving DecidableEq, Repr

/-- Core state that no register shows (R124, R144, R156, R175, R186, R283). -/
structure CoreSt where
  /-- Scalar registers s1 to s31, by slot and number (R124). -/
  s : SMap (BitVec 64) := []
  /-- Predicate registers p1 to p7, by slot and number (R124). -/
  p : SMap (BitVec 64) := []
  /-- Lanes of the vector registers, by slot, register and lane (R124). -/
  v : SMap (BitVec 32) := []
  /-- Words of the descriptor registers, by slot, register and word (R124). -/
  d : SMap (BitVec 64) := []
  /-- The stochastic-rounding generator of each slot (R47). -/
  lfsr : SMap (BitVec 64) := []
  /-- Lines that the instruction caches hold (R156). -/
  icache : List ICLine := []
  /-- Long instructions in flight, in order of issue (R144-R146). -/
  ops : List LongOp := []
  /-- The next number of a long instruction; 0 stands for single-word instructions. -/
  nextOp : Nat := 1
  /-- Broadcast queues of the logical cores (R175). -/
  bq : List BQEntry := []
  /-- Signals that wait for earlier work (R102). -/
  heldSigs : List HeldSig := []
  /-- What a core waits for: 0 nothing, 1 a grant, 2 a FENCE with its mask, 3 a QPUT. -/
  wait : SMap Nat := []
  /-- What the wait is for: its semaphore, mask or slot. -/
  waitArg : SMap Nat := []
  /-- When the wait began. -/
  waitSince : SMap Nat := []
  /-- The timeout of the wait in µs. -/
  waitLimit : SMap Nat := []
  /-- The waybill of the program each core runs (R157). -/
  waybill : SMap Nat := []
  /-- The stream that started it (R157). -/
  stream : SMap Nat := []
  /-- The launch that started it, whose completion it is part of (R178). -/
  group : SMap Nat := []
  /-- Whether a reduction slot is full, by logical core and slot (R186). -/
  slotFull : SMap Nat := []
  /-- The value a reduction slot holds (R186). -/
  slotVal : SMap (BitVec 64) := []
  /-- The injected fault that waits for its step (R81). -/
  inject : SMap Nat := []
  /-- Program starts that wait for their cores (R178). -/
  starts : List CoreStart := []
  deriving DecidableEq, Repr

/-- Memory and synchronisation state that no register shows. -/
structure MemSt where
  /-- Poisoned rows (first byte address) with the bytes written since (R280, R281). -/
  poison : List (Nat × List Nat) := []
  /-- Words (first byte address) of which a stored bit has flipped, not yet detected, and whether the re-read of the word
  fails too (R109, R280). -/
  upsets : List (Nat × Bool) := []
  /-- The entries of Table 13.4 for SRAM rows that the last start mapped out (R111). -/
  mapped : List Nat := []
  /-- Power requests queued behind a pending one: part key and 1 on, 2 off (R118). -/
  powerQueue : List (Nat × Nat) := []
  /-- Direction of a pending power change: 1 down, 2 up, by part key. -/
  powerDir : SMap Nat := []
  /-- Waits in the queues of the semaphores, oldest first (R100). -/
  semQueue : List SemWait := []
  /-- Last signalling waybill of each semaphore (R192). -/
  semWay : SMap Nat := []
  deriving DecidableEq, Repr

/-- What a sequencer slot awaits (R173, R191, R192): the object as Table 10.16 names it (kind 5 for site time), the value
required, when the wait began, its timeout in µs (none for a wait that is not timed), the logical cores of a REDUCE_Q, the
order of issue, and the command's record and address. -/
structure SlotWait where
  obj : Nat
  need : Nat
  since : Nat
  limit : Option Nat
  cores : List Nat
  order : Nat
  record : List Word
  pos : Nat
  deriving DecidableEq, Repr

/-- A launched command not yet completed (R173): its sequencer, stream, waybill and kind, the logical cores whose share
is not over, and the semaphore and amount it signals when it completes. -/
structure Launch where
  id : Nat
  c : Nat
  stream : Nat
  waybill : Nat
  opc : Nat
  cores : List Nat
  sig : Option (Nat × Nat)
  deriving DecidableEq, Repr

/-- A TENSOR whose delivery has yet to come (R175): sequencer, stream, record, pack and the record's address. -/
structure Tensor where
  c : Nat
  stream : Nat
  record : List Word
  pack : List Word
  pos : Nat
  deriving DecidableEq, Repr

/-- Stream and sequencer state that no register shows. -/
structure SeqSt where
  /-- What each slot awaits, by 16 * cluster + slot (R191). -/
  waits : SMap (Option SlotWait) := []
  /-- Launched commands not yet completed (R173). -/
  launches : List Launch := []
  /-- The next number of a launch. -/
  nextLaunch : Nat := 1
  /-- Waits begun, which numbers them in order of issue. -/
  waitOrder : Nat := 0
  /-- Timed waits that ended at a boundary: its count, the stream, its waybill, when the wait began (R192). -/
  timedOut : List (Nat × Nat × Nat × Nat) := []
  /-- The last boundary at which ARMED entries were examined, plus 1. -/
  examinedAt : Nat := 0
  /-- TENSORs in issue order, not yet delivered (R175). -/
  tensors : List Tensor := []
  /-- READY streams in the order of release (R162). -/
  ready : List Nat := []
  /-- What the next boundary examines for COND 2 (R167): IDs of newly armed entries, and 2^20 + 4096 * cluster + index
  of flags that have changed. -/
  examine : List Nat := []
  /-- Entries due at an earlier boundary and left over (R168). -/
  overdue : List Nat := []
  /-- Boundary at which a stream was released (R188). -/
  releaseAt : SMap Nat := []
  /-- The record after the last CHECKPOINT_MARK of each stream (R190). -/
  ckptPos : SMap Nat := []
  /-- Streams ending (stopped or faulted) whose issued commands have not all completed (R193, R194). -/
  ending : List (Nat × Nat) := []
  /-- Streams that wait at a barrier: barrier, cluster, slot (R184). -/
  barrierWait : List (Nat × Nat × Nat) := []
  /-- Release waves due: barrier, generation, cluster, site time (R348). -/
  waves : List (Nat × Nat × Nat × Nat) := []
  /-- When a sequencer first disagreed with its twin, plus 1. -/
  seqMismatch : SMap Nat := []
  /-- Streams held by a checkpoint capture (R423). -/
  held : List Nat := []
  /-- Records fetched ahead (R161): sequencer slot, address and words. -/
  prefetch : List (Nat × Nat × List Word) := []
  deriving DecidableEq, Repr

/-- A request that holds entries of its requester's response table (R222): its requester, the instruction or command
it belongs to, when it was sent, whether it writes, the address of the instruction, how many entries it holds, the router
and port at which its acknowledgement enters the network, none where the request has not entered it, and where that is. -/
structure Resp where
  id : Nat
  rq : Rq
  op : Nat
  issued : Nat
  write : Bool
  pc : Nat
  entries : Nat := 1
  src : Option (Nat × Nat) := none
  pos : Option Pos := none
  deriving DecidableEq, Repr

/-- A REDUCE_ADD flit on its way (R247, R250): its requester and instruction, the destination, the lodging, its 16
lanes, whether it may merge, where its data came from, when it was issued, the reduction-buffer entry that forwarded
it (none for a flit of a core), whether it is a reissue whose source is still to be read again, and where it is, none
while it has not left its requester. -/
structure RedFlit where
  rq : Rq
  op : Nat
  addr : Nat
  lodging : Nat
  lanes : List (BitVec 32)
  merge : Bool
  src : Nat
  issued : Nat
  entry : Option Nat
  reread : Bool
  pos : Option Pos := none
  deriving DecidableEq, Repr

/-- One entry of a router's reduction buffer (R248, R249): router, address, lodging, lanes, merges, the flits that went
into it, its allocation, whether it has been forwarded, its reply: 0 none yet, 1 performed, 2 not performed, 3 and
an error response, and whether it is lost with its router (R234, R235). -/
structure RedEntry where
  id : Nat
  router : Nat
  addr : Nat
  lodging : Nat
  lanes : List (BitVec 32)
  merges : Nat
  parts : List RedFlit
  since : Nat
  sent : Bool
  reply : Nat
  lost : Bool := false
  deriving DecidableEq, Repr

/-- A requester parked at an ostler (R238, R239): the number and the rank of its class, its number in the class, its
lodging, and when it was parked. -/
structure Asker where
  cls : Nat
  rank : Nat
  who : Nat
  lodging : Option Nat
  since : Nat
  deriving DecidableEq, Repr

/-- A grant of kind 2 or 4 that is held (R237, R242): its holder and the holder's request, the waybill, the address of the
tile, and when it was granted. -/
structure Holding where
  rq : Rq
  op : Nat
  way : Nat
  addr : Nat
  since : Nat
  deriving DecidableEq, Repr

/-- An ostler (R238, R239): the grants it has made since the last whole-device reset, its pending queues, oldest first,
the requester of each class granted last, plus 1, the class granted last, the grants that are held, when it made its last
grant, and how often its credit watchdog has fired since (R243). -/
structure Ostler where
  grants : Nat := 0
  parked : List Asker := []
  turns : SMap Nat := []
  lastCls : Nat := 0
  holds : List Holding := []
  grantAt : Nat := 0
  stalls : Nat := 0
  deriving DecidableEq, Repr

/-- A sweep due (R234): the count S of its switch and the router. -/
structure Sweep where
  start : Nat
  router : Nat
  deriving DecidableEq, Repr

/-- Network state that no register shows. -/
structure NetSt where
  /-- Response-table entries of all requesters (R222). -/
  resps : List Resp := []
  /-- The next number of a request. -/
  nextResp : Nat := 1
  /-- Charges of lane groups (64 * link + group) with their times (R231). -/
  charges : List (Nat × Nat) := []
  /-- Lane groups out of service. -/
  retired : List Nat := []
  /-- Failures in a row of the flits being replayed, by 2^20 * link + flit (R230). -/
  flitFails : SMap Nat := []
  /-- Failed retrainings in a row of each link (R231). -/
  trainFails : SMap Nat := []
  /-- The last 1 ms, plus 1, in which a summarised event was recorded, by event and link or router (R230). -/
  summed : SMap Nat := []
  /-- Links that have become unusable since the last switch of routing tables (R229). -/
  cut : List Nat := []
  /-- The count of the armed switch (R228). -/
  switchAt : Option Nat := none
  /-- The routers of the sweeps armed for the next switch (R234). -/
  sweepArmed : List Nat := []
  /-- The sweeps under way (R234). -/
  sweeps : List Sweep := []
  /-- REDUCE_ADD flits on their way (R247). -/
  flits : List RedFlit := []
  /-- Entries of the reduction buffers (R248). -/
  reds : List RedEntry := []
  /-- The next number of a reduction-buffer entry. -/
  nextRed : Nat := 1
  /-- Absorb tables (R378): response id and cluster. -/
  absorb : List (Nat × Nat) := []
  /-- Fields whose routers drain, with when they began (R235). -/
  draining : List (Nat × Nat) := []
  /-- NW_OSTLER_CTRL of each ostler, by kind * 2^16 + unit * 2^8 + index (R241, R244). -/
  frozen : SMap Nat := []
  /-- The ostlers, by the same keys (R237-R239). -/
  ostlers : SMap Ostler := []
  /-- Grants of semaphores on their way (R100, R105). -/
  grants : List SemGrant := []
  /-- Signals on their way (R99, R102). -/
  signals : List SemSig := []
  /-- Wait messages on their way (R100). -/
  waitMsgs : List SemWait := []
  /-- Routers whose memory-rail groups use their standby attachment since the last switch (R217, R233). -/
  standby : List Nat := []
  deriving DecidableEq, Repr

/-- HBM and translation state that no register shows. -/
structure HbmSt where
  /-- Cached entries: cache (cluster, 64 + port, 128 + stack), lodging and page, with the entry read (R269). -/
  tlb : SMap Nat := []
  /-- The invalidation under way: lodging, first page, pages (R271). -/
  inval : Option (Nat × Nat × Nat) := none
  /-- Scrub jobs in order: first frame, frames (R272). -/
  scrubs : List (Nat × Nat) := []
  /-- Frames whose scrub write failed (R272). -/
  badFrames : List Nat := []
  /-- The highest data rate the regulators allow (Table 12.2). -/
  rateMax : Nat := 2
  /-- The scrub counts of each stack read last. -/
  ecs : SMap Nat := []
  /-- Latest temperature readout of each stack, signed, 1/16 degree (R252). -/
  temp : SMap Nat := []
  /-- When an armed rate change of a stack takes place, plus 1 (R260). -/
  rateAt : SMap Nat := []
  /-- Last refresh of each bank, plus 1 (R265); a bank is numbered (64 * stack + pseudo-channel) * 64 + 16 * stack ID + 4 * bank
  group + bank (Table 9.2). -/
  refreshed : SMap Nat := []
  /-- The open row of each bank, plus 1. -/
  rows : SMap Nat := []
  /-- Activations of each bank since its last refresh or refresh-management command (R252). -/
  acts : SMap Nat := []
  /-- 4 KiB granules of each stack that the scrubber has written: one grant each of every front end of the stack (R258). -/
  scrubbed : SMap Nat := []
  deriving DecidableEq, Repr

/-- A takeover or dressing swap under way (R289, R300): cluster, logical core, old slot, new slot, whether it is a
dressing swap, and whether the run it makes way for was forced (R299). -/
structure Takeover where
  c : Nat
  l : Nat
  old : Nat
  new : Nat
  dress : Bool
  forced : Bool
  deriving DecidableEq, Repr

/-- A burst hold of a cluster (R296). -/
structure Burst where
  c : Nat
  held : Bool
  stop : Nat
  /-- When the clock restarted; none while it is still to stop or stands. -/
  restarted : Option Nat
  ceiling : Nat
  deriving DecidableEq, Repr

/-- A step being replayed (R285, R286): the slot, the long instruction (0 for a single-word instruction), the event
of its first detection, whether it counts toward fencing (R82, R297), and whether it moved to this slot with a
takeover, so that the slot itself has failed nothing yet (R291), and when the detection came. -/
structure Replay where
  u : Nat
  op : Nat
  event : Nat
  counts : Bool
  moved : Bool
  since : Nat := 0
  deriving DecidableEq, Repr

/-- A dressing run under way (R298-R302): the slot, whether it was forced, the logical core held without a spare
(R301), if it is dressed under a lease, the voltage in mV and the frequency in MHz of its stressed part (R298), and whether
something has interrupted it (R299). -/
structure Dressing where
  u : Nat
  forced : Bool
  leased : Option Nat
  mv : Nat := 0
  mhz : Nat := 0
  cut : Bool := false
  deriving DecidableEq, Repr

/-- Integrity state that no register shows. -/
structure IntegSt where
  /-- The records of the ledger, by index (R303). -/
  ledger : SMap (Option LedgerRec) := []
  /-- Steps being replayed (R285). -/
  replaying : List Replay := []
  /-- Replays that count toward fencing: slot, time and the time of the detection (R286, R297). -/
  replayTimes : List (Nat × Nat × Nat) := []
  /-- Heartbeats missed in a row by each slot. -/
  missed : SMap Nat := []
  /-- Takeovers and swaps under way (R289, R300). -/
  takeovers : List Takeover := []
  /-- Logical cores that wait for a takeover (R289). -/
  takeoverWait : List (Nat × Nat) := []
  /-- Clusters held by a detection storm or limited after one (R296). -/
  bursts : List Burst := []
  /-- Detections of this millisecond: cluster and time (R296). -/
  detMs : List (Nat × Nat) := []
  /-- Clusters that are fenced (R294). -/
  clusterFenced : SMap Nat := []
  /-- What a fenced slot's STATE was when it was fenced, plus 1, until its core has moved (R289, R290). -/
  stateWas : SMap Nat := []
  /-- When the next dressing run of a slot falls due (R299). -/
  dueAt : SMap Nat := []
  /-- Dressing runs under way (R299). -/
  dressings : List Dressing := []
  /-- Slots past their due time that could not be dressed, for which event 0x1023 has been written (R301). -/
  overdue : List Nat := []
  /-- Slots that have given up their logical core and whose run has yet to begin, or was interrupted (R299, R328). -/
  redo : List Nat := []
  /-- Fences and takeovers that fell due during a cluster or lodging reset (Table 13.10): cluster and logical core. -/
  afterReset : List (Nat × Nat) := []
  /-- Runtime defect list: entry words of Table 13.4 (R370). -/
  defects : List Nat := []
  deriving DecidableEq, Repr

/-- A synchronised step change under way (R327): the count of its effect, the target step, whether the switch has taken
place, and the regions that have still to switch, with their reasons. -/
structure Switch where
  at_ : Nat
  target : Nat
  old : Nat
  done : Bool
  notReady : List (Nat × Nat)
  deriving DecidableEq, Repr

/-- Time and clock state that no register shows. -/
structure TimeSt where
  /-- The last forward jump of the count (R320): the counts before and after it. -/
  jump : Option (Nat × Nat) := none
  /-- Consecutive samples within LOCK_NS, the count of the last valid one, whether one came since the source was selected. -/
  samples : Nat := 0
  /-- When the last sample arrived. -/
  lastSample : Nat := 0
  /-- Whether a site tick has been taken since the source was chosen (R322). -/
  everTicked : Bool := false
  /-- The second of the last record of rejected edges, plus 1 (R322). -/
  rejectedSec : Nat := 0
  /-- The step change under way (R327). -/
  switch : Option Switch := none
  /-- Ceilings imposed on a region by each loop (R326): the step plus 1, 0 for none. -/
  ceilPower : SMap Nat := []
  /-- Thermal ceiling of each region, plus 1; 0 is none (R351). -/
  ceilThermal : SMap Nat := []
  /-- Regulator ceiling of each region, plus 1; 0 is none (R335). -/
  ceilRegulator : SMap Nat := []
  /-- Ceiling after a burst of each region, plus 1; 0 is none (R296). -/
  ceilBurst : SMap Nat := []
  /-- What the copy of a region that has gone wrong lies ahead of the master count, modulo 2^64; 0 for a right one (R317, R318). -/
  skew : SMap Nat := []
  /-- Stamp of the last Delay_Req sent, in 1/256 count (R321). -/
  delayStamp : Nat := 0
  /-- The data sets of the foreign time transmitters, each as the numbers compared, at most 4 (R321). -/
  foreign : List (List Nat) := []
  /-- A two-step Sync whose Follow_Up is to come: its transmitter and its stamp, in 1/256 count. -/
  syncAt : Option (List Nat × Nat) := none
  /-- Sending and arrival of the last Sync taken, in 1/256 count. -/
  lastSync : Option (Nat × Nat) := none
  /-- The mean path delay, in 1/256 count. -/
  pathDelay : Int := 0
  /-- TM_FREQ_ADJ when the slew of an offset beyond STEP_LIMIT began (R320). -/
  slewBase : Option Nat := none
  /-- Start of the last SITE_TICK_OUT pulse (R324). -/
  pulseAt : Nat := 0
  deriving DecidableEq, Repr

/-- A ramp notice held (R346): window begin, window end, slope, rise, output code, and the estimate (W) at the window's
first microsecond, once that has come. -/
structure Notice where
  start : Nat
  stop : Nat
  slope : Nat
  rise : Nat
  code : Nat
  base : Option Nat
  deriving DecidableEq, Repr

/-- Power state that no register shows. -/
structure PowerSt where
  /-- Estimates of past microseconds for the sustained and the peak cap, mW, newest first (R340). -/
  hs : List Nat := []
  /-- The estimates of the peak window, newest first (R339). -/
  hp : List Nat := []
  /-- Caps in force since the last boundary (R339). -/
  sustNow : Nat := 2400
  /-- The peak cap in force (R339). -/
  peakNow : Nat := 2800
  /-- The last boundary at which the limiter acted, plus 1. -/
  limitAt : Nat := 0
  /-- Since when duty has been below 16/16, or at 16/16 with a tenth to spare (R344). -/
  dutyLowSince : Option Nat := none
  /-- Since when the duty has been full (R344). -/
  dutyFullSince : Option Nat := none
  /-- Throttles of Table 12.3: gangs paused, bank gating (0, 1: 1/2, 2: 1/4), transmit pace per mille. -/
  gangPause : Bool := false
  /-- The CM throttle in force (R343). -/
  cmGate : Nat := 0
  /-- The pace of the links in force, in thousandths (R343). -/
  linkPace : Nat := 1000
  /-- R353: every throttle at its limit and the estimate above a. -/
  unreachable : Bool := false
  /-- Ramp notices held (R346). -/
  notices : List Notice := []
  /-- Sums over the current 1 ms, by domain, 0.01 W: estimates, activities, leakage; and the microseconds counted. -/
  estSum : SMap Nat := []
  /-- Activity summed since the last millisecond, by domain (R337). -/
  actSum : SMap Nat := []
  /-- Leakage summed since the last millisecond, by domain (R337). -/
  leakSum : SMap Nat := []
  /-- Microseconds summed. -/
  ticks : Nat := 0
  /-- The latest means of the last whole 1 ms: activity and leakage, by domain. -/
  actMean : SMap Nat := []
  /-- Mean leakage of the last millisecond, by domain. -/
  leakMean : SMap Nat := []
  /-- Calibration pairs of each domain, newest first (R338): domain, activity, measured power less leakage (0.01 W). -/
  pairs : List (Nat × Int × Int) := []
  /-- Limits that bound at the last look (R355): power, and the clusters bound by heat and by a regulator. -/
  bindPower : Bool := false
  /-- Regions whose thermal ceiling binds. -/
  bindThermal : List Nat := []
  /-- Regions whose regulator ceiling binds. -/
  bindRegulator : List Nat := []
  /-- One-minute bins of the sensors (R433): sensor, minute, highest and lowest reading. -/
  bins : List (Nat × Nat × Int × Int) := []
  /-- Clusters stopped for heat: 1 at a commit, 2 at once (R351); the step in force before. -/
  thermStop : SMap Nat := []
  /-- The ceiling of a region before its thermal stop. -/
  stepBefore : SMap Nat := []
  /-- Last fall and rise of a thermal ceiling, plus 1. -/
  fallAt : SMap Nat := []
  /-- When a region's thermal ceiling rose last, plus 1 (R351). -/
  riseAt : SMap Nat := []
  /-- Since when a field has been at 115 degrees, plus 1; fields whose routers are off for heat. -/
  hotSince : SMap Nat := []
  /-- Fields whose routers are off for heat. -/
  fieldOff : List Nat := []
  /-- What the estimate of the coming microsecond does not fall below, mW (R340, R342). -/
  floor : Nat := 0
  /-- The rated current left, in A, that a cluster's issue duty keeps its domain within until its step falls; 0 for no limit
  (R335). -/
  currentLeft : SMap Nat := []
  /-- Every clock but the VSTBY domain stopped (R334, R352, R354). -/
  stopped : Bool := false
  deriving DecidableEq, Repr

/-- An open management session (R435): role 0 owner, 1 lodging host. -/
structure Session where
  number : Nat
  role : Nat
  lodging : Nat
  seq : Nat
  key : Nat
  hostKey : Nat
  versions : List Nat
  lastValid : Nat
  reply : List Nat
  deriving DecidableEq, Repr

/-- A push not yet acknowledged (R439): the receiver (0 owner, 1 + lodging), the WRITTEN count of its record, the
resends made and the site time of the last. -/
structure Push where
  dst : Nat
  written : Nat
  resends : Nat
  last : Nat
  deriving DecidableEq, Repr

/-- An image being transferred (13 R359, 16 R443): its source (0 management port, 1 Ethernet port 0, 3 JTAG), whether it
is staged, what its offer said, the contiguous bytes received, chunks beyond them, when the host was last heard, and the
defect list. -/
structure Transfer where
  source : Nat
  staged : Bool
  version : Nat
  size : Nat
  list : Bool
  bytes : List (BitVec 8)
  ahead : List (Nat × List (BitVec 8))
  heard : Nat
  host : Option HostList
  deriving DecidableEq, Repr

/-- A staged image that has been verified (R443): its bytes, its measurement and the defect list kept with it. -/
structure Staged where
  bytes : List (BitVec 8)
  measure : Nat
  host : Option HostList
  deriving DecidableEq, Repr

/-- A dressing lease (R445). -/
structure Lease where
  c : Nat
  mask : Nat
  start : Nat
  stop : Nat
  session : Nat
  results : List (Nat × Nat)
  deriving DecidableEq, Repr

/-- A change of grants under way (14 R390-R392): the session to be answered, its kind (1 opening, 2 addition, 3 close,
4 removal of clusters), what it asks for, the stage reached, and the bands converted for it (R473). -/
structure Act where
  session : Nat
  kind : Nat
  req : LodgingReq
  stage : Nat
  bands : List Nat
  deriving DecidableEq, Repr

/-- An invalidation the innkeeper waits to make or has made (R271, R273): the range, the ranges of frames to be scrubbed
after it, and the session to be answered then with the type of its message. -/
structure Inval where
  l : Nat
  first : Nat
  pages : Nat
  scrub : List (Nat × Nat)
  session : Option (Nat × Nat)
  deriving DecidableEq, Repr

/-- Management state that no register shows (16_management_subsystem.md). -/
structure MgSt where
  /-- Open sessions (R435). -/
  sessions : List Session := []
  /-- The next session number. -/
  nextSession : Nat := 1
  /-- Pushes not yet acknowledged (R439). -/
  pushes : List Push := []
  /-- 0 running, 1 restarting, 2 stopped (R432). -/
  ctrl : Nat := 0
  /-- When the controller last disagreed with its twin (R432). -/
  lastMismatch : Option Nat := none
  /-- The staged image (R443). -/
  staged : Option Staged := none
  /-- The count at which the staged image is committed (R444). -/
  commitAt : Option Nat := none
  /-- Dressing leases (R445). -/
  leases : List Lease := []
  /-- The second of the last record of dropped messages, plus 1 (R437). -/
  dropSec : Nat := 0
  /-- Changes of grants under way (R390-R392). -/
  acts : List Act := []
  /-- Invalidations the innkeeper waits to make (R271). -/
  invals : List Inval := []
  /-- Whether the first of `invals` has been written to GL_TLB_INVAL. -/
  invalOn : Bool := false
  /-- Ranges of frames that wait for a place in the scrubber's queue (R273). -/
  toScrub : List (Nat × Nat) := []
  /-- Owner of each frame: 0 free, 1 + lodging, 9 released and not yet scrubbed (R273, R386). -/
  frames : SMap Nat := []
  /-- Bands from which a frame has been granted since start (R473). -/
  bandsUsed : List Nat := []
  /-- By lodging: the hash of its host's key, its session key plus 1 (R398), the key hash of its last attestation, its rkey
  tag (R414). -/
  hostKeys : SMap Nat := []
  /-- Session key of each lodging, plus 1 (R398). -/
  sessionKeys : SMap Nat := []
  /-- The rkey tag of each lodging (R414). -/
  tags : SMap Nat := []
  /-- By lodging: the versions its host's first ATTACH chose (R421). -/
  bound : SMap (List Nat) := []
  /-- Keys in the slots, by slot. -/
  keys : SMap Nat := []
  /-- Addresses of the sub-ports (R408): MAC, IPv4 and IPv6, by 4 * port + sub-port. -/
  macs : SMap Nat := []
  /-- The IPv4 address of each sub-port (R408). -/
  ip4 : SMap Nat := []
  /-- The IPv6 address of each sub-port (R408). -/
  ip6 : SMap Nat := []
  deriving DecidableEq, Repr

/-- A defect generation in OTP (R371). -/
structure OtpGen where
  entries : List Nat
  start : Nat
  void : Bool
  crcOk : Bool
  deriving DecidableEq, Repr

/-- OTP as it has been burnt (Tables 13.6 and 14.3); what is fixed for the part is in Config. -/
structure OtpSt where
  /-- Minimum firmware versions burnt, oldest first; a word not burnt reads 0. -/
  minVersions : List Nat := []
  /-- The factory generation of the defect list (R371). -/
  factory : OtpGen := ⟨[], 0, false, true⟩
  /-- The generations burnt in the field (R371). -/
  gens : List OtpGen := []
  /-- Owner key hashes of the persistent-settings records, oldest first (R435, OWNER_BIND). -/
  owners : List Nat := []
  deriving DecidableEq, Repr

/-- Start and retention state that no register shows (13_bring_up_and_reset.md). -/
structure BootSt where
  /-- A start is due at t0 (R361, R377), and one is under way. -/
  due : Bool := true
  /-- A start is under way or has ended (R358). -/
  running : Bool := false
  /-- When the step under way began. -/
  stepAt : Nat := 0
  /-- The step under way is being run by its alternative (R375). -/
  alt : Bool := false
  /-- MG_START_CFG as it is in force for this start (R384). -/
  cfg : Word := 0#64
  /-- Step and outcome of the previous start's newest journal entry (R359). -/
  prev : Nat × Nat := (0, 0)
  /-- The source of the image of the last transfer (Table 13.3, step 2). -/
  lastSource : Nat := 0
  /-- When a BOOT_REQUEST was sent last (R359). -/
  lastRequest : Nat := 0
  /-- The image transfer under way (R359). -/
  transfer : Option Transfer := none
  /-- The image area, once an image has been received (R359, R444), and the measurement of the image that runs. -/
  image : List (BitVec 8) := []
  /-- The measurement of the running image (R360). -/
  measure : Nat := 0
  /-- The host's defect list (R367). -/
  host : Option HostList := none
  /-- Defects this start has found, and units out of service for this start only (R375). -/
  findings : List Nat := []
  /-- Units out for this start only (R368). -/
  outNow : List Nat := []
  /-- MG_BOOT_PROGRESS at the last failure of a step, by step (R375). -/
  suspects : SMap Nat := []
  /-- A host's instruction for the step that stopped: 0 retry normally, 1 by the alternative. -/
  instruct : Option Nat := none
  /-- The next entry of the boot journal (R374). -/
  journalNext : Nat := 0
  /-- Number and site time of the last full start that reached ready (R366). -/
  lastFull : Option (Nat × Nat) := none
  /-- The commit mark: the measurement recorded at staging and the hash of the copy (R444). -/
  commit : Option (Nat × Nat) := none
  deriving DecidableEq, Repr

/-- A lodging reset under way (R381): t0, the phase (0 stopping, 1 frozen, 2 swept) and whether it scrubs. -/
structure LodgingReset where
  l : Nat
  start : Nat
  phase : Nat
  scrub : Bool
  deriving DecidableEq, Repr

/-- Resets under way (13_bring_up_and_reset.md R377-R381): device slots under core reset, clusters under cluster reset
with whether they scrub, and lodgings; and streams a cluster reset has stopped, by cluster, whose notify flags are still
to be raised (R380). -/
structure ResetSt where
  /-- Device slots under core reset (R379). -/
  cores : List Nat := []
  /-- Clusters under cluster reset, and whether they scrub (R380). -/
  clusters : List (Nat × Bool) := []
  /-- Lodgings under reset (R381). -/
  lodgings : List LodgingReset := []
  /-- Streams whose notify flags are still to be raised: cluster and stream (R380). -/
  notify : List (Nat × Nat) := []
  /-- Fences that fell due during a reset and follow it (Table 13.10): a slot, or 1,344 and the cluster, and the reason. -/
  fences : List (Nat × Nat) := []
  deriving DecidableEq, Repr

/-- A routing job under way (R199): its cluster, descriptor address and words, the mismatches so far (R204), whether its
passes were stopped by one and are still to be run again, and what they came to: the header bytes after STATUS, and the
number of pairs. -/
structure RouteJob where
  c : Nat
  desc : Nat
  words : List Word
  mism : Nat
  header : List (BitVec 8)
  pairs : Nat
  redo : Bool := false
  deriving DecidableEq, Repr

/-- Router-unit state that no register shows (R203): descriptor addresses queued, by cluster, and the jobs running. -/
structure RouteSt where
  /-- Jobs queued: cluster and descriptor address (R203). -/
  queue : List (Nat × Nat) := []
  /-- Jobs running (R199). -/
  jobs : List RouteJob := []
  deriving DecidableEq, Repr

/-- A work request that has been started (15 R418, R419): its words, its first sequence number and packets, the bytes of
a READ's response that have been performed, and whether it has been acknowledged. -/
structure Work where
  words : List Word
  psn : Nat
  packets : Nat
  got : Nat
  done : Bool
  deriving DecidableEq, Repr

/-- A message of a connection of which packets have arrived (R416): the kind (Table 15.4, 1 for a plain WRITE), the remote
key and address of its next byte, its length, and the bytes that have arrived. -/
structure Incoming where
  kind : Nat
  rkey : Nat
  addr : Nat
  len : Nat
  got : Nat
  deriving DecidableEq, Repr

/-- A connection (R410): what CONN_OPEN named, and what the engine keeps. Its state, reason, HEAD, TAIL and RX_READ are in
ET_CONN_POST. -/
structure Conn where
  l : Nat
  req : ConnReq
  qp : Nat
  sendPsn : Nat
  recvPsn : Nat
  /-- The ring slot of the next request to start, and those started that have not completed, oldest first. -/
  next : Nat
  works : List Work
  retries : Nat
  rnrs : Nat
  /-- When a packet was last sent or acknowledged: the acknowledgement timeout runs from there. -/
  sentAt : Nat
  /-- Transmit rate in 64ths of line rate; when it last changed; when a CNP was last sent, plus 1 (R408). -/
  rate : Nat
  rateAt : Nat
  cnpAt : Nat
  incoming : Option Incoming
  /-- Receive buffers and completion records: the next one, and those software has not consumed (R417). -/
  rxNext : Nat
  rxUsed : Nat
  /-- Whether a packet out of sequence has been refused since the last one in sequence. -/
  nakked : Bool
  /-- The 1 ms in which packets were last recorded as dropped, plus 1 (R413). -/
  dropMs : Nat
  deriving DecidableEq, Repr

/-- A drain under way (R425): lodging, capture number, connection, buffer, store address and rkey, image size, bytes sent,
the image as it has been read, what is on the wire (0 image, 1 trailer, 2 the final immediate) and its last sequence
number. -/
structure Drain where
  l : Nat
  n : Nat
  c : Nat
  buf : Nat
  remote : Nat
  rkey : Nat
  size : Nat
  sent : Nat
  image : List (BitVec 8)
  stage : Nat
  psn : Nat
  deriving DecidableEq, Repr

/-- Connections and checkpoints (15_ethernet_and_training_continuity.md). -/
structure CkSt where
  /-- Of each lodging: 0 none, 1 a capture pending, 2 its state being taken, 3 draining. -/
  phase : SMap Nat := []
  /-- The due count of each lodging's last due capture, plus 1 (R422, R423). -/
  dueAt : SMap Nat := []
  /-- Drains under way (R425). -/
  drains : List Drain := []
  /-- Connections (R410). -/
  conns : List Conn := []
  /-- The next queue-pair number. -/
  nextQp : Nat := 2
  /-- Ports and priorities paused (R408): port, sub-port. -/
  paused : List (Nat × Nat) := []
  deriving DecidableEq, Repr

/-- Pins as taken and as driven, and the SMBus and JTAG ports (17_package_and_electrical.md). -/
structure PinSt where
  /-- VSTBY valid (R455). -/
  vstby : Bool := true
  /-- PWR_GOOD (R458). -/
  pwrGood : Bool := false
  /-- RESET_N high (R458). -/
  resetN : Bool := true
  /-- SHED_N high (R341). -/
  shedN : Bool := true
  /-- BOOT_SRC as sampled (R358). -/
  bootSrc : Nat := 0
  /-- RAMP_NOTICE[3:0] as driven (R464). -/
  rampNotice : Nat := 0
  /-- THERMTRIP_N as driven (R352). -/
  thermtripN : Bool := true
  /-- FAULT_N as driven (R441). -/
  faultN : Bool := true
  /-- SITE_TICK_OUT as driven (R324). -/
  siteTickOut : Bool := false
  /-- The SMBus target is in a transaction that has not ended, and the values of Table 16.5 as last refreshed (R440). -/
  smbusBusy : Bool := false
  /-- The values that SMBus reads (R440). -/
  smbus : SMap Nat := []
  /-- The instruction in force in the TAP, and the update stage of the boundary cells, bit k for cell k from TDI. -/
  jtagIr : Nat := 0x02
  /-- The boundary register (R466). -/
  boundary : Nat := 0
  /-- IMAGE_LOAD's status: 0 busy, 1 accepted, 2 refused, 3 verified (R466). -/
  loadStatus : Nat := 0
  deriving DecidableEq, Repr

/-- The block. -/
structure State where
  /-- The commands that wait, first in first out. -/
  pending : List Instr := []
  /-- Registers of control space by row, unit and index (Machine/Regs.lean); an unlisted key reads as its reset word. -/
  regs : SMap (BitVec 64) := []
  /-- Words written to SH fields and not yet in force (R12). -/
  sh : SMap (BitVec 64) := []
  /-- Bytes of HBM and of the SRAMs; an unlisted address reads as 0 (log 5). -/
  mem : List Host.Cell := []
  /-- Cores. -/
  core : CoreSt := {}
  /-- Memories and semaphores. -/
  ms : MemSt := {}
  /-- Streams and sequencers. -/
  sq : SeqSt := {}
  /-- The network. -/
  net : NetSt := {}
  /-- HBM and translation. -/
  hbm : HbmSt := {}
  /-- Result integrity. -/
  integ : IntegSt := {}
  /-- Site time and clocks. -/
  tm : TimeSt := {}
  /-- Power. -/
  pw : PowerSt := {}
  /-- Management. -/
  mg : MgSt := {}
  /-- OTP. -/
  otp : OtpSt := {}
  /-- Start. -/
  boot : BootSt := {}
  /-- Resets under way. -/
  rst : ResetSt := {}
  /-- Connections and checkpoints. -/
  ck : CkSt := {}
  /-- Router units. -/
  rt : RouteSt := {}
  /-- Pins. -/
  pins : PinSt := {}
  /-- What has left the block, oldest first (log 8). -/
  out : List Out := []
  /-- The model's own counter, which free values are applied to (log 9). -/
  fresh : Nat := 0
  deriving DecidableEq, Repr

/-- The block right after reset (R8: the Reset column; INVENTORY.md, State). Every store is empty, and what an
unlisted key reads as is the reset value. -/
def State.reset : State := {}

end Sys2Proof.Machine
end

