-- ==== Sys2Proof/Machine/Regs.lean ====
section
/-! DEFINITION. The registers of control space (the register tables of every chapter of the spec): one row per
register, one field definition per field, the reset word of each, and the decoding of a control-space address (R4).
The rows' numbers are the model's; a register of a cluster, a stack or a core slot is one per unit. -/

namespace Sys2Proof.Machine

/-- Row of GL_IDENT (01_vuveand_at_a_glance.md, Table 1.4). -/
def rGL_IDENT : Nat := 0
def fGL_IDENT_PART : Fld := ⟨0, 16, 16⟩
def fGL_IDENT_STEPPING : Fld := ⟨0, 8, 8⟩
/-- Row of GL_CONTRACT_LEVEL (01_vuveand_at_a_glance.md, Table 1.5). -/
def rGL_CONTRACT_LEVEL : Nat := 1
def fGL_CONTRACT_LEVEL_NATIVE : Fld := ⟨1, 8, 8⟩
def fGL_CONTRACT_LEVEL_SUPPORTED : Fld := ⟨1, 0, 8⟩
/-- Row of CO_SR_SEED (02_number_formats.md, Table 2.10). -/
def rCO_SR_SEED : Nat := 2
def fCO_SR_SEED_SEED : Fld := ⟨2, 0, 64⟩
/-- Row of CO_NUM_STATUS (02_number_formats.md, Table 2.11). -/
def rCO_NUM_STATUS : Nat := 3
def fCO_NUM_STATUS_FTZ_FLUSHED : Fld := ⟨3, 5, 1⟩
def fCO_NUM_STATUS_INT_INEXACT : Fld := ⟨3, 4, 1⟩
def fCO_NUM_STATUS_NAN_LOST : Fld := ⟨3, 3, 1⟩
def fCO_NUM_STATUS_SATURATED : Fld := ⟨3, 2, 1⟩
def fCO_NUM_STATUS_OVERFLOW : Fld := ⟨3, 1, 1⟩
def fCO_NUM_STATUS_INVALID : Fld := ⟨3, 0, 1⟩
/-- Row of CO_ME_STATUS (03_matrix_engine.md, Table 3.10). -/
def rCO_ME_STATUS : Nat := 4
def fCO_ME_STATUS_TALLY_FAILS : Fld := ⟨4, 48, 16⟩
def fCO_ME_STATUS_RESIDUE_FAILS : Fld := ⟨4, 32, 16⟩
def fCO_ME_STATUS_PARITY_FAILS : Fld := ⟨4, 16, 16⟩
def fCO_ME_STATUS_WINDOW : Fld := ⟨4, 5, 1⟩
def fCO_ME_STATUS_SPLIT : Fld := ⟨4, 4, 1⟩
def fCO_ME_STATUS_SPARSE : Fld := ⟨4, 2, 2⟩
def fCO_ME_STATUS_MODE : Fld := ⟨4, 0, 2⟩
/-- Row of CO_ME_TEST (03_matrix_engine.md, Table 3.11). -/
def rCO_ME_TEST : Nat := 5
def fCO_ME_TEST_CLR_COUNTS : Fld := ⟨5, 2, 1⟩
def fCO_ME_TEST_INJECT : Fld := ⟨5, 0, 2⟩
/-- Row of CL_SEM_WRITE (04_core_and_cluster_memories.md, Table 4.5). -/
def rCL_SEM_WRITE : Nat := 6
def fCL_SEM_WRITE_OP : Fld := ⟨6, 40, 2⟩
def fCL_SEM_WRITE_INDEX : Fld := ⟨6, 32, 8⟩
def fCL_SEM_WRITE_VALUE : Fld := ⟨6, 0, 32⟩
/-- Row of CL_SEM[k] (04_core_and_cluster_memories.md, Table 4.6). -/
def rCL_SEM : Nat := 7
def fCL_SEM_WAITERS : Fld := ⟨7, 32, 12⟩
def fCL_SEM_COUNT : Fld := ⟨7, 0, 32⟩
/-- Row of CO_WM_CAPACITY (04_core_and_cluster_memories.md, Table 4.7). -/
def rCO_WM_CAPACITY : Nat := 8
def fCO_WM_CAPACITY_TOTAL : Fld := ⟨8, 32, 16⟩
def fCO_WM_CAPACITY_HALF1 : Fld := ⟨8, 16, 16⟩
def fCO_WM_CAPACITY_HALF0 : Fld := ⟨8, 0, 16⟩
/-- Row of CO_AM_CAPACITY (04_core_and_cluster_memories.md, Table 4.8). -/
def rCO_AM_CAPACITY : Nat := 9
def fCO_AM_CAPACITY_TOTAL : Fld := ⟨9, 32, 16⟩
def fCO_AM_CAPACITY_HALF1 : Fld := ⟨9, 16, 16⟩
def fCO_AM_CAPACITY_HALF0 : Fld := ⟨9, 0, 16⟩
/-- Row of CO_PM_CAPACITY (04_core_and_cluster_memories.md, Table 4.9). -/
def rCO_PM_CAPACITY : Nat := 10
def fCO_PM_CAPACITY_TOTAL : Fld := ⟨10, 0, 16⟩
/-- Row of CL_CM_CAPACITY (04_core_and_cluster_memories.md, Table 4.10). -/
def rCL_CM_CAPACITY : Nat := 11
def fCL_CM_CAPACITY_SHRUNK : Fld := ⟨11, 16, 32⟩
def fCL_CM_CAPACITY_TOTAL : Fld := ⟨11, 0, 16⟩
/-- Row of CL_CM_BANK_CAP0..3 (04_core_and_cluster_memories.md, Table 4.11). -/
def rCL_CM_BANK_CAP : Nat := 12
def fCL_CM_BANK_CAP_BANK7 : Fld := ⟨12, 56, 8⟩
def fCL_CM_BANK_CAP_BANK6 : Fld := ⟨12, 48, 8⟩
def fCL_CM_BANK_CAP_BANK5 : Fld := ⟨12, 40, 8⟩
def fCL_CM_BANK_CAP_BANK4 : Fld := ⟨12, 32, 8⟩
def fCL_CM_BANK_CAP_BANK3 : Fld := ⟨12, 24, 8⟩
def fCL_CM_BANK_CAP_BANK2 : Fld := ⟨12, 16, 8⟩
def fCL_CM_BANK_CAP_BANK1 : Fld := ⟨12, 8, 8⟩
def fCL_CM_BANK_CAP_BANK0 : Fld := ⟨12, 0, 8⟩
/-- Row of GL_CAPACITY[0] (04_core_and_cluster_memories.md, Table 4.12). -/
def rGL_CAPACITY0 : Nat := 13
def fGL_CAPACITY0_AM : Fld := ⟨13, 32, 32⟩
def fGL_CAPACITY0_WM : Fld := ⟨13, 0, 32⟩
/-- Row of GL_CAPACITY[1] (04_core_and_cluster_memories.md, Table 4.12). -/
def rGL_CAPACITY1 : Nat := 14
def fGL_CAPACITY1_PM : Fld := ⟨14, 32, 32⟩
def fGL_CAPACITY1_CM : Fld := ⟨14, 0, 32⟩
/-- Row of CO_MEM_POWER (04_core_and_cluster_memories.md, Table 4.13). -/
def rCO_MEM_POWER : Nat := 15
def fCO_MEM_POWER_PENDING : Fld := ⟨15, 12, 4⟩
def fCO_MEM_POWER_ON : Fld := ⟨15, 8, 4⟩
def fCO_MEM_POWER_OFF : Fld := ⟨15, 4, 4⟩
def fCO_MEM_POWER_STATE : Fld := ⟨15, 0, 4⟩
/-- Row of CL_CM_POWER (04_core_and_cluster_memories.md, Table 4.14). -/
def rCL_CM_POWER : Nat := 16
def fCL_CM_POWER_OFF : Fld := ⟨16, 32, 32⟩
def fCL_CM_POWER_ON : Fld := ⟨16, 0, 32⟩
/-- Row of CL_CM_POWER_STATE (04_core_and_cluster_memories.md, Table 4.14). -/
def rCL_CM_POWER_STATE : Nat := 17
def fCL_CM_POWER_STATE_PENDING : Fld := ⟨17, 32, 32⟩
def fCL_CM_POWER_STATE_STATE : Fld := ⟨17, 0, 32⟩
/-- Row of CO_MEM_STATUS (04_core_and_cluster_memories.md, Table 4.15). -/
def rCO_MEM_STATUS : Nat := 18
def fCO_MEM_STATUS_PARITY_ERRORS : Fld := ⟨18, 32, 32⟩
def fCO_MEM_STATUS_TRANSPOSE_REFUSED : Fld := ⟨18, 4, 1⟩
def fCO_MEM_STATUS_LATE_WRITE : Fld := ⟨18, 3, 1⟩
def fCO_MEM_STATUS_POWERED_OFF_ACCESS : Fld := ⟨18, 2, 1⟩
def fCO_MEM_STATUS_RANGE_REFUSED : Fld := ⟨18, 1, 1⟩
def fCO_MEM_STATUS_PARITY : Fld := ⟨18, 0, 1⟩
/-- Row of CO_REMOTE_STALL (04_core_and_cluster_memories.md, Table 4.15). -/
def rCO_REMOTE_STALL : Nat := 19
def fCO_REMOTE_STALL_CYCLES : Fld := ⟨19, 0, 64⟩
/-- Row of CL_MEM_STATUS (04_core_and_cluster_memories.md, Table 4.16). -/
def rCL_MEM_STATUS : Nat := 20
def fCL_MEM_STATUS_PARITY_ERRORS : Fld := ⟨20, 32, 32⟩
def fCL_MEM_STATUS_ABSENT_CORE : Fld := ⟨20, 6, 1⟩
def fCL_MEM_STATUS_SEM_OVERFLOW : Fld := ⟨20, 5, 1⟩
def fCL_MEM_STATUS_TRANSPOSE_REFUSED : Fld := ⟨20, 4, 1⟩
def fCL_MEM_STATUS_LATE_WRITE : Fld := ⟨20, 3, 1⟩
def fCL_MEM_STATUS_POWERED_OFF_ACCESS : Fld := ⟨20, 2, 1⟩
def fCL_MEM_STATUS_RANGE_REFUSED : Fld := ⟨20, 1, 1⟩
def fCL_MEM_STATUS_PARITY : Fld := ⟨20, 0, 1⟩
/-- Row of CO_CORE_STATUS (05_qn_instruction_set.md, Table 5.16). -/
def rCO_CORE_STATUS : Nat := 21
def fCO_CORE_STATUS_PC : Fld := ⟨21, 24, 40⟩
def fCO_CORE_STATUS_AG_BUSY : Fld := ⟨21, 16, 4⟩
def fCO_CORE_STATUS_DMA_QUEUE : Fld := ⟨21, 8, 8⟩
def fCO_CORE_STATUS_LEVEL : Fld := ⟨21, 6, 2⟩
def fCO_CORE_STATUS_CFG_WHILE_BUSY : Fld := ⟨21, 3, 1⟩
def fCO_CORE_STATUS_STATE : Fld := ⟨21, 0, 3⟩
/-- Row of CO_FAULT (05_qn_instruction_set.md, Table 5.17). -/
def rCO_FAULT : Nat := 22
def fCO_FAULT_EVENT : Fld := ⟨22, 48, 16⟩
def fCO_FAULT_TAG : Fld := ⟨22, 36, 12⟩
def fCO_FAULT_BROADCAST : Fld := ⟨22, 32, 1⟩
def fCO_FAULT_WAYBILL : Fld := ⟨22, 0, 32⟩
/-- Row of CO_FAULT_PC (05_qn_instruction_set.md, Table 5.17). -/
def rCO_FAULT_PC : Nat := 23
def fCO_FAULT_PC_PC : Fld := ⟨23, 0, 40⟩
/-- Row of CO_FAULT_ADDR (05_qn_instruction_set.md, Table 5.17). -/
def rCO_FAULT_ADDR : Nat := 24
def fCO_FAULT_ADDR_ADDR : Fld := ⟨24, 0, 48⟩
/-- Row of stream table entry word 0 (06_command_streams.md, Table 6.1). -/
def rGL_STREAM0 : Nat := 25
def fGL_STREAM0_RELEASE_TIME : Fld := ⟨25, 0, 64⟩
/-- Row of stream table entry word 1 (06_command_streams.md, Table 6.1). -/
def rGL_STREAM1 : Nat := 26
def fGL_STREAM1_FLAG_VALUE : Fld := ⟨26, 32, 32⟩
def fGL_STREAM1_FLAG_CMP : Fld := ⟨26, 30, 2⟩
def fGL_STREAM1_FLAG_INDEX : Fld := ⟨26, 16, 12⟩
def fGL_STREAM1_FLAG_CLUSTER : Fld := ⟨26, 8, 6⟩
/-- Row of stream table entry word 2 (06_command_streams.md, Table 6.1). -/
def rGL_STREAM2 : Nat := 27
def fGL_STREAM2_BASE : Fld := ⟨27, 0, 40⟩
/-- Row of stream table entry word 3 (06_command_streams.md, Table 6.1). -/
def rGL_STREAM3 : Nat := 28
def fGL_STREAM3_POSITION : Fld := ⟨28, 0, 40⟩
/-- Row of stream table entry word 4 (06_command_streams.md, Table 6.1). -/
def rGL_STREAM4 : Nat := 29
def fGL_STREAM4_TIMEOUT : Fld := ⟨29, 32, 32⟩
def fGL_STREAM4_NOTIFY_EN : Fld := ⟨29, 31, 1⟩
def fGL_STREAM4_NOTIFY_INDEX : Fld := ⟨29, 16, 12⟩
def fGL_STREAM4_NOTIFY_CLUSTER : Fld := ⟨29, 8, 6⟩
/-- Row of stream table entry word 5 (06_command_streams.md, Table 6.1). -/
def rGL_STREAM5 : Nat := 30
def fGL_STREAM5_COMPLETED : Fld := ⟨30, 32, 32⟩
def fGL_STREAM5_LAST_WAYBILL : Fld := ⟨30, 0, 32⟩
/-- Row of stream table entry word 6 (06_command_streams.md, Table 6.1). -/
def rGL_STREAM6 : Nat := 31
def fGL_STREAM6_MICROBATCH : Fld := ⟨31, 32, 32⟩
def fGL_STREAM6_RELEASES : Fld := ⟨31, 16, 16⟩
def fGL_STREAM6_FAULT : Fld := ⟨31, 0, 16⟩
/-- Row of stream table entry word 7 (06_command_streams.md, Table 6.1). -/
def rGL_STREAM7 : Nat := 32
def fGL_STREAM7_HOME : Fld := ⟨32, 48, 6⟩
def fGL_STREAM7_LODGING : Fld := ⟨32, 40, 3⟩
def fGL_STREAM7_RESUME : Fld := ⟨32, 17, 1⟩
def fGL_STREAM7_COND : Fld := ⟨32, 8, 2⟩
def fGL_STREAM7_STATE : Fld := ⟨32, 0, 3⟩
/-- Row of GL_STREAM_RANGE[l] (06_command_streams.md, Table 6.3). -/
def rGL_STREAM_RANGE : Nat := 33
def fGL_STREAM_RANGE_COUNT : Fld := ⟨33, 32, 17⟩
def fGL_STREAM_RANGE_FIRST : Fld := ⟨33, 0, 16⟩
/-- Row of CL_FLAG_WRITE (06_command_streams.md, Table 6.9). -/
def rCL_FLAG_WRITE : Nat := 34
def fCL_FLAG_WRITE_OP : Fld := ⟨34, 44, 2⟩
def fCL_FLAG_WRITE_INDEX : Fld := ⟨34, 32, 12⟩
def fCL_FLAG_WRITE_VALUE : Fld := ⟨34, 0, 32⟩
/-- Row of CL_FLAG[k] (06_command_streams.md, Table 6.9). -/
def rCL_FLAG : Nat := 35
def fCL_FLAG_LAST_WAYBILL : Fld := ⟨35, 32, 32⟩
def fCL_FLAG_VALUE : Fld := ⟨35, 0, 32⟩
/-- Row of GL_BARRIER[b] (06_command_streams.md, Table 6.10). -/
def rGL_BARRIER : Nat := 36
def fGL_BARRIER_OWNER : Fld := ⟨36, 56, 3⟩
def fGL_BARRIER_OWNED : Fld := ⟨36, 55, 1⟩
def fGL_BARRIER_EXPECTED : Fld := ⟨36, 32, 16⟩
def fGL_BARRIER_GENERATION : Fld := ⟨36, 16, 16⟩
def fGL_BARRIER_COUNT : Fld := ⟨36, 0, 16⟩
/-- Row of GL_STREAM_CTRL (06_command_streams.md, Table 6.12). -/
def rGL_STREAM_CTRL : Nat := 37
def fGL_STREAM_CTRL_OP : Fld := ⟨37, 16, 2⟩
def fGL_STREAM_CTRL_STREAM : Fld := ⟨37, 0, 16⟩
/-- Row of GL_STREAM_STATUS (06_command_streams.md, Table 6.12). -/
def rGL_STREAM_STATUS : Nat := 38
def fGL_STREAM_STATUS_ARMED : Fld := ⟨38, 32, 32⟩
def fGL_STREAM_STATUS_RANGE_REFUSED : Fld := ⟨38, 3, 1⟩
def fGL_STREAM_STATUS_BACKLOG : Fld := ⟨38, 2, 1⟩
def fGL_STREAM_STATUS_ARM_REFUSED : Fld := ⟨38, 1, 1⟩
def fGL_STREAM_STATUS_CFG_WHILE_BUSY : Fld := ⟨38, 0, 1⟩
/-- Row of GL_STREAM_TIMEOUT (06_command_streams.md, Table 6.12). -/
def rGL_STREAM_TIMEOUT : Nat := 39
def fGL_STREAM_TIMEOUT_TIMEOUT : Fld := ⟨39, 0, 32⟩
/-- Row of SQ_STATUS (06_command_streams.md, Table 6.12). -/
def rSQ_STATUS : Nat := 40
def fSQ_STATUS_READY : Fld := ⟨40, 16, 16⟩
def fSQ_STATUS_CFG_WHILE_BUSY : Fld := ⟨40, 5, 1⟩
def fSQ_STATUS_SLOTS : Fld := ⟨40, 0, 5⟩
/-- Row of SQ_Q[k] (06_command_streams.md, Table 6.12). -/
def rSQ_Q : Nat := 41
def fSQ_Q_VALUE : Fld := ⟨41, 0, 64⟩
/-- Row of SQ_TRACE_BASE (06_command_streams.md, Table 6.12). -/
def rSQ_TRACE_BASE : Nat := 42
def fSQ_TRACE_BASE_BASE : Fld := ⟨42, 0, 40⟩
/-- Row of SQ_TRACE_CTRL (06_command_streams.md, Table 6.12). -/
def rSQ_TRACE_CTRL : Nat := 43
def fSQ_TRACE_CTRL_DROPS : Fld := ⟨43, 48, 16⟩
def fSQ_TRACE_CTRL_WRITE : Fld := ⟨43, 32, 16⟩
def fSQ_TRACE_CTRL_READ : Fld := ⟨43, 16, 16⟩
def fSQ_TRACE_CTRL_SIZE : Fld := ⟨43, 1, 4⟩
def fSQ_TRACE_CTRL_EN : Fld := ⟨43, 0, 1⟩
/-- Row of SQ_SLOT[i] (06_command_streams.md, Table 6.12). -/
def rSQ_SLOT : Nat := 44
def fSQ_SLOT_OUTSTANDING : Fld := ⟨44, 32, 16⟩
def fSQ_SLOT_VALID : Fld := ⟨44, 19, 1⟩
def fSQ_SLOT_WAIT : Fld := ⟨44, 16, 3⟩
def fSQ_SLOT_STREAM : Fld := ⟨44, 0, 16⟩
/-- Row of CL_ROUTE_SUBMIT (07_conditional_computation.md, Table 7.5). -/
def rCL_ROUTE_SUBMIT : Nat := 45
def fCL_ROUTE_SUBMIT_DESC : Fld := ⟨45, 0, 48⟩
/-- Row of CL_ROUTE_STATUS (07_conditional_computation.md, Table 7.5). -/
def rCL_ROUTE_STATUS : Nat := 46
def fCL_ROUTE_STATUS_COMPLETED : Fld := ⟨46, 48, 16⟩
def fCL_ROUTE_STATUS_QUEUED : Fld := ⟨46, 32, 3⟩
def fCL_ROUTE_STATUS_FENCED : Fld := ⟨46, 6, 1⟩
def fCL_ROUTE_STATUS_CMP_FAIL : Fld := ⟨46, 5, 1⟩
def fCL_ROUTE_STATUS_ERROR_RESP : Fld := ⟨46, 4, 1⟩
def fCL_ROUTE_STATUS_JOB_REFUSED : Fld := ⟨46, 3, 1⟩
def fCL_ROUTE_STATUS_QUEUE_FULL : Fld := ⟨46, 2, 1⟩
def fCL_ROUTE_STATUS_BUSY : Fld := ⟨46, 0, 1⟩
/-- Row of CL_ROUTE_LAST (07_conditional_computation.md, Table 7.5). -/
def rCL_ROUTE_LAST : Nat := 47
def fCL_ROUTE_LAST_WAYBILL : Fld := ⟨47, 32, 32⟩
def fCL_ROUTE_LAST_RESULT : Fld := ⟨47, 30, 2⟩
def fCL_ROUTE_LAST_PAIRS : Fld := ⟨47, 0, 17⟩
/-- Row of GL_TOPOLOGY[i] (08_on_die_network.md, Table 8.4). -/
def rGL_TOPOLOGY : Nat := 48
def fGL_TOPOLOGY_RETRIES : Fld := ⟨48, 48, 16⟩
def fGL_TOPOLOGY_END_B : Fld := ⟨48, 42, 6⟩
def fGL_TOPOLOGY_END_A : Fld := ⟨48, 36, 6⟩
def fGL_TOPOLOGY_KIND : Fld := ⟨48, 33, 3⟩
def fGL_TOPOLOGY_SPARE_USED : Fld := ⟨48, 32, 1⟩
def fGL_TOPOLOGY_LANES_FULL : Fld := ⟨48, 24, 8⟩
def fGL_TOPOLOGY_LANES_NOW : Fld := ⟨48, 16, 8⟩
def fGL_TOPOLOGY_STATE : Fld := ⟨48, 0, 3⟩
/-- Row of NW_OSTLER_KIND[k] (08_on_die_network.md, Table 8.7). -/
def rNW_OSTLER_KIND : Nat := 49
def fNW_OSTLER_KIND_WATCHDOG : Fld := ⟨49, 32, 32⟩
def fNW_OSTLER_KIND_N : Fld := ⟨49, 0, 7⟩
/-- Row of NW_OSTLER_SEL (08_on_die_network.md, Table 8.7). -/
def rNW_OSTLER_SEL : Nat := 50
def fNW_OSTLER_SEL_INDEX : Fld := ⟨50, 16, 8⟩
def fNW_OSTLER_SEL_UNIT : Fld := ⟨50, 8, 8⟩
def fNW_OSTLER_SEL_KIND : Fld := ⟨50, 0, 3⟩
/-- Row of NW_OSTLER_CTRL (08_on_die_network.md, Table 8.7). -/
def rNW_OSTLER_CTRL : Nat := 51
def fNW_OSTLER_CTRL_LODGING_FREEZE : Fld := ⟨51, 8, 8⟩
def fNW_OSTLER_CTRL_FREEZE : Fld := ⟨51, 0, 1⟩
/-- Row of NW_OSTLER_STATUS (08_on_die_network.md, Table 8.7). -/
def rNW_OSTLER_STATUS : Nat := 52
def fNW_OSTLER_STATUS_GRANTS : Fld := ⟨52, 32, 32⟩
def fNW_OSTLER_STATUS_PARKED : Fld := ⟨52, 24, 8⟩
def fNW_OSTLER_STATUS_HOLDER_FROZEN : Fld := ⟨52, 1, 1⟩
def fNW_OSTLER_STATUS_DRAINED : Fld := ⟨52, 0, 1⟩
/-- Row of NW_OSTLER_OWNER (08_on_die_network.md, Table 8.7). -/
def rNW_OSTLER_OWNER : Nat := 53
def fNW_OSTLER_OWNER_HOLDER : Fld := ⟨53, 0, 32⟩
/-- Row of NW_DETOUR[r][b][e] (08_on_die_network.md, Table 8.8). -/
def rNW_DETOUR : Nat := 54
def fNW_DETOUR_VALID : Fld := ⟨54, 63, 1⟩
def fNW_DETOUR_UNREACH : Fld := ⟨54, 62, 1⟩
def fNW_DETOUR_VIA : Fld := ⟨54, 8, 6⟩
def fNW_DETOUR_DEST : Fld := ⟨54, 0, 6⟩
/-- Row of NW_TOPO_SWITCH (08_on_die_network.md, Table 8.8). -/
def rNW_TOPO_SWITCH : Nat := 55
def fNW_TOPO_SWITCH_COUNT : Fld := ⟨55, 0, 64⟩
/-- Row of NW_TOPO_CTRL (08_on_die_network.md, Table 8.8). -/
def rNW_TOPO_CTRL : Nat := 56
def fNW_TOPO_CTRL_GEN : Fld := ⟨56, 32, 32⟩
def fNW_TOPO_CTRL_PENDING : Fld := ⟨56, 16, 1⟩
def fNW_TOPO_CTRL_ARM : Fld := ⟨56, 8, 1⟩
def fNW_TOPO_CTRL_ACTIVE_BANK : Fld := ⟨56, 0, 1⟩
/-- Row of NW_LINK_CMD (08_on_die_network.md, Table 8.8). -/
def rNW_LINK_CMD : Nat := 57
def fNW_LINK_CMD_OP : Fld := ⟨57, 8, 2⟩
def fNW_LINK_CMD_LINK : Fld := ⟨57, 0, 8⟩
/-- Row of NW_LINK_THRESH (08_on_die_network.md, Table 8.8). -/
def rNW_LINK_THRESH : Nat := 58
def fNW_LINK_THRESH_CHARGES : Fld := ⟨58, 0, 16⟩
/-- Row of NW_SWEEP (08_on_die_network.md, Table 8.8). -/
def rNW_SWEEP : Nat := 59
def fNW_SWEEP_START : Fld := ⟨59, 8, 1⟩
def fNW_SWEEP_ROUTER : Fld := ⟨59, 0, 6⟩
/-- Row of NW_STATUS (08_on_die_network.md, Table 8.9). -/
def rNW_STATUS : Nat := 60
def fNW_STATUS_LINK_NARROWED : Fld := ⟨60, 9, 1⟩
def fNW_STATUS_LANE_SPARED : Fld := ⟨60, 8, 1⟩
def fNW_STATUS_SWITCH_LATE : Fld := ⟨60, 7, 1⟩
def fNW_STATUS_REDUCE_MISMATCH : Fld := ⟨60, 6, 1⟩
def fNW_STATUS_CREDIT_STALL : Fld := ⟨60, 5, 1⟩
def fNW_STATUS_HOLD_FIRED : Fld := ⟨60, 4, 1⟩
def fNW_STATUS_UNREACHABLE : Fld := ⟨60, 3, 1⟩
def fNW_STATUS_ROUTER_FENCED : Fld := ⟨60, 2, 1⟩
def fNW_STATUS_LINK_REMOVED : Fld := ⟨60, 1, 1⟩
def fNW_STATUS_CFG_WHILE_BUSY : Fld := ⟨60, 0, 1⟩
/-- Row of NW_ROUTER_STATUS[r] (08_on_die_network.md, Table 8.9). -/
def rNW_ROUTER_STATUS : Nat := 61
def fNW_ROUTER_STATUS_ECC_CORRECTED : Fld := ⟨61, 48, 16⟩
def fNW_ROUTER_STATUS_MERGES : Fld := ⟨61, 32, 16⟩
def fNW_ROUTER_STATUS_MISSED_BEATS : Fld := ⟨61, 24, 8⟩
def fNW_ROUTER_STATUS_STATE : Fld := ⟨61, 0, 3⟩
/-- Row of NW_REDUCE_CFG (08_on_die_network.md, Table 8.10). -/
def rNW_REDUCE_CFG : Nat := 62
def fNW_REDUCE_CFG_HOLD : Fld := ⟨62, 0, 16⟩
/-- Row of GL_BAND_MODE (09_hbm_and_translation.md, Table 9.5). -/
def rGL_BAND_MODE : Nat := 63
def fGL_BAND_MODE_FIELD_LOCAL : Fld := ⟨63, 0, 64⟩
/-- Row of GL_PT_BASE (09_hbm_and_translation.md, Table 9.5). -/
def rGL_PT_BASE : Nat := 64
def fGL_PT_BASE_BASE : Fld := ⟨64, 0, 40⟩
/-- Row of GL_PT_REGION[l] (09_hbm_and_translation.md, Table 9.5). -/
def rGL_PT_REGION : Nat := 65
def fGL_PT_REGION_COUNT : Fld := ⟨65, 32, 25⟩
def fGL_PT_REGION_FIRST : Fld := ⟨65, 0, 24⟩
/-- Row of GL_TLB_INVAL (09_hbm_and_translation.md, Table 9.5). -/
def rGL_TLB_INVAL : Nat := 66
def fGL_TLB_INVAL_LODGING : Fld := ⟨66, 56, 3⟩
def fGL_TLB_INVAL_PAGES : Fld := ⟨66, 32, 24⟩
def fGL_TLB_INVAL_FIRST_PAGE : Fld := ⟨66, 0, 24⟩
/-- Row of GL_TLB_STATUS (09_hbm_and_translation.md, Table 9.5). -/
def rGL_TLB_STATUS : Nat := 67
def fGL_TLB_STATUS_FAULTS : Fld := ⟨67, 32, 32⟩
def fGL_TLB_STATUS_CFG_WHILE_BUSY : Fld := ⟨67, 2, 1⟩
def fGL_TLB_STATUS_PENDING : Fld := ⟨67, 1, 1⟩
def fGL_TLB_STATUS_DONE : Fld := ⟨67, 0, 1⟩
/-- Row of GL_SCRUB_SUBMIT (09_hbm_and_translation.md, Table 9.5). -/
def rGL_SCRUB_SUBMIT : Nat := 68
def fGL_SCRUB_SUBMIT_FRAMES : Fld := ⟨68, 24, 24⟩
def fGL_SCRUB_SUBMIT_FIRST : Fld := ⟨68, 0, 24⟩
/-- Row of GL_SCRUB_STATUS (09_hbm_and_translation.md, Table 9.5). -/
def rGL_SCRUB_STATUS : Nat := 69
def fGL_SCRUB_STATUS_COMPLETED : Fld := ⟨69, 32, 32⟩
def fGL_SCRUB_STATUS_QUEUED : Fld := ⟨69, 3, 5⟩
def fGL_SCRUB_STATUS_WRITE_FAILED : Fld := ⟨69, 2, 1⟩
def fGL_SCRUB_STATUS_QUEUE_FULL : Fld := ⟨69, 1, 1⟩
def fGL_SCRUB_STATUS_BUSY : Fld := ⟨69, 0, 1⟩
/-- Row of HB_RATE_CTRL (09_hbm_and_translation.md, Table 9.6). -/
def rHB_RATE_CTRL : Nat := 70
def fHB_RATE_CTRL_TARGET : Fld := ⟨70, 0, 2⟩
/-- Row of HB_RATE_SWITCH (09_hbm_and_translation.md, Table 9.6). -/
def rHB_RATE_SWITCH : Nat := 71
def fHB_RATE_SWITCH_COUNT : Fld := ⟨71, 0, 64⟩
/-- Row of HB_STATUS (09_hbm_and_translation.md, Table 9.6). -/
def rHB_STATUS : Nat := 72
def fHB_STATUS_RATE_NOW : Fld := ⟨72, 6, 2⟩
def fHB_STATUS_SWITCHING : Fld := ⟨72, 5, 1⟩
def fHB_STATUS_HOT : Fld := ⟨72, 4, 1⟩
def fHB_STATUS_UNCORRECTABLE : Fld := ⟨72, 3, 1⟩
def fHB_STATUS_CORRECTED : Fld := ⟨72, 2, 1⟩
def fHB_STATUS_PARITY : Fld := ⟨72, 1, 1⟩
def fHB_STATUS_CFG_WHILE_BUSY : Fld := ⟨72, 0, 1⟩
/-- Row of HB_ECC (09_hbm_and_translation.md, Table 9.6). -/
def rHB_ECC : Nat := 73
def fHB_ECC_CORRECTED : Fld := ⟨73, 32, 32⟩
def fHB_ECC_UNCORRECTABLE : Fld := ⟨73, 16, 16⟩
def fHB_ECC_PARITY_RETRIES : Fld := ⟨73, 0, 16⟩
/-- Row of HB_REFRESH (09_hbm_and_translation.md, Table 9.6). -/
def rHB_REFRESH : Nat := 74
def fHB_REFRESH_STRETCH : Fld := ⟨74, 0, 5⟩
/-- Row of HB_SCRUB_CFG (09_hbm_and_translation.md, Table 9.6). -/
def rHB_SCRUB_CFG : Nat := 75
def fHB_SCRUB_CFG_RATE : Fld := ⟨75, 0, 16⟩
/-- Row of CL_CORE_COUNT (10_result_integrity.md, Table 10.10). -/
def rCL_CORE_COUNT : Nat := 76
def fCL_CORE_COUNT_PRESENT : Fld := ⟨76, 24, 24⟩
def fCL_CORE_COUNT_COUNT : Fld := ⟨76, 0, 5⟩
/-- Row of CL_CORE_MAP[m] (10_result_integrity.md, Table 10.10). -/
def rCL_CORE_MAP : Nat := 77
def fCL_CORE_MAP_SLOT : Fld := ⟨77, 0, 60⟩
/-- Row of CL_ROW_SPARE (10_result_integrity.md, Table 10.10). -/
def rCL_ROW_SPARE : Nat := 78
def fCL_ROW_SPARE_FENCED : Fld := ⟨78, 32, 28⟩
def fCL_ROW_SPARE_ROWS : Fld := ⟨78, 0, 32⟩
/-- Row of CL_TAKEOVER (10_result_integrity.md, Table 10.10). -/
def rCL_TAKEOVER : Nat := 79
def fCL_TAKEOVER_TAKEOVERS : Fld := ⟨79, 48, 16⟩
def fCL_TAKEOVER_SWAPS : Fld := ⟨79, 32, 16⟩
def fCL_TAKEOVER_BUSY : Fld := ⟨79, 5, 1⟩
def fCL_TAKEOVER_LOGICAL : Fld := ⟨79, 0, 5⟩
/-- Row of CO_INTEG_STATUS (10_result_integrity.md, Table 10.11). -/
def rCO_INTEG_STATUS : Nat := 80
def fCO_INTEG_STATUS_REPLAYS : Fld := ⟨80, 48, 16⟩
def fCO_INTEG_STATUS_DETECTIONS : Fld := ⟨80, 32, 16⟩
def fCO_INTEG_STATUS_FENCE_REASON : Fld := ⟨80, 4, 4⟩
def fCO_INTEG_STATUS_DRESSING : Fld := ⟨80, 3, 1⟩
/-- Row of MG_STICKY1 (10_result_integrity.md, Table 10.12). -/
def rMG_STICKY1 : Nat := 81
def fMG_STICKY1_DRESS_OVERDUE : Fld := ⟨81, 9, 1⟩
def fMG_STICKY1_DRESS_FORCED : Fld := ⟨81, 8, 1⟩
def fMG_STICKY1_DRESS_FAILED : Fld := ⟨81, 7, 1⟩
def fMG_STICKY1_STORM : Fld := ⟨81, 6, 1⟩
def fMG_STICKY1_CLUSTER_FENCED : Fld := ⟨81, 5, 1⟩
def fMG_STICKY1_DATA_LOST : Fld := ⟨81, 4, 1⟩
def fMG_STICKY1_SPARE_EXHAUSTED : Fld := ⟨81, 3, 1⟩
def fMG_STICKY1_TAKEOVER : Fld := ⟨81, 2, 1⟩
def fMG_STICKY1_CORE_FENCED : Fld := ⟨81, 1, 1⟩
def fMG_STICKY1_LEDGER_OVERFLOW : Fld := ⟨81, 0, 1⟩
/-- Row of MG_LEDGER_STATUS (10_result_integrity.md, Table 10.12). -/
def rMG_LEDGER_STATUS : Nat := 82
def fMG_LEDGER_STATUS_WRITTEN : Fld := ⟨82, 32, 32⟩
def fMG_LEDGER_STATUS_OVERFLOWS : Fld := ⟨82, 16, 16⟩
def fMG_LEDGER_STATUS_UNREAD : Fld := ⟨82, 0, 11⟩
/-- Row of MG_LEDGER_READ (10_result_integrity.md, Table 10.12). -/
def rMG_LEDGER_READ : Nat := 83
def fMG_LEDGER_READ_READ : Fld := ⟨83, 0, 10⟩
/-- Row of MG_INTEG_CFG (10_result_integrity.md, Table 10.12). -/
def rMG_INTEG_CFG : Nat := 84
def fMG_INTEG_CFG_STORM_HOLD : Fld := ⟨84, 48, 16⟩
def fMG_INTEG_CFG_STORM_COUNT : Fld := ⟨84, 32, 16⟩
def fMG_INTEG_CFG_REPLAY_WINDOW : Fld := ⟨84, 16, 16⟩
def fMG_INTEG_CFG_REPLAY_LIMIT : Fld := ⟨84, 0, 8⟩
/-- Row of MG_DRESS_CFG (10_result_integrity.md, Table 10.12). -/
def rMG_DRESS_CFG : Nat := 85
def fMG_DRESS_CFG_PERIOD : Fld := ⟨85, 48, 16⟩
def fMG_DRESS_CFG_LEAD : Fld := ⟨85, 40, 8⟩
def fMG_DRESS_CFG_VDROP : Fld := ⟨85, 32, 8⟩
def fMG_DRESS_CFG_MAX_CONC : Fld := ⟨85, 1, 3⟩
def fMG_DRESS_CFG_EN : Fld := ⟨85, 0, 1⟩
/-- Row of MG_DRESS_STATUS (10_result_integrity.md, Table 10.12). -/
def rMG_DRESS_STATUS : Nat := 86
def fMG_DRESS_STATUS_PASSES : Fld := ⟨86, 48, 16⟩
def fMG_DRESS_STATUS_FAILS : Fld := ⟨86, 32, 16⟩
def fMG_DRESS_STATUS_OVERDUE : Fld := ⟨86, 16, 16⟩
def fMG_DRESS_STATUS_RUNNING : Fld := ⟨86, 0, 16⟩
/-- Row of MG_LEDGER_MIRROR (10_result_integrity.md, Table 10.12). -/
def rMG_LEDGER_MIRROR : Nat := 87
def fMG_LEDGER_MIRROR_BASE : Fld := ⟨87, 0, 40⟩
/-- Row of MG_LEDGER[i] (10_result_integrity.md, Table 10.12). -/
def rMG_LEDGER : Nat := 88
def fMG_LEDGER_RECORD : Fld := ⟨88, 0, 64⟩
/-- Row of TM_SITE_NOW (11_site_time_and_clocks.md, Table 11.4). -/
def rTM_SITE_NOW : Nat := 89
def fTM_SITE_NOW_COUNT : Fld := ⟨89, 0, 64⟩
/-- Row of TM_DISC_CFG (11_site_time_and_clocks.md, Table 11.4). -/
def rTM_DISC_CFG : Nat := 90
def fTM_DISC_CFG_STEP_LIMIT : Fld := ⟨90, 48, 16⟩
def fTM_DISC_CFG_SLEW : Fld := ⟨90, 40, 8⟩
def fTM_DISC_CFG_DOMAIN : Fld := ⟨90, 32, 8⟩
def fTM_DISC_CFG_LOCK_NS : Fld := ⟨90, 24, 8⟩
def fTM_DISC_CFG_OUT_WIDTH : Fld := ⟨90, 16, 8⟩
def fTM_DISC_CFG_TICK_WINDOW : Fld := ⟨90, 8, 8⟩
def fTM_DISC_CFG_PORT : Fld := ⟨90, 5, 3⟩
def fTM_DISC_CFG_TICK_RATE : Fld := ⟨90, 4, 1⟩
def fTM_DISC_CFG_SUBPORT : Fld := ⟨90, 2, 2⟩
def fTM_DISC_CFG_SOURCE : Fld := ⟨90, 0, 2⟩
/-- Row of TM_DISC_STATUS (11_site_time_and_clocks.md, Table 11.4). -/
def rTM_DISC_STATUS : Nat := 91
def fTM_DISC_STATUS_OFFSET : Fld := ⟨91, 32, 32⟩
def fTM_DISC_STATUS_REJECTED : Fld := ⟨91, 16, 16⟩
def fTM_DISC_STATUS_CFG_WHILE_BUSY : Fld := ⟨91, 7, 1⟩
def fTM_DISC_STATUS_STEP_REFUSED : Fld := ⟨91, 6, 1⟩
def fTM_DISC_STATUS_LOST : Fld := ⟨91, 5, 1⟩
def fTM_DISC_STATUS_STEP_NEEDED : Fld := ⟨91, 4, 1⟩
def fTM_DISC_STATUS_DISC_STATE : Fld := ⟨91, 0, 3⟩
/-- Row of TM_FREQ_ADJ (11_site_time_and_clocks.md, Table 11.4). -/
def rTM_FREQ_ADJ : Nat := 92
def fTM_FREQ_ADJ_ADJ : Fld := ⟨92, 0, 32⟩
/-- Row of TM_STEP_FWD (11_site_time_and_clocks.md, Table 11.4). -/
def rTM_STEP_FWD : Nat := 93
def fTM_STEP_FWD_AMOUNT : Fld := ⟨93, 0, 64⟩
/-- Row of TM_TICK_NEXT (11_site_time_and_clocks.md, Table 11.4). -/
def rTM_TICK_NEXT : Nat := 94
def fTM_TICK_NEXT_COUNT : Fld := ⟨94, 0, 64⟩
/-- Row of TM_STEP_TABLE[i] (11_site_time_and_clocks.md, Table 11.4). -/
def rTM_STEP_TABLE : Nat := 95
def fTM_STEP_TABLE_UNCORE_MHZ : Fld := ⟨95, 32, 12⟩
def fTM_STEP_TABLE_MV : Fld := ⟨95, 12, 10⟩
def fTM_STEP_TABLE_MHZ : Fld := ⟨95, 0, 12⟩
/-- Row of TM_FUSE_VF[i] (11_site_time_and_clocks.md, Table 11.4). -/
def rTM_FUSE_VF : Nat := 96
def fTM_FUSE_VF_MV : Fld := ⟨96, 12, 10⟩
def fTM_FUSE_VF_MHZ : Fld := ⟨96, 0, 12⟩
/-- Row of TM_FUSE_LIMITS (11_site_time_and_clocks.md, Table 11.4). -/
def rTM_FUSE_LIMITS : Nat := 97
def fTM_FUSE_LIMITS_DRESS_MHZ : Fld := ⟨97, 32, 12⟩
def fTM_FUSE_LIMITS_VMAX : Fld := ⟨97, 22, 10⟩
def fTM_FUSE_LIMITS_VMIN : Fld := ⟨97, 12, 10⟩
def fTM_FUSE_LIMITS_FMAX : Fld := ⟨97, 0, 12⟩
/-- Row of TM_SWITCH_COUNT (11_site_time_and_clocks.md, Table 11.4). -/
def rTM_SWITCH_COUNT : Nat := 98
def fTM_SWITCH_COUNT_TARGET : Fld := ⟨98, 61, 3⟩
def fTM_SWITCH_COUNT_COUNT : Fld := ⟨98, 0, 61⟩
/-- Row of TM_STEP_CFG (11_site_time_and_clocks.md, Table 11.4). -/
def rTM_STEP_CFG : Nat := 99
def fTM_STEP_CFG_MIN_LEAD : Fld := ⟨99, 0, 32⟩
/-- Row of TM_STEP_STATUS (11_site_time_and_clocks.md, Table 11.4). -/
def rTM_STEP_STATUS : Nat := 100
def fTM_STEP_STATUS_SWITCH_LATE : Fld := ⟨100, 2, 1⟩
def fTM_STEP_STATUS_PENDING : Fld := ⟨100, 1, 1⟩
/-- Row of TM_STEP_TARGET (11_site_time_and_clocks.md, Table 11.4). -/
def rTM_STEP_TARGET : Nat := 101
def fTM_STEP_TARGET_TARGET : Fld := ⟨101, 0, 3⟩
/-- Row of TM_REGION_STEP[r] (11_site_time_and_clocks.md, Table 11.4). -/
def rTM_REGION_STEP : Nat := 102
def fTM_REGION_STEP_BINDING : Fld := ⟨102, 8, 8⟩
def fTM_REGION_STEP_CEILING : Fld := ⟨102, 4, 4⟩
def fTM_REGION_STEP_IN_FORCE : Fld := ⟨102, 0, 3⟩
/-- Row of PW_CAP_SUSTAINED (12_power_delivery_and_capping.md, Table 12.4). -/
def rPW_CAP_SUSTAINED : Nat := 103
def fPW_CAP_SUSTAINED_CAP : Fld := ⟨103, 0, 12⟩
/-- Row of PW_CAP_PEAK (12_power_delivery_and_capping.md, Table 12.4). -/
def rPW_CAP_PEAK : Nat := 104
def fPW_CAP_PEAK_CAP : Fld := ⟨104, 0, 12⟩
/-- Row of PW_SHED_CAP (12_power_delivery_and_capping.md, Table 12.4). -/
def rPW_SHED_CAP : Nat := 105
def fPW_SHED_CAP_CAP : Fld := ⟨105, 0, 12⟩
/-- Row of PW_SLOPE (12_power_delivery_and_capping.md, Table 12.4). -/
def rPW_SLOPE : Nat := 106
def fPW_SLOPE_BALLAST : Fld := ⟨106, 40, 1⟩
def fPW_SLOPE_NOTICE_MAX : Fld := ⟨106, 32, 8⟩
def fPW_SLOPE_FALL : Fld := ⟨106, 16, 16⟩
def fPW_SLOPE_RISE : Fld := ⟨106, 0, 16⟩
/-- Row of PW_PRIORITY (12_power_delivery_and_capping.md, Table 12.4). -/
def rPW_PRIORITY : Nat := 107
def fPW_PRIORITY_FIRST : Fld := ⟨107, 4, 2⟩
def fPW_PRIORITY_SECOND : Fld := ⟨107, 2, 2⟩
def fPW_PRIORITY_LAST : Fld := ⟨107, 0, 2⟩
/-- Row of PW_CFG (12_power_delivery_and_capping.md, Table 12.4). -/
def rPW_CFG : Nat := 108
def fPW_CFG_CLUSTER_RAMP : Fld := ⟨108, 48, 16⟩
def fPW_CFG_DWELL : Fld := ⟨108, 32, 16⟩
def fPW_CFG_GUARD : Fld := ⟨108, 0, 8⟩
/-- Row of PW_STATUS (12_power_delivery_and_capping.md, Table 12.4). -/
def rPW_STATUS : Nat := 109
def fPW_STATUS_P : Fld := ⟨109, 48, 16⟩
def fPW_STATUS_A : Fld := ⟨109, 32, 16⟩
def fPW_STATUS_DUTY : Fld := ⟨109, 28, 4⟩
def fPW_STATUS_NOTICES : Fld := ⟨109, 24, 4⟩
def fPW_STATUS_SHED : Fld := ⟨109, 11, 1⟩
def fPW_STATUS_CAL_LIMIT : Fld := ⟨109, 10, 1⟩
def fPW_STATUS_CAP_CLAMPED : Fld := ⟨109, 9, 1⟩
def fPW_STATUS_CAP_UNREACHABLE : Fld := ⟨109, 8, 1⟩
def fPW_STATUS_PHASE_FAILED : Fld := ⟨109, 7, 1⟩
def fPW_STATUS_OVR_REGULATOR : Fld := ⟨109, 6, 1⟩
def fPW_STATUS_OVR_THERMAL : Fld := ⟨109, 5, 1⟩
def fPW_STATUS_OVR_POWER : Fld := ⟨109, 4, 1⟩
def fPW_STATUS_THERM_STOP : Fld := ⟨109, 3, 1⟩
def fPW_STATUS_SHED_SEEN : Fld := ⟨109, 2, 1⟩
def fPW_STATUS_NOTICE_REFUSED : Fld := ⟨109, 1, 1⟩
def fPW_STATUS_CFG_WHILE_BUSY : Fld := ⟨109, 0, 1⟩
/-- Row of PW_OVERRIDE_COUNT (12_power_delivery_and_capping.md, Table 12.4). -/
def rPW_OVERRIDE_COUNT : Nat := 110
def fPW_OVERRIDE_COUNT_POWER : Fld := ⟨110, 32, 32⟩
def fPW_OVERRIDE_COUNT_THERMAL : Fld := ⟨110, 16, 16⟩
def fPW_OVERRIDE_COUNT_REGULATOR : Fld := ⟨110, 0, 16⟩
/-- Row of PW_DOMAIN_CURRENT[d] (12_power_delivery_and_capping.md, Table 12.4). -/
def rPW_DOMAIN_CURRENT : Nat := 111
def fPW_DOMAIN_CURRENT_EST : Fld := ⟨111, 48, 16⟩
def fPW_DOMAIN_CURRENT_MV : Fld := ⟨111, 16, 16⟩
def fPW_DOMAIN_CURRENT_CURRENT : Fld := ⟨111, 0, 16⟩
/-- Row of PW_DOMAIN_CAL[d] (12_power_delivery_and_capping.md, Table 12.4). -/
def rPW_DOMAIN_CAL : Nat := 112
def fPW_DOMAIN_CAL_OFFSET : Fld := ⟨112, 32, 32⟩
def fPW_DOMAIN_CAL_GAIN : Fld := ⟨112, 0, 32⟩
/-- Row of PW_PHASE_STATUS[d] (12_power_delivery_and_capping.md, Table 12.4). -/
def rPW_PHASE_STATUS : Nat := 113
def fPW_PHASE_STATUS_FAILED : Fld := ⟨113, 0, 24⟩
/-- Row of PW_CAP_SCHED[i] word 0 (12_power_delivery_and_capping.md, Table 12.4). -/
def rPW_CAP_SCHED0 : Nat := 114
def fPW_CAP_SCHED0_VALID : Fld := ⟨114, 63, 1⟩
def fPW_CAP_SCHED0_COUNT : Fld := ⟨114, 0, 61⟩
/-- Row of PW_CAP_SCHED[i] word 1 (12_power_delivery_and_capping.md, Table 12.4). -/
def rPW_CAP_SCHED1 : Nat := 115
def fPW_CAP_SCHED1_RISE : Fld := ⟨115, 48, 12⟩
def fPW_CAP_SCHED1_SHED : Fld := ⟨115, 36, 12⟩
def fPW_CAP_SCHED1_PEAK : Fld := ⟨115, 24, 12⟩
def fPW_CAP_SCHED1_SUSTAINED : Fld := ⟨115, 12, 12⟩
/-- Row of PW_THERM_CFG (12_power_delivery_and_capping.md, Table 12.4). -/
def rPW_THERM_CFG : Nat := 116
def fPW_THERM_CFG_TARGET : Fld := ⟨116, 0, 8⟩
/-- Row of CL_RESET (13_bring_up_and_reset.md, Table 13.11). -/
def rCL_RESET : Nat := 117
def fCL_RESET_SCRUB : Fld := ⟨117, 15, 1⟩
def fCL_RESET_SLOT : Fld := ⟨117, 8, 5⟩
def fCL_RESET_OP : Fld := ⟨117, 0, 2⟩
/-- Row of CL_RESET_STATUS (13_bring_up_and_reset.md, Table 13.11). -/
def rCL_RESET_STATUS : Nat := 118
def fCL_RESET_STATUS_ABSORBED : Fld := ⟨118, 32, 32⟩
def fCL_RESET_STATUS_IN_ABSORB : Fld := ⟨118, 19, 13⟩
def fCL_RESET_STATUS_SIG_DROPPED : Fld := ⟨118, 3, 16⟩
def fCL_RESET_STATUS_SCRUBBING : Fld := ⟨118, 2, 1⟩
def fCL_RESET_STATUS_CLUSTER_BUSY : Fld := ⟨118, 1, 1⟩
def fCL_RESET_STATUS_CORE_BUSY : Fld := ⟨118, 0, 1⟩
/-- Row of GL_LODGING_RESET (13_bring_up_and_reset.md, Table 13.11). -/
def rGL_LODGING_RESET : Nat := 119
def fGL_LODGING_RESET_SCRUB : Fld := ⟨119, 8, 1⟩
def fGL_LODGING_RESET_START : Fld := ⟨119, 3, 1⟩
def fGL_LODGING_RESET_LODGING : Fld := ⟨119, 0, 3⟩
/-- Row of GL_RESET_STATUS (13_bring_up_and_reset.md, Table 13.11). -/
def rGL_RESET_STATUS : Nat := 120
def fGL_RESET_STATUS_SWEPT : Fld := ⟨120, 48, 16⟩
def fGL_RESET_STATUS_BUSY : Fld := ⟨120, 32, 8⟩
def fGL_RESET_STATUS_RESETS : Fld := ⟨120, 16, 16⟩
/-- Row of MG_START_CTRL (13_bring_up_and_reset.md, Table 13.11). -/
def rMG_START_CTRL : Nat := 121
def fMG_START_CTRL_OP : Fld := ⟨121, 0, 2⟩
/-- Row of MG_START_STATUS (13_bring_up_and_reset.md, Table 13.11). -/
def rMG_START_STATUS : Nat := 122
def fMG_START_STATUS_START_NUMBER : Fld := ⟨122, 48, 16⟩
def fMG_START_STATUS_STEP : Fld := ⟨122, 44, 4⟩
def fMG_START_STATUS_MODE : Fld := ⟨122, 42, 2⟩
def fMG_START_STATUS_STATE : Fld := ⟨122, 40, 2⟩
def fMG_START_STATUS_BOOT_SRC : Fld := ⟨122, 38, 2⟩
def fMG_START_STATUS_OTP_CRC_BAD : Fld := ⟨122, 9, 1⟩
def fMG_START_STATUS_HOST_LIST_REFUSED : Fld := ⟨122, 8, 1⟩
def fMG_START_STATUS_QUICK_REFUSED : Fld := ⟨122, 7, 1⟩
def fMG_START_STATUS_RUNTIME_FULL : Fld := ⟨122, 6, 1⟩
def fMG_START_STATUS_OTP_EXHAUSTED : Fld := ⟨122, 5, 1⟩
def fMG_START_STATUS_TOPO_DIFF : Fld := ⟨122, 4, 1⟩
def fMG_START_STATUS_STEP_ALTERED : Fld := ⟨122, 3, 1⟩
def fMG_START_STATUS_IMAGE_REFUSED : Fld := ⟨122, 2, 1⟩
def fMG_START_STATUS_CFG_WHILE_BUSY : Fld := ⟨122, 1, 1⟩
/-- Row of MG_START_CFG (13_bring_up_and_reset.md, Table 13.11). -/
def rMG_START_CFG : Nat := 123
def fMG_START_CFG_QUICK_MAX_AGE : Fld := ⟨123, 48, 16⟩
def fMG_START_CFG_TOPO_TOLERANCE : Fld := ⟨123, 40, 8⟩
def fMG_START_CFG_ROUTER_TOLERANCE : Fld := ⟨123, 32, 4⟩
def fMG_START_CFG_SPARE_SHRINK : Fld := ⟨123, 16, 16⟩
def fMG_START_CFG_QUICK_EN : Fld := ⟨123, 0, 1⟩
/-- Row of MG_DEFECT_STATUS (13_bring_up_and_reset.md, Table 13.11). -/
def rMG_DEFECT_STATUS : Nat := 124
def fMG_DEFECT_STATUS_RUNTIME : Fld := ⟨124, 48, 16⟩
def fMG_DEFECT_STATUS_GENS_USED : Fld := ⟨124, 40, 8⟩
def fMG_DEFECT_STATUS_GENS_VOID : Fld := ⟨124, 32, 8⟩
def fMG_DEFECT_STATUS_OTP_ENTRIES : Fld := ⟨124, 16, 16⟩
def fMG_DEFECT_STATUS_HOST_ENTRIES : Fld := ⟨124, 0, 16⟩
/-- Row of MG_BOOT_PROGRESS (13_bring_up_and_reset.md, Table 13.11). -/
def rMG_BOOT_PROGRESS : Nat := 125
def fMG_BOOT_PROGRESS_DONE : Fld := ⟨125, 0, 48⟩
/-- Row of MG_BOOT_FAILS (13_bring_up_and_reset.md, Table 13.11). -/
def rMG_BOOT_FAILS : Nat := 126
def fMG_BOOT_FAILS_COUNTS : Fld := ⟨126, 0, 56⟩
/-- Row of MG_BOOT_JOURNAL[i] (13_bring_up_and_reset.md, Table 13.11). -/
def rMG_BOOT_JOURNAL0 : Nat := 127
def fMG_BOOT_JOURNAL0_TIME : Fld := ⟨127, 0, 64⟩
/-- Row of MG_BOOT_JOURNAL[i] (13_bring_up_and_reset.md, Table 13.11). -/
def rMG_BOOT_JOURNAL1 : Nat := 128
def fMG_BOOT_JOURNAL1_UNIT : Fld := ⟨128, 32, 32⟩
def fMG_BOOT_JOURNAL1_OUTCOME : Fld := ⟨128, 24, 8⟩
def fMG_BOOT_JOURNAL1_STEP : Fld := ⟨128, 16, 8⟩
def fMG_BOOT_JOURNAL1_START_NUMBER : Fld := ⟨128, 0, 16⟩
/-- Row of CL_OWNER (14_lodgings_and_security.md, Table 14.6). -/
def rCL_OWNER : Nat := 129
def fCL_OWNER_LEAVING : Fld := ⟨129, 4, 1⟩
def fCL_OWNER_VALID : Fld := ⟨129, 3, 1⟩
def fCL_OWNER_LODGING : Fld := ⟨129, 0, 3⟩
/-- Row of GL_LODGING_CLUSTERS[l] (14_lodgings_and_security.md, Table 14.6). -/
def rGL_LODGING_CLUSTERS : Nat := 130
def fGL_LODGING_CLUSTERS_CLUSTERS : Fld := ⟨130, 0, 48⟩
/-- Row of GL_LODGING_CFG[l] (14_lodgings_and_security.md, Table 14.6). -/
def rGL_LODGING_CFG : Nat := 131
def fGL_LODGING_CFG_OPEN : Fld := ⟨131, 63, 1⟩
def fGL_LODGING_CFG_MODE : Fld := ⟨131, 62, 1⟩
def fGL_LODGING_CFG_LEVELS : Fld := ⟨131, 59, 3⟩
def fGL_LODGING_CFG_TX_SHARE : Fld := ⟨131, 48, 8⟩
def fGL_LODGING_CFG_PORTS : Fld := ⟨131, 16, 32⟩
/-- Row of SC_SLOT_RANGE[l] (14_lodgings_and_security.md, Table 14.6). -/
def rSC_SLOT_RANGE : Nat := 132
def fSC_SLOT_RANGE_COUNT : Fld := ⟨132, 32, 9⟩
def fSC_SLOT_RANGE_FIRST : Fld := ⟨132, 0, 8⟩
/-- Row of SC_STATUS (14_lodgings_and_security.md, Table 14.6). -/
def rSC_STATUS : Nat := 133
def fSC_STATUS_REFUSED : Fld := ⟨133, 32, 32⟩
def fSC_STATUS_KEY_REFUSED : Fld := ⟨133, 2, 1⟩
def fSC_STATUS_ACCESS_REFUSED : Fld := ⟨133, 1, 1⟩
def fSC_STATUS_IDENTITY_BAD : Fld := ⟨133, 0, 1⟩
/-- Row of SC_SLOT[k] word 0 (14_lodgings_and_security.md, Table 14.6). -/
def rSC_SLOT0 : Nat := 134
def fSC_SLOT0_KEY_ID : Fld := ⟨134, 32, 32⟩
def fSC_SLOT0_LODGING : Fld := ⟨134, 8, 3⟩
def fSC_SLOT0_DIR : Fld := ⟨134, 2, 2⟩
def fSC_SLOT0_STATE : Fld := ⟨134, 0, 2⟩
/-- Row of SC_SLOT[k] word 1 (14_lodgings_and_security.md, Table 14.6). -/
def rSC_SLOT1 : Nat := 135
def fSC_SLOT1_INVOCATIONS : Fld := ⟨135, 0, 48⟩
/-- Row of ET_PORT_CFG[p] (15_ethernet_and_training_continuity.md, Table 15.10). -/
def rET_PORT_CFG : Nat := 136
def fET_PORT_CFG_PFC_PRIO : Fld := ⟨136, 5, 3⟩
def fET_PORT_CFG_PFC_EN : Fld := ⟨136, 4, 1⟩
def fET_PORT_CFG_AN : Fld := ⟨136, 3, 1⟩
def fET_PORT_CFG_KR : Fld := ⟨136, 2, 1⟩
def fET_PORT_CFG_MODE : Fld := ⟨136, 0, 2⟩
/-- Row of ET_PORT_STATUS[p] (15_ethernet_and_training_continuity.md, Table 15.10). -/
def rET_PORT_STATUS : Nat := 137
def fET_PORT_STATUS_FEC_UNCORR : Fld := ⟨137, 32, 32⟩
def fET_PORT_STATUS_DROPPED : Fld := ⟨137, 16, 16⟩
def fET_PORT_STATUS_TAG_FAIL : Fld := ⟨137, 6, 1⟩
def fET_PORT_STATUS_LINK_DROPPED : Fld := ⟨137, 5, 1⟩
def fET_PORT_STATUS_CFG_WHILE_BUSY : Fld := ⟨137, 4, 1⟩
def fET_PORT_STATUS_UP : Fld := ⟨137, 0, 4⟩
/-- Row of ET_CONN_POST[l][c] (15_ethernet_and_training_continuity.md, Table 15.10). -/
def rET_CONN_POST : Nat := 138
def fET_CONN_POST_HEAD : Fld := ⟨138, 48, 16⟩
def fET_CONN_POST_TAIL : Fld := ⟨138, 32, 16⟩
def fET_CONN_POST_RX_READ : Fld := ⟨138, 16, 16⟩
def fET_CONN_POST_REASON : Fld := ⟨138, 3, 5⟩
def fET_CONN_POST_STATE : Fld := ⟨138, 0, 3⟩
/-- Row of ET_CKPT_CFG[l] word 0 (15_ethernet_and_training_continuity.md, Table 15.10). -/
def rET_CKPT_CFG0 : Nat := 139
def fET_CKPT_CFG0_EN : Fld := ⟨139, 63, 1⟩
def fET_CKPT_CFG0_FIRST : Fld := ⟨139, 0, 61⟩
/-- Row of ET_CKPT_CFG[l] word 1 (15_ethernet_and_training_continuity.md, Table 15.10). -/
def rET_CKPT_CFG1 : Nat := 140
def fET_CKPT_CFG1_PERIOD : Fld := ⟨140, 48, 16⟩
def fET_CKPT_CFG1_CAPTURE_LIMIT : Fld := ⟨140, 32, 16⟩
def fET_CKPT_CFG1_CONN : Fld := ⟨140, 0, 10⟩
/-- Row of ET_CKPT_CFG[l] word 2 (15_ethernet_and_training_continuity.md, Table 15.10). -/
def rET_CKPT_CFG2 : Nat := 141
def fET_CKPT_CFG2_BUF0 : Fld := ⟨141, 0, 40⟩
/-- Row of ET_CKPT_CFG[l] word 3 (15_ethernet_and_training_continuity.md, Table 15.10). -/
def rET_CKPT_CFG3 : Nat := 142
def fET_CKPT_CFG3_BUF1 : Fld := ⟨142, 0, 40⟩
/-- Row of ET_CKPT_CFG[l] word 4 (15_ethernet_and_training_continuity.md, Table 15.10). -/
def rET_CKPT_CFG4 : Nat := 143
def fET_CKPT_CFG4_TENSOR_SIZE : Fld := ⟨143, 0, 64⟩
/-- Row of ET_CKPT_CFG[l] word 5 (15_ethernet_and_training_continuity.md, Table 15.10). -/
def rET_CKPT_CFG5 : Nat := 144
def fET_CKPT_CFG5_REMOTE0 : Fld := ⟨144, 0, 64⟩
/-- Row of ET_CKPT_CFG[l] word 6 (15_ethernet_and_training_continuity.md, Table 15.10). -/
def rET_CKPT_CFG6 : Nat := 145
def fET_CKPT_CFG6_REMOTE1 : Fld := ⟨145, 0, 64⟩
/-- Row of ET_CKPT_CFG[l] word 7 (15_ethernet_and_training_continuity.md, Table 15.10). -/
def rET_CKPT_CFG7 : Nat := 146
def fET_CKPT_CFG7_RKEY : Fld := ⟨146, 32, 32⟩
/-- Row of ET_CKPT_STATUS[l] (15_ethernet_and_training_continuity.md, Table 15.10). -/
def rET_CKPT_STATUS : Nat := 147
def fET_CKPT_STATUS_CAPTURES : Fld := ⟨147, 32, 32⟩
def fET_CKPT_STATUS_DRAIN_FAILED : Fld := ⟨147, 6, 1⟩
def fET_CKPT_STATUS_ABANDONED : Fld := ⟨147, 5, 1⟩
def fET_CKPT_STATUS_SKIPPED : Fld := ⟨147, 4, 1⟩
def fET_CKPT_STATUS_NEXT_BUFFER : Fld := ⟨147, 3, 1⟩
def fET_CKPT_STATUS_DRAINING : Fld := ⟨147, 2, 1⟩
def fET_CKPT_STATUS_TAKING : Fld := ⟨147, 1, 1⟩
def fET_CKPT_STATUS_PENDING : Fld := ⟨147, 0, 1⟩
/-- Row of ET_MB_FLOOR[l] (15_ethernet_and_training_continuity.md, Table 15.10). -/
def rET_MB_FLOOR : Nat := 148
def fET_MB_FLOOR_FLOOR : Fld := ⟨148, 0, 31⟩
/-- Row of ET_RESUME[l] word 0 (15_ethernet_and_training_continuity.md, Table 15.10). -/
def rET_RESUME0 : Nat := 149
def fET_RESUME0_START : Fld := ⟨149, 63, 1⟩
def fET_RESUME0_BASE : Fld := ⟨149, 0, 40⟩
/-- Row of ET_RESUME[l] word 1 (15_ethernet_and_training_continuity.md, Table 15.10). -/
def rET_RESUME1 : Nat := 150
def fET_RESUME1_AT : Fld := ⟨150, 0, 61⟩
/-- Row of ET_RESUME_STATUS[l] (15_ethernet_and_training_continuity.md, Table 15.10). -/
def rET_RESUME_STATUS : Nat := 151
def fET_RESUME_STATUS_REASON : Fld := ⟨151, 4, 4⟩
def fET_RESUME_STATUS_RESULT : Fld := ⟨151, 0, 2⟩
/-- Row of MG_SENSOR[i] (16_management_subsystem.md, Table 16.2). -/
def rMG_SENSOR : Nat := 152
def fMG_SENSOR_MAX_HOUR : Fld := ⟨152, 48, 16⟩
def fMG_SENSOR_MIN_HOUR : Fld := ⟨152, 32, 16⟩
def fMG_SENSOR_TEMP : Fld := ⟨152, 16, 16⟩
def fMG_SENSOR_IGNORED : Fld := ⟨152, 1, 1⟩
def fMG_SENSOR_VALID : Fld := ⟨152, 0, 1⟩
/-- Row of MG_STICKY0 (16_management_subsystem.md, Table 16.6). -/
def rMG_STICKY0 : Nat := 153
def fMG_STICKY0_UPDATE_FAILED : Fld := ⟨153, 5, 1⟩
def fMG_STICKY0_PUSH_FAILED : Fld := ⟨153, 4, 1⟩
def fMG_STICKY0_MSG_DROPPED : Fld := ⟨153, 3, 1⟩
def fMG_STICKY0_CTRL_STOPPED : Fld := ⟨153, 2, 1⟩
def fMG_STICKY0_CTRL_RESTART : Fld := ⟨153, 1, 1⟩
def fMG_STICKY0_UNMAPPED_WRITE : Fld := ⟨153, 0, 1⟩
/-- Row of MG_STICKY2 (16_management_subsystem.md, Table 16.6). -/
def rMG_STICKY2 : Nat := 154
def fMG_STICKY2_CORE : Fld := ⟨154, 13, 1⟩
def fMG_STICKY2_CLUSTER : Fld := ⟨154, 12, 1⟩
def fMG_STICKY2_START : Fld := ⟨154, 11, 1⟩
def fMG_STICKY2_ETHERNET : Fld := ⟨154, 10, 1⟩
def fMG_STICKY2_SECURITY : Fld := ⟨154, 9, 1⟩
def fMG_STICKY2_TRANSLATION : Fld := ⟨154, 8, 1⟩
def fMG_STICKY2_STREAMS : Fld := ⟨154, 7, 1⟩
def fMG_STICKY2_HBM : Fld := ⟨154, 6, 1⟩
def fMG_STICKY2_NETWORK : Fld := ⟨154, 5, 1⟩
def fMG_STICKY2_TIME : Fld := ⟨154, 4, 1⟩
def fMG_STICKY2_POWER : Fld := ⟨154, 3, 1⟩
def fMG_STICKY2_HOST : Fld := ⟨154, 2, 1⟩
def fMG_STICKY2_INTEGRITY : Fld := ⟨154, 1, 1⟩
def fMG_STICKY2_INNKEEPER : Fld := ⟨154, 0, 1⟩
/-- Row of MG_STICKY3 (16_management_subsystem.md, Table 16.6). -/
def rMG_STICKY3 : Nat := 155
def fMG_STICKY3_ATTACH_REFUSED : Fld := ⟨155, 2, 1⟩
def fMG_STICKY3_AUTH_FAIL : Fld := ⟨155, 1, 1⟩
def fMG_STICKY3_OWNER_UNBOUND : Fld := ⟨155, 0, 1⟩

/-- Rows 0 to 19 of the register table. -/
def regRows1 : List RegRow := [
  ⟨.gl, 0x0, [], 0x1344b000, [(16, 16, .ro), (8, 8, .ro)]⟩,
  ⟨.gl, 0x8, [], 0x307, [(8, 8, .ro), (0, 8, .ro)]⟩,
  ⟨.co, 0x400, [], 0x0, [(0, 64, .sh)]⟩,
  ⟨.co, 0x408, [], 0x0, [(5, 1, .rws), (4, 1, .rws), (3, 1, .rws), (2, 1, .rws), (1, 1, .rws), (0, 1, .rws)]⟩,
  ⟨.co, 0x500, [], 0x3, [(48, 16, .ro), (32, 16, .ro), (16, 16, .ro), (5, 1, .ro), (4, 1, .ro), (2, 2, .ro), (0, 2, .ro)]⟩,
  ⟨.co, 0x508, [], 0x0, [(2, 1, .wo), (0, 2, .wo)]⟩,
  ⟨.cl, 0x1800, [], 0x0, [(40, 2, .wo), (32, 8, .wo), (0, 32, .wo)]⟩,
  ⟨.cl, 0x2000, [(8, 256)], 0x0, [(32, 12, .ro), (0, 32, .ro)]⟩,
  ⟨.co, 0x600, [], 0x10000800080, [(32, 16, .ro), (16, 16, .ro), (0, 16, .ro)]⟩,
  ⟨.co, 0x608, [], 0xc000600060, [(32, 16, .ro), (16, 16, .ro), (0, 16, .ro)]⟩,
  ⟨.co, 0x610, [], 0x30, [(0, 16, .ro)]⟩,
  ⟨.cl, 0x1000, [], 0x1800, [(16, 32, .ro), (0, 16, .ro)]⟩,
  ⟨.cl, 0x1008, [(8, 4)], 0xc0c0c0c0c0c0c0c0, [(56, 8, .ro), (48, 8, .ro), (40, 8, .ro), (32, 8, .ro), (24, 8, .ro), (16, 8, .ro), (8, 8, .ro), (0, 8, .ro)]⟩,
  ⟨.gl, 0x100, [], 0x3600000048000, [(32, 32, .ro), (0, 32, .ro)]⟩,
  ⟨.gl, 0x108, [], 0xd80000048000, [(32, 32, .ro), (0, 32, .ro)]⟩,
  ⟨.co, 0x618, [], 0xf, [(12, 4, .ro), (8, 4, .wo), (4, 4, .wo), (0, 4, .ro)]⟩,
  ⟨.cl, 0x1028, [], 0x0, [(32, 32, .wo), (0, 32, .wo)]⟩,
  ⟨.cl, 0x1030, [], 0xffffffff, [(32, 32, .ro), (0, 32, .ro)]⟩,
  ⟨.co, 0x620, [], 0x0, [(32, 32, .ro), (4, 1, .rws), (3, 1, .rws), (2, 1, .rws), (1, 1, .rws), (0, 1, .rws)]⟩,
  ⟨.co, 0x628, [], 0x0, [(0, 64, .ro)]⟩]

/-- Rows 20 to 39 of the register table. -/
def regRows2 : List RegRow := [
  ⟨.cl, 0x1038, [], 0x0, [(32, 32, .ro), (6, 1, .rws), (5, 1, .rws), (4, 1, .rws), (3, 1, .rws), (2, 1, .rws), (1, 1, .rws), (0, 1, .rws)]⟩,
  ⟨.co, 0x100, [], 0x0, [(24, 40, .ro), (16, 4, .ro), (8, 8, .ro), (6, 2, .ro), (3, 1, .rws), (0, 3, .ro)]⟩,
  ⟨.co, 0x108, [], 0x0, [(48, 16, .ro), (36, 12, .ro), (32, 1, .ro), (0, 32, .ro)]⟩,
  ⟨.co, 0x110, [], 0x0, [(0, 40, .ro)]⟩,
  ⟨.co, 0x118, [], 0x0, [(0, 48, .ro)]⟩,
  ⟨.gl, 0x400000, [(64, 65536)], 0x0, [(0, 64, .rw)]⟩,
  ⟨.gl, 0x400008, [(64, 65536)], 0x0, [(32, 32, .rw), (30, 2, .rw), (16, 12, .rw), (8, 6, .rw)]⟩,
  ⟨.gl, 0x400010, [(64, 65536)], 0x0, [(0, 40, .rw)]⟩,
  ⟨.gl, 0x400018, [(64, 65536)], 0x0, [(0, 40, .rw)]⟩,
  ⟨.gl, 0x400020, [(64, 65536)], 0x0, [(32, 32, .rw), (31, 1, .rw), (16, 12, .rw), (8, 6, .rw)]⟩,
  ⟨.gl, 0x400028, [(64, 65536)], 0x0, [(32, 32, .rw), (0, 32, .rw)]⟩,
  ⟨.gl, 0x400030, [(64, 65536)], 0x0, [(32, 32, .rw), (16, 16, .rw), (0, 16, .rw)]⟩,
  ⟨.gl, 0x400038, [(64, 65536)], 0x0, [(48, 6, .rw), (40, 3, .ro), (17, 1, .rw), (8, 2, .rw), (0, 3, .rw)]⟩,
  ⟨.gl, 0x400, [(8, 8)], 0x0, [(32, 17, .rw), (0, 16, .rw)]⟩,
  ⟨.cl, 0x1808, [], 0x0, [(44, 2, .wo), (32, 12, .wo), (0, 32, .wo)]⟩,
  ⟨.cl, 0x8000, [(8, 4096)], 0x0, [(32, 32, .ro), (0, 32, .ro)]⟩,
  ⟨.gl, 0x1000, [(8, 64)], 0x0, [(56, 3, .ro), (55, 1, .ro), (32, 16, .rw), (16, 16, .rw), (0, 16, .rw)]⟩,
  ⟨.gl, 0x300, [], 0x0, [(16, 2, .wo), (0, 16, .wo)]⟩,
  ⟨.gl, 0x308, [], 0x0, [(32, 32, .ro), (3, 1, .rws), (2, 1, .rws), (1, 1, .rws), (0, 1, .rws)]⟩,
  ⟨.gl, 0x310, [], 0x186a0, [(0, 32, .sh)]⟩]

/-- Rows 40 to 59 of the register table. -/
def regRows3 : List RegRow := [
  ⟨.sq, 0x0, [], 0x0, [(16, 16, .ro), (5, 1, .rws), (0, 5, .ro)]⟩,
  ⟨.sq, 0x100, [(8, 16)], 0x0, [(0, 64, .rw)]⟩,
  ⟨.sq, 0x200, [], 0x0, [(12, 28, .rw)]⟩,
  ⟨.sq, 0x208, [], 0x0, [(48, 16, .ro), (32, 16, .ro), (16, 16, .sh), (1, 4, .rw), (0, 1, .sh)]⟩,
  ⟨.sq, 0x400, [(8, 16)], 0x0, [(32, 16, .ro), (19, 1, .ro), (16, 3, .ro), (0, 16, .ro)]⟩,
  ⟨.cl, 0x3000, [], 0x0, [(0, 48, .wo)]⟩,
  ⟨.cl, 0x3008, [], 0x0, [(48, 16, .ro), (32, 3, .ro), (6, 1, .ro), (5, 1, .rws), (4, 1, .rws), (3, 1, .rws), (2, 1, .rws), (0, 1, .ro)]⟩,
  ⟨.cl, 0x3010, [], 0x0, [(32, 32, .ro), (30, 2, .ro), (0, 17, .ro)]⟩,
  ⟨.gl, 0x2000, [(8, 160)], 0x0, [(48, 16, .ro), (42, 6, .ro), (36, 6, .ro), (33, 3, .ro), (32, 1, .ro), (24, 8, .ro), (16, 8, .ro), (0, 3, .ro)]⟩,
  ⟨.nw, 0x0, [(8, 6)], 0x1000000000008, [(32, 32, .sh), (0, 7, .sh)]⟩,
  ⟨.nw, 0x100, [], 0x0, [(16, 8, .rw), (8, 8, .rw), (0, 3, .rw)]⟩,
  ⟨.nw, 0x108, [], 0x0, [(8, 8, .sh), (0, 1, .sh)]⟩,
  ⟨.nw, 0x110, [], 0x0, [(32, 32, .ro), (24, 8, .ro), (1, 1, .ro), (0, 1, .ro)]⟩,
  ⟨.nw, 0x118, [], 0xffffffff, [(0, 32, .ro)]⟩,
  ⟨.nw, 0x100000, [(4096, 48), (512, 2), (8, 64)], 0x0, [(63, 1, .rw), (62, 1, .rw), (8, 6, .rw), (0, 6, .rw)]⟩,
  ⟨.nw, 0x208, [], 0x0, [(0, 64, .rw)]⟩,
  ⟨.nw, 0x210, [], 0x0, [(32, 32, .ro), (16, 1, .ro), (8, 1, .wo), (0, 1, .ro)]⟩,
  ⟨.nw, 0x218, [], 0x0, [(8, 2, .wo), (0, 8, .wo)]⟩,
  ⟨.nw, 0x220, [], 0x10, [(0, 16, .sh)]⟩,
  ⟨.nw, 0x230, [], 0x0, [(8, 1, .wo), (0, 6, .wo)]⟩]

/-- Rows 60 to 79 of the register table. -/
def regRows4 : List RegRow := [
  ⟨.nw, 0x200, [], 0x0, [(9, 1, .rws), (8, 1, .rws), (7, 1, .rws), (6, 1, .rws), (5, 1, .rws), (4, 1, .rws), (3, 1, .rws), (2, 1, .rws), (1, 1, .rws), (0, 1, .rws)]⟩,
  ⟨.nw, 0x400, [(8, 48)], 0x0, [(48, 16, .ro), (32, 16, .ro), (24, 8, .ro), (0, 3, .ro)]⟩,
  ⟨.nw, 0x228, [], 0x20, [(0, 16, .sh)]⟩,
  ⟨.gl, 0x500, [], 0x0, [(0, 64, .rw)]⟩,
  ⟨.gl, 0x508, [], 0xbff8000000, [(27, 13, .rw)]⟩,
  ⟨.gl, 0x540, [(8, 8)], 0x0, [(32, 25, .rw), (0, 24, .rw)]⟩,
  ⟨.gl, 0x580, [], 0x0, [(56, 3, .wo), (32, 24, .wo), (0, 24, .wo)]⟩,
  ⟨.gl, 0x588, [], 0x0, [(32, 32, .ro), (2, 1, .rws), (1, 1, .ro), (0, 1, .w1c)]⟩,
  ⟨.gl, 0x590, [], 0x0, [(24, 24, .wo), (0, 24, .wo)]⟩,
  ⟨.gl, 0x598, [], 0x0, [(32, 32, .ro), (3, 5, .ro), (2, 1, .rws), (1, 1, .rws), (0, 1, .ro)]⟩,
  ⟨.hb, 0x0, [], 0x2, [(0, 2, .rw)]⟩,
  ⟨.hb, 0x8, [], 0x0, [(0, 64, .rw)]⟩,
  ⟨.hb, 0x10, [], 0x80, [(6, 2, .ro), (5, 1, .ro), (4, 1, .ro), (3, 1, .rws), (2, 1, .rws), (1, 1, .rws), (0, 1, .rws)]⟩,
  ⟨.hb, 0x18, [], 0x0, [(32, 32, .ro), (16, 16, .ro), (0, 16, .ro)]⟩,
  ⟨.hb, 0x20, [], 0x1, [(0, 5, .rw)]⟩,
  ⟨.hb, 0x28, [], 0x64, [(0, 16, .sh)]⟩,
  ⟨.cl, 0x100, [], 0xffffff000018, [(24, 24, .ro), (0, 5, .ro)]⟩,
  ⟨.cl, 0x108, [(8, 2)], 0x0, [(0, 60, .ro)]⟩,
  ⟨.cl, 0x118, [], 0x9b948d86, [(32, 28, .ro), (0, 32, .ro)]⟩,
  ⟨.cl, 0x120, [], 0x0, [(48, 16, .ro), (32, 16, .ro), (5, 1, .ro), (0, 5, .ro)]⟩]

/-- Rows 80 to 99 of the register table. -/
def regRows5 : List RegRow := [
  ⟨.co, 0x700, [], 0x0, [(48, 16, .ro), (32, 16, .ro), (4, 4, .ro), (3, 1, .ro)]⟩,
  ⟨.mg, 0x108, [], 0x0, [(9, 1, .rws), (8, 1, .rws), (7, 1, .rws), (6, 1, .rws), (5, 1, .rws), (4, 1, .rws), (3, 1, .rws), (2, 1, .rws), (1, 1, .rws), (0, 1, .rws)]⟩,
  ⟨.mg, 0x1000, [], 0x0, [(32, 32, .ro), (16, 16, .ro), (0, 11, .ro)]⟩,
  ⟨.mg, 0x1008, [], 0x0, [(0, 10, .sh)]⟩,
  ⟨.mg, 0x1010, [], 0xa0010000a0003, [(48, 16, .sh), (32, 16, .sh), (16, 16, .sh), (0, 8, .sh)]⟩,
  ⟨.mg, 0x1018, [], 0x18041e00000003, [(48, 16, .sh), (40, 8, .sh), (32, 8, .sh), (1, 3, .sh), (0, 1, .sh)]⟩,
  ⟨.mg, 0x1020, [], 0xffff, [(48, 16, .ro), (32, 16, .ro), (16, 16, .ro), (0, 16, .ro)]⟩,
  ⟨.mg, 0x1028, [], 0x0, [(16, 24, .rw)]⟩,
  ⟨.mg, 0x10000, [(64, 1024), (8, 8)], 0x0, [(0, 64, .ro)]⟩,
  ⟨.tm, 0x0, [], 0x0, [(0, 64, .rw)]⟩,
  ⟨.tm, 0x8, [], 0x3e864006464fa00, [(48, 16, .sh), (40, 8, .sh), (32, 8, .sh), (24, 8, .sh), (16, 8, .sh), (8, 8, .sh), (5, 3, .sh), (4, 1, .sh), (2, 2, .sh), (0, 2, .sh)]⟩,
  ⟨.tm, 0x10, [], 0x0, [(32, 32, .ro), (16, 16, .ro), (7, 1, .rws), (6, 1, .rws), (5, 1, .rws), (4, 1, .ro), (0, 3, .ro)]⟩,
  ⟨.tm, 0x18, [], 0x0, [(0, 32, .rw)]⟩,
  ⟨.tm, 0x20, [], 0x0, [(0, 64, .wo)]⟩,
  ⟨.tm, 0x28, [], 0x0, [(0, 64, .rw)]⟩,
  ⟨.tm, 0x100, [(8, 8)], 0x3e800000000, [(32, 12, .rw), (12, 10, .rw), (0, 12, .rw)]⟩,
  ⟨.tm, 0x140, [(8, 8)], 0x0, [(12, 10, .ro), (0, 12, .ro)]⟩,
  ⟨.tm, 0x180, [], 0x546c81f4514, [(32, 12, .ro), (22, 10, .ro), (12, 10, .ro), (0, 12, .ro)]⟩,
  ⟨.tm, 0x200, [], 0xe000000000000000, [(61, 3, .rw), (0, 61, .rw)]⟩,
  ⟨.tm, 0x208, [], 0xc350, [(0, 32, .sh)]⟩]

/-- Rows 100 to 119 of the register table. -/
def regRows6 : List RegRow := [
  ⟨.tm, 0x210, [], 0x0, [(2, 1, .rws), (1, 1, .ro)]⟩,
  ⟨.tm, 0x218, [], 0x7, [(0, 3, .ro)]⟩,
  ⟨.tm, 0x400, [(8, 49)], 0x77, [(8, 8, .ro), (4, 4, .ro), (0, 3, .ro)]⟩,
  ⟨.pw, 0x0, [], 0x960, [(0, 12, .rw)]⟩,
  ⟨.pw, 0x8, [], 0xaf0, [(0, 12, .rw)]⟩,
  ⟨.pw, 0x10, [], 0x3e8, [(0, 12, .rw)]⟩,
  ⟨.pw, 0x18, [], 0x6400140014, [(40, 1, .rw), (32, 8, .rw), (16, 16, .rw), (0, 16, .rw)]⟩,
  ⟨.pw, 0x20, [], 0x6, [(4, 2, .rw), (2, 2, .rw), (0, 2, .rw)]⟩,
  ⟨.pw, 0x28, [], 0x24000200000028, [(48, 16, .rw), (32, 16, .rw), (0, 8, .rw)]⟩,
  ⟨.pw, 0x30, [], 0x0, [(48, 16, .ro), (32, 16, .ro), (28, 4, .ro), (24, 4, .ro), (11, 1, .ro), (10, 1, .rws), (9, 1, .rws), (8, 1, .rws), (7, 1, .rws), (6, 1, .rws), (5, 1, .rws), (4, 1, .rws), (3, 1, .rws), (2, 1, .rws), (1, 1, .rws), (0, 1, .rws)]⟩,
  ⟨.pw, 0x38, [], 0x0, [(32, 32, .ro), (16, 16, .ro), (0, 16, .ro)]⟩,
  ⟨.pw, 0x100, [(8, 50)], 0x0, [(48, 16, .ro), (16, 16, .ro), (0, 16, .ro)]⟩,
  ⟨.pw, 0x200, [(8, 50)], 0x10000, [(32, 32, .ro), (0, 32, .ro)]⟩,
  ⟨.pw, 0x300, [(8, 50)], 0x0, [(0, 24, .ro)]⟩,
  ⟨.pw, 0x400, [(16, 16)], 0x0, [(63, 1, .rw), (0, 61, .rw)]⟩,
  ⟨.pw, 0x408, [(16, 16)], 0x0, [(48, 12, .rw), (36, 12, .rw), (24, 12, .rw), (12, 12, .rw)]⟩,
  ⟨.pw, 0x500, [], 0x5f, [(0, 8, .rw)]⟩,
  ⟨.cl, 0x180, [], 0x0, [(15, 1, .wo), (8, 5, .wo), (0, 2, .wo)]⟩,
  ⟨.cl, 0x188, [], 0x0, [(32, 32, .ro), (19, 13, .ro), (3, 16, .ro), (2, 1, .ro), (1, 1, .ro), (0, 1, .ro)]⟩,
  ⟨.gl, 0x600, [], 0x0, [(8, 1, .wo), (3, 1, .wo), (0, 3, .wo)]⟩]

/-- Rows 120 to 139 of the register table. -/
def regRows7 : List RegRow := [
  ⟨.gl, 0x608, [], 0x0, [(48, 16, .ro), (32, 8, .ro), (16, 16, .ro)]⟩,
  ⟨.mg, 0x2000, [], 0x0, [(0, 2, .wo)]⟩,
  ⟨.mg, 0x2008, [], 0x0, [(48, 16, .ro), (44, 4, .ro), (42, 2, .ro), (40, 2, .ro), (38, 2, .ro), (9, 1, .rws), (8, 1, .rws), (7, 1, .rws), (6, 1, .rws), (5, 1, .rws), (4, 1, .rws), (3, 1, .rws), (2, 1, .rws), (1, 1, .rws)]⟩,
  ⟨.mg, 0x2010, [], 0x1e040200040001, [(48, 16, .rw), (40, 8, .rw), (32, 4, .rw), (16, 16, .rw), (0, 1, .rw)]⟩,
  ⟨.mg, 0x2018, [], 0x0, [(48, 16, .ro), (40, 8, .ro), (32, 8, .ro), (16, 16, .ro), (0, 16, .ro)]⟩,
  ⟨.mg, 0x2020, [], 0x0, [(0, 48, .ro)]⟩,
  ⟨.mg, 0x2028, [], 0x0, [(0, 56, .ro)]⟩,
  ⟨.mg, 0x2100, [(16, 32)], 0x0, [(0, 64, .ro)]⟩,
  ⟨.mg, 0x2108, [(16, 32)], 0x0, [(32, 32, .ro), (24, 8, .ro), (16, 8, .ro), (0, 16, .ro)]⟩,
  ⟨.cl, 0x10, [], 0x0, [(4, 1, .rw), (3, 1, .rw), (0, 3, .rw)]⟩,
  ⟨.gl, 0x700, [(8, 8)], 0x0, [(0, 48, .rw)]⟩,
  ⟨.gl, 0x740, [(8, 8)], 0x0, [(63, 1, .rw), (62, 1, .rw), (59, 3, .ro), (48, 8, .rw), (16, 32, .rw)]⟩,
  ⟨.sc, 0x0, [(8, 8)], 0x0, [(32, 9, .rw), (0, 8, .rw)]⟩,
  ⟨.sc, 0x100, [], 0x0, [(32, 32, .ro), (2, 1, .rws), (1, 1, .rws), (0, 1, .ro)]⟩,
  ⟨.sc, 0x1000, [(16, 256)], 0x0, [(32, 32, .ro), (8, 3, .ro), (2, 2, .ro), (0, 2, .ro)]⟩,
  ⟨.sc, 0x1008, [(16, 256)], 0x0, [(0, 48, .ro)]⟩,
  ⟨.et, 0x0, [(8, 8)], 0x68, [(5, 3, .rw), (4, 1, .rw), (3, 1, .rw), (2, 1, .rw), (0, 2, .rw)]⟩,
  ⟨.et, 0x40, [(8, 8)], 0x0, [(32, 32, .ro), (16, 16, .ro), (6, 1, .rws), (5, 1, .rws), (4, 1, .rws), (0, 4, .ro)]⟩,
  ⟨.et, 0x100000, [(8192, 8), (8, 1024)], 0x0, [(48, 16, .ro), (32, 16, .rw), (16, 16, .rw), (3, 5, .ro), (0, 3, .ro)]⟩,
  ⟨.et, 0x1000, [(64, 8)], 0x0, [(63, 1, .sh), (0, 61, .sh)]⟩]

/-- Rows 140 to 155 of the register table. -/
def regRows8 : List RegRow := [
  ⟨.et, 0x1008, [(64, 8)], 0xb403e800000000, [(48, 16, .sh), (32, 16, .sh), (0, 10, .sh)]⟩,
  ⟨.et, 0x1010, [(64, 8)], 0x0, [(16, 24, .sh)]⟩,
  ⟨.et, 0x1018, [(64, 8)], 0x0, [(16, 24, .sh)]⟩,
  ⟨.et, 0x1020, [(64, 8)], 0x0, [(0, 64, .sh)]⟩,
  ⟨.et, 0x1028, [(64, 8)], 0x0, [(0, 64, .sh)]⟩,
  ⟨.et, 0x1030, [(64, 8)], 0x0, [(0, 64, .sh)]⟩,
  ⟨.et, 0x1038, [(64, 8)], 0x0, [(32, 32, .sh)]⟩,
  ⟨.et, 0x1200, [(8, 8)], 0x0, [(32, 32, .ro), (6, 1, .rws), (5, 1, .rws), (4, 1, .rws), (3, 1, .ro), (2, 1, .ro), (1, 1, .ro), (0, 1, .ro)]⟩,
  ⟨.et, 0x1240, [(8, 8)], 0x0, [(0, 31, .ro)]⟩,
  ⟨.et, 0x1300, [(16, 8)], 0x0, [(63, 1, .wo), (16, 24, .rw)]⟩,
  ⟨.et, 0x1308, [(16, 8)], 0x0, [(0, 61, .rw)]⟩,
  ⟨.et, 0x1380, [(8, 8)], 0x0, [(4, 4, .ro), (0, 2, .ro)]⟩,
  ⟨.mg, 0x3000, [(8, 120)], 0x0, [(48, 16, .ro), (32, 16, .ro), (16, 16, .ro), (1, 1, .ro), (0, 1, .ro)]⟩,
  ⟨.mg, 0x100, [], 0x0, [(5, 1, .rws), (4, 1, .rws), (3, 1, .rws), (2, 1, .rws), (1, 1, .rws), (0, 1, .rws)]⟩,
  ⟨.mg, 0x110, [], 0x0, [(13, 1, .ro), (12, 1, .ro), (11, 1, .ro), (10, 1, .ro), (9, 1, .ro), (8, 1, .ro), (7, 1, .ro), (6, 1, .ro), (5, 1, .ro), (4, 1, .ro), (3, 1, .ro), (2, 1, .ro), (1, 1, .ro), (0, 1, .ro)]⟩,
  ⟨.mg, 0x118, [], 0x0, [(2, 1, .rws), (1, 1, .rws), (0, 1, .rws)]⟩]

/-- The register table. -/
def regTable : List RegRow :=
  regRows1 ++ regRows2 ++ regRows3 ++ regRows4 ++ regRows5 ++ regRows6 ++ regRows7 ++ regRows8

/-- The row of a register number; a number outside the table is a row without fields. -/
def regRow (r : Nat) : RegRow := regTable.getD r ⟨.gl, 0, [], 0, []⟩

/-- The key of a register word: row, unit (cluster, stack, core slot of the device, lodging-free 0) and index. -/
def rkey (r u i : Nat) : Nat := 2 ^ 32 * r + 2 ^ 20 * u + i

/-- R217: the router of each Ethernet port's attachment. -/
def ethRouter (p : Nat) : Nat := [1, 2, 5, 6, 41, 42, 45, 46].getD p 0

/-- R236, Table 8.4: the word of topology entry i of a whole device: the link's ends, kind, lanes and state. -/
def topoReset (i : Nat) : Nat :=
  let mk (st now full kind a b : Nat) : Nat := st + now <<< 16 + full <<< 24 + kind <<< 33 + a <<< 36 + b <<< 42
  if i < 42 then
    let y := i / 7
    let x := i % 7
    let seam := x = 3
    if seam then mk 1 4 4 1 (8 * y + x) (8 * y + x + 1) else mk 1 8 8 0 (8 * y + x) (8 * y + x + 1)
  else if i < 82 then
    let j := i - 42
    let y := j / 8
    let seam := y = 1 ∨ y = 3
    if seam then mk 1 4 4 1 j (j + 8) else mk 1 8 8 0 j (j + 8)
  else if i < 130 then mk 1 8 8 2 (i - 82) 63
  else if i < 138 then mk 1 2 2 3 (ethRouter (i - 130)) 63
  else if i < 140 then mk 1 2 2 4 (if i = 138 then 3 else 44) 63
  else 0

/-- R311: the core map as shipped, six bits short of a word: logical core l in slot 7 * (l div 6) + l mod 6. -/
def coreMapReset (m : Nat) : Nat :=
  (List.range 12).foldl (fun a i =>
    let l := 12 * m + i
    a + (7 * (l / 6) + l % 6) <<< (5 * i)) 0

/-- Table 11.1: MHz and mV of the default frequency steps. -/
def stepDefault (i : Nat) : Nat :=
  let t : List (Nat × Nat) := [(400, 550), (600, 580), (800, 620), (950, 650), (1050, 680), (1150, 710), (1250, 740),
    (1300, 760)]
  let p := t.getD i (0, 0)
  p.1 + p.2 <<< 12

/-- The word a register reads after reset: the Reset column, with what depends on the unit or the index. -/
def regReset (k : Nat) : BitVec 64 :=
  let r := k / 2 ^ 32
  let u := (k / 2 ^ 20) % 2 ^ 12
  let i := k % 2 ^ 20
  if r = rCO_SR_SEED then BitVec.ofNat 64 (u + 1)
  else if r = rGL_TOPOLOGY then BitVec.ofNat 64 (topoReset i)
  else if r = rCL_CORE_MAP then BitVec.ofNat 64 (coreMapReset i)
  else if r = rTM_STEP_TABLE then BitVec.ofNat 64 (1000 <<< 32 + stepDefault i)
  else if r = rTM_FUSE_VF then BitVec.ofNat 64 (stepDefault i)
  else BitVec.ofNat 64 (regRow r).reset

/-- The index an offset into an indexed register names, when every index is in range and nothing is left over. -/
def dimIndex : List (Nat × Nat) → Nat → Option Nat
  | [], o => if o = 0 then some 0 else none
  | (stride, count) :: rest, o =>
    let j := o / stride
    if j < count then
      match dimIndex rest (o % stride) with
      | some k => some (j * (rest.foldl (fun a p => a * p.2) 1) + k)
      | none => none
    else none

/-- The row of a block that holds an offset. Where two indexed registers of Table 12.4 overlap, the one with the
higher base answers (log 12). -/
def findRow (b : Block) (o : Nat) : Option (Nat × Nat) :=
  let go := fun (acc : Nat × Option (Nat × Nat × Nat)) (row : RegRow) =>
    let hit : Option Nat := if row.block = b ∧ row.off ≤ o then dimIndex row.dims (o - row.off) else none
    let best := match acc.2, hit with
      | some (off, _, _), some i => if off < row.off then some (row.off, acc.1, i) else acc.2
      | none, some i => some (row.off, acc.1, i)
      | x, none => x
    (acc.1 + 1, best)
  (regTable.foldl go (0, none)).2.map (fun t => (t.2.1, t.2.2))

/-- R4, Table 0.6: block, unit and register offset of a control-space address. -/
def csBlock (a : Nat) : Option (Block × Nat × Nat) :=
  if a < 0x0F0000000000 ∨ 0x0FFFFFFFFFFF < a then none
  else
    let o := a % 2 ^ 40
    if o < 0x01000000 then some (.gl, 0, o)
    else if o < 0x02000000 then some (.mg, 0, o % 0x01000000)
    else if o < 0x03000000 then some (.tm, 0, o % 0x02000000)
    else if o < 0x04000000 then some (.pw, 0, o % 0x03000000)
    else if o < 0x05000000 then some (.sc, 0, o % 0x04000000)
    else if o < 0x06000000 then some (.et, 0, o % 0x05000000)
    else if o < 0x08000000 then
      let n := o / 0x00100000 - 96
      if n < 12 then some (.hb, n, o % 0x00100000) else none
    else if o < 0x10000000 then some (.nw, 0, o % 0x08000000)
    else
      let n := o / 0x01000000 - 16
      let w := o % 0x01000000
      if 48 ≤ n then none
      else if w < 0x00400000 then some (.cl, n, w)
      else if w < 0x00800000 then some (.sq, n, w % 0x00400000)
      else
        let s := w / 0x00010000 - 128
        if s < 28 then some (.co, n * 28 + s, w % 0x00010000) else none

/-- The register a control-space address names: row, unit, index. -/
def csDecode (a : Nat) : Option (Nat × Nat × Nat) :=
  match csBlock a with
  | none => none
  | some (b, u, o) => (findRow b o).map (fun p => (p.1, u, p.2))

end Sys2Proof.Machine
end

