-- ==== Sys2Proof/Machine/Store.lean ====
section
/-! DEFINITION. The sparse store: one reading and one writing operation for every store of the state and for
memory, and the canonical form they keep; reading and writing of registers, fields and the model's own counters. -/

namespace Sys2Proof.Machine

/-- What a store holds at a key; an unlisted key reads as `d` of it. -/
def mget {V : Type} (d : Nat → V) : SMap V → Nat → V
  | [], k => d k
  | (a, v) :: m, k => if a = k then v else mget d m k

/-- An entry put in its place among rising keys. -/
def mplace {V : Type} : SMap V → Nat → V → SMap V
  | [], k, v => [(k, v)]
  | (a, w) :: m, k, v =>
    if k < a then (k, v) :: (a, w) :: m else if k = a then (k, v) :: m else (a, w) :: mplace m k v

/-- A write that keeps the canonical form: writing what an unlisted key reads as removes the entry. -/
def mput {V : Type} [DecidableEq V] (d : Nat → V) (m : SMap V) (k : Nat) (v : V) : SMap V :=
  if v = d k then m.filter (fun p => p.1 != k) else mplace m k v

/-- The canonical form from a lower bound on: keys rise from there and no entry holds what an unlisted key reads. -/
def mwfFrom {V : Type} [DecidableEq V] (d : Nat → V) : Nat → SMap V → Bool
  | _, [] => true
  | lo, (a, v) :: m => decide (lo ≤ a) && decide (v ≠ d a) && mwfFrom d (a + 1) m

def mwf {V : Type} [DecidableEq V] (d : Nat → V) (m : SMap V) : Bool := mwfFrom d 0 m

/-- The reset values of the plain stores. -/
def zeroN (_ : Nat) : Nat := 0
def zeroW (_ : Nat) : BitVec 64 := 0#64
def zeroL (_ : Nat) : BitVec 32 := 0#32
def zeroB (_ : Nat) : BitVec 8 := 0#8

/-- Reads and writes of a store of numbers that is 0 where nothing is listed. -/
def nget (m : SMap Nat) (k : Nat) : Nat := mget zeroN m k
def nput (m : SMap Nat) (k v : Nat) : SMap Nat := mput zeroN m k v

/-- The canonical form of memory: addresses strictly rising, no listed byte equal to what an unlisted address reads
as, which is 0 (log 5). -/
def Memory.wf (m : List Host.Cell) : Bool := mwf zeroB m

/-- A register word in force. -/
def State.reg (s : State) (r u i : Nat) : BitVec 64 := mget regReset s.regs (rkey r u i)

def State.setReg (s : State) (r u i : Nat) (w : BitVec 64) : State :=
  { s with regs := mput regReset s.regs (rkey r u i) w }

/-- The field of a word, and a word with a field replaced. -/
def fieldOf (lo w x : Nat) : Nat := (x >>> lo) % 2 ^ w

def withField (lo w x v : Nat) : Nat := x - (fieldOf lo w x) <<< lo + (v % 2 ^ w) <<< lo

/-- A field's value in force. -/
def State.fld (s : State) (f : Fld) (u : Nat := 0) (i : Nat := 0) : Nat := fieldOf f.lo f.w (s.reg f.reg u i).toNat

/-- A field written by hardware; the value is taken modulo the field's width. -/
def State.put (s : State) (f : Fld) (u i v : Nat) : State :=
  s.setReg f.reg u i (BitVec.ofNat 64 (withField f.lo f.w (s.reg f.reg u i).toNat v))

/-- Whether a one-bit field is set. -/
def State.is (s : State) (f : Fld) (u : Nat := 0) (i : Nat := 0) : Bool := decide (s.fld f u i ≠ 0)

/-- A sticky bit set by hardware. -/
def State.stick (s : State) (f : Fld) (u : Nat := 0) (i : Nat := 0) : State := s.put f u i 1

/-- A saturating counter advanced by n. -/
def State.sat (s : State) (f : Fld) (u i n : Nat) : State :=
  s.put f u i (min (2 ^ f.w - 1) (s.fld f u i + n))

/-- A wrapping counter advanced by n. -/
def State.wrap (s : State) (f : Fld) (u i n : Nat) : State := s.put f u i (s.fld f u i + n)

/-- The fields of a register with an access code take the word written. -/
def State.writeAcc (s : State) (k : Acc) (r u i : Nat) (w : BitVec 64) : State :=
  (regRow r).fields.foldl (fun t f => if f.2.2 = k then t.put ⟨r, f.1, f.2.1⟩ u i (fieldOf f.1 f.2.1 w.toNat) else t) s

/-- R12: the word written most recently to a register with SH fields and not yet in force. -/
def State.pendingSh (s : State) (k : Nat) : Option (BitVec 64) := (s.sh.find? (fun p => p.1 == k)).map (fun p => p.2)

def State.dropSh (s : State) (k : Nat) : State := { s with sh := s.sh.filter (fun p => p.1 != k) }

def State.holdSh (s : State) (k : Nat) (w : BitVec 64) : State :=
  { s with sh := s.sh.filter (fun p => p.1 != k) ++ [(k, w)] }

/-- R12, R376: the pending word of a register takes effect. -/
def State.takeSh (s : State) (r u i : Nat) : State :=
  match s.pendingSh (rkey r u i) with
  | some w => (s.dropSh (rkey r u i)).writeAcc .sh r u i w
  | none => s

/-- One bit of a field written. -/
def State.putBit (s : State) (f : Fld) (u i b : Nat) (v : Bool) : State :=
  let x := s.fld f u i
  s.put f u i (if v then x ||| 2 ^ b else if x.testBit b then x - 2 ^ b else x)

/-- A use number for a free value, and the state that has used it (log 9). -/
def State.draw (s : State) : Nat × State := (s.fresh, { s with fresh := s.fresh + 1 })

/-- What leaves the block is appended to `out` (log 8). -/
def State.emit (s : State) (k : OutKind) (dst code : Nat) (data : List Nat) : State :=
  { s with out := s.out ++ [⟨k, dst, code, data⟩] }

/-- Site time: the master count (R314). -/
def State.now (s : State) : Nat := s.fld fTM_SITE_NOW_COUNT

/-- A state update made only when a condition holds. -/
def State.when (s : State) (b : Bool) (f : State → State) : State := if b then f s else s

/-- An update made for each element of a list, in order. -/
def State.forEach {A : Type} (s : State) (l : List A) (f : A → State → State) : State := l.foldl (fun t a => f a t) s

end Sys2Proof.Machine
end

