-- ==== Sys2Proof/Machine/Memory.lean ====
section
/-! DEFINITION. Memory (04_core_and_cluster_memories.md R83-R85, 09_hbm_and_translation.md R254, R255): where a
physical address lies, and the one reading and the one writing operation on bytes. HBM bytes are keyed by DRAM
location (stack * 2^36 + stack address), on-package SRAM bytes by their physical-view address, which no HBM key
reaches. -/

namespace Sys2Proof.Machine

/-- Little-endian bytes of a value (R2, R470). -/
def leBytes : Nat → Nat → List (BitVec 8)
  | 0, _ => []
  | n + 1, x => BitVec.ofNat 8 x :: leBytes n (x / 256)

/-- The number little-endian bytes spell. -/
def leNat : List (BitVec 8) → Nat
  | [] => 0
  | b :: l => b.toNat + 256 * leNat l

/-- R255: the DRAM location of a physical HBM address under the mode of its band. -/
def hbmKeyOf (mode : Bool) (a : Nat) : Nat :=
  let b := a / 0x300000000
  let o := a % 0x300000000
  if mode then
    let f := o / 0x80000000
    let j := (o % 0x80000000) / 4096
    2 ^ 36 * (2 * f + j % 2) + (0x40000000 * b + 4096 * (j / 2) + o % 4096)
  else
    let i := o / 4096
    2 ^ 36 * (i % 12) + (0x40000000 * b + 4096 * (i / 12) + o % 4096)

/-- The number of HBM bytes: 768 GiB (R252). -/
def hbmSize : Nat := 0xC000000000

/-- The key of the byte at a device physical address: HBM by DRAM location, SRAM by its own address. -/
def State.byteKey (s : State) (a : Nat) : Nat :=
  if a < hbmSize then hbmKeyOf ((s.fld fGL_BAND_MODE_FIELD_LOCAL).testBit (a / 0x300000000)) a else a

/-- The stack and stack address of a physical HBM address (R255). -/
def State.stackOf (s : State) (a : Nat) : Nat := s.byteKey a / 2 ^ 36
def State.stackAddr (s : State) (a : Nat) : Nat := s.byteKey a % 2 ^ 36

/-- The byte at a device physical address. -/
def State.rd (s : State) (a : Nat) : BitVec 8 := mget zeroB s.mem (s.byteKey a)

/-- The byte at a device physical address written. -/
def State.wr (s : State) (a : Nat) (b : BitVec 8) : State :=
  { s with mem := mput zeroB s.mem (s.byteKey a) b }

/-- n bytes from a device physical address on. -/
def State.physRead (s : State) (a n : Nat) : List (BitVec 8) := (List.range n).map (fun i => s.rd (a + i))

/-- Bytes written from a device physical address on. -/
def State.physWrite (s : State) (a : Nat) : List (BitVec 8) → State
  | [] => s
  | b :: l => (s.wr a b).physWrite (a + 1) l

/-- A little-endian number of n bytes at a physical address. -/
def State.physNat (s : State) (a n : Nat) : Nat := leNat (s.physRead a n)

/-- R85, Table 4.2: bases of the cluster window, of a slot's sub-window in the physical view, of CM. -/
def clWindow (c : Nat) : Nat := 0x010000000000 + 0x10000000 * c
def slotWindow (u : Nat) : Nat := clWindow (u / 28) + 0x02000000 + 0x00200000 * (u % 28)
def wmBase (u : Nat) : Nat := slotWindow u
def amBase (u : Nat) : Nat := slotWindow u + 0x00100000
def pmBase (u : Nat) : Nat := slotWindow u + 0x001C0000
def logicalWindow (c l : Nat) : Nat := clWindow c + 0x08000000 + 0x00200000 * l

/-- The memories of the package. -/
inductive MemKind where
  | wm | am | pm | cm
  deriving DecidableEq, Repr

/-- A place in on-package SRAM: the memory, its unit (slot of the device, or cluster for CM) and the offset in it. -/
structure Place where
  kind : MemKind
  unit : Nat
  off : Nat
  deriving DecidableEq, Repr

/-- The physical-view address of a place. -/
def Place.addr (p : Place) : Nat :=
  match p.kind with
  | .wm => wmBase p.unit + p.off
  | .am => amBase p.unit + p.off
  | .pm => pmBase p.unit + p.off
  | .cm => clWindow p.unit + p.off

/-- The power part of a place (R115): key 4 * slot + q, or 0x10000 + 32 * cluster + bank; PM has none. -/
def Place.part (p : Place) : Option Nat :=
  match p.kind with
  | .wm => some (4 * p.unit + (if p.off < 0x80000 then 0 else 1))
  | .am => some (4 * p.unit + (if p.off < 0x60000 then 2 else 3))
  | .pm => none
  | .cm => some (0x10000 + 32 * p.unit + p.off / 0xC0000)

/-- The first byte of the bank row that holds a place (R83, Table 4.1): rows of 32 B in WM and AM, 4 B in PM, 64 B in
CM, by physical-view address. -/
def Place.row (p : Place) : Nat :=
  let n := match p.kind with
    | .wm => 32
    | .am => 32
    | .pm => 4
    | .cm => 64
  p.addr - p.off % n

def Place.rowSize (p : Place) : Nat :=
  match p.kind with
  | .wm => 32
  | .am => 32
  | .pm => 4
  | .cm => 64

/-- The bank (halves counted on) and the row in the bank of a place (R83, R84, Tables 10.16 and 13.5). -/
def Place.bankRow (p : Place) : Nat × Nat :=
  match p.kind with
  | .wm => (4 * (p.off / 0x80000) + (p.off / 32) % 4, (p.off % 0x80000) / 128)
  | .am => (2 * (p.off / 0x60000) + (p.off / 32) % 2, (p.off % 0x60000) / 64)
  | .pm => (((p.off / 4) % 32) ^^^ (16 * ((p.off / 4096) % 2)), p.off / 128)
  | .cm => (p.off / 0xC0000, (p.off % 0xC0000) / 64)

/-- The sub-unit class of a memory (Table 10.6), 0xFF for CM (Table 10.16). -/
def MemKind.cls : MemKind → Nat
  | .wm => 10
  | .am => 11
  | .pm => 12
  | .cm => 0xFF

/-- R85: the cluster of an address of the cluster windows, 0x0100_0000_0000 + c × 0x1000_0000 on. -/
def clusterAt (a : Nat) : Nat := a / 0x10000000 % 4096

/-- R112, R113: whether an offset lies below the usable top of its part. -/
def State.inCapacity (s : State) (p : Place) : Bool :=
  match p.kind with
  | .wm => if p.off < 0x80000 then decide (p.off < 4096 * s.fld fCO_WM_CAPACITY_HALF0 p.unit)
      else decide (p.off < 0x80000 + 4096 * s.fld fCO_WM_CAPACITY_HALF1 p.unit) && decide (p.off < 0x100000)
  | .am => if p.off < 0x60000 then decide (p.off < 4096 * s.fld fCO_AM_CAPACITY_HALF0 p.unit)
      else decide (p.off < 0x60000 + 4096 * s.fld fCO_AM_CAPACITY_HALF1 p.unit) && decide (p.off < 0xC0000)
  | .pm => decide (p.off < 4096 * s.fld fCO_PM_CAPACITY_TOTAL p.unit) && decide (p.off < 0x30000)
  | .cm =>
    let b := p.off / 0xC0000
    let w := (s.reg rCL_CM_BANK_CAP p.unit (b / 8)).toNat
    decide (b < 32) && decide (p.off % 0xC0000 < 4096 * fieldOf (8 * (b % 8)) 8 w)

end Sys2Proof.Machine
end

