-- ==== Sys2Proof/Machine/Ledger.lean ====
section
/-! DEFINITION. The ledger (10_result_integrity.md R303-R310, R468-R470): unit IDs, outcomes, details, the sources
of TEMP, VOLT and CURR, and the writing, coalescing, overwriting, mirroring and pushing of a record. -/

namespace Sys2Proof.Machine

/-- R305: a unit ID. -/
def unitId (kind cluster slot cls inst : Nat) : Nat :=
  kind <<< 28 + cluster <<< 22 + slot <<< 17 + cls <<< 12 + inst

def unitCore (u cls inst : Nat) : Nat := unitId 0 (u / 28) (u % 28) cls inst
/-- The unit that signals, waits and faults of a core are charged to: its issue logic (DESIGN CHOICE, log 51). -/
def unitIssue (u : Nat) : Nat := unitCore u 7 0
def unitSeq (c : Nat) : Nat := unitId 1 c 31 0 0
def unitRouterUnit (c : Nat) : Nat := unitId 2 c 31 0 0
def unitRouter (r port : Nat) : Nat := unitId 3 r 31 0 port
def unitCl (c bank : Nat) : Nat := unitId 5 c 31 0 bank
def unitStack (n : Nat) : Nat := unitId 6 63 31 0 n
def unitPort (p : Nat) : Nat := unitId 7 63 31 0 p
def unitSched : Nat := unitId 8 63 31 0 0
def unitInn : Nat := unitId 9 63 31 0 0
def unitDomain (d : Nat) : Nat := unitId 10 63 31 0 d
def unitSensor (i : Nat) : Nat := unitId 11 63 31 0 i
def unitHub : Nat := unitId 12 63 31 0 0

/-- The kind, cluster and slot of a unit ID. -/
def unitKind (x : Nat) : Nat := x / 2 ^ 28
def unitCluster (x : Nat) : Nat := (x / 2 ^ 22) % 64
def unitSlot (x : Nat) : Nat := (x / 2 ^ 17) % 32
def unitInst (x : Nat) : Nat := x % 2 ^ 12

/-- The unit ID of a requester (R91). -/
def Rq.unit : Rq → Nat
  | .core u _ => unitCore u 4 0
  | .coreDma u _ => unitCore u 5 0
  | .fetch u => unitCore u 9 0
  | .part u cls _ => unitCore u cls 0
  | .seqDma c _ => unitSeq c
  | .seqFetch c _ => unitSeq c
  | .router c _ => unitRouterUnit c
  | .walker c => unitCl c 0
  | .host _ p => unitPort p
  | .firmware => unitInn
  | .scrubber => unitHub

/-- R180, R304: the command that a record about a request names: the one the request was made for, or else the one whose
program a core runs; none for the uncore's own requests and a host's. -/
def State.originRq (s : State) : Rq → Origin
  | .core _ (some o) => o
  | .core u none => ⟨nget s.core.waybill u, nget s.core.stream u, 0⟩
  | .fetch u => ⟨nget s.core.waybill u, nget s.core.stream u, 0⟩
  | .part _ _ o => o.getD {}
  | .coreDma _ o => o.getD {}
  | .seqDma _ o => o.getD {}
  | .seqFetch _ o => o.getD {}
  | .router _ o => o.getD {}
  | .walker _ => {}
  | .host _ _ => {}
  | .firmware => {}
  | .scrubber => {}

/-- R251, R305: a link, named by its lower-numbered end. -/
def State.unitLink (s : State) (i : Nat) : Nat := unitId 4 (s.fld fGL_TOPOLOGY_END_A 0 i) 31 0 i

/-- The lodging that owns a cluster (14_lodgings_and_security.md, CL_OWNER). -/
def State.ownerOf (s : State) (c : Nat) : Option Nat :=
  if s.is fCL_OWNER_VALID c then some (s.fld fCL_OWNER_LODGING c) else none

/-- The lodging a requester acts for; none for firmware and the scrubber. -/
def State.lodgingOf (s : State) : Rq → Option Nat
  | .core u _ => s.ownerOf (u / 28)
  | .coreDma u _ => s.ownerOf (u / 28)
  | .fetch u => s.ownerOf (u / 28)
  | .part u _ _ => s.ownerOf (u / 28)
  | .seqDma c _ => s.ownerOf c
  | .seqFetch c _ => s.ownerOf c
  | .router c _ => s.ownerOf c
  | .walker c => s.ownerOf c
  | .host l _ => some l
  | .firmware => none
  | .scrubber => none

/-- The requests of firmware, the innkeeper and the scrubber carry the platform tag. -/
def Rq.platform : Rq → Bool
  | .firmware => true
  | .scrubber => true
  | _ => false

/-- Outcomes of Tables 13.12, 14.9, 15.12 and 16.7. -/
def outcomeHigh (e : Nat) : Nat :=
  if e ∈ [0x6003, 0x6008, 0x6105, 0x6202, 0x700B] then 6
  else if e ∈ [0x6004, 0x6005, 0x6006] then 3
  else if e ∈ [0x6201] then 2
  else if e ∈ [0x6106, 0x6203, 0x8003] then 1
  else if e ∈ [0x6104, 0x6204, 0x6206, 0x6209, 0x7001, 0x7004, 0x700C, 0x8002, 0x8004, 0x8005, 0x8006, 0x8007, 0x8012,
    0x8014, 0x8016] then 4
  else 0

/-- R433: the sensors of a cluster, of the SRAM die and of the uncore. -/
def clusterSensors (c : Nat) : List Nat := [2 * c, 2 * c + 1]
def sramSensors : List Nat := (List.range 18).map (· + 96)
def uncoreSensors : List Nat := (List.range 6).map (· + 114)

/-- Tables 10.13 and the outcome columns of Tables 7.4, 8.11, 10.9, 11.5, 12.5, 13.x, 14.x, 15.x and 16.x: the
outcome of an event that has one outcome, or its usual one; a rule that names another passes it. -/
def outcomeOf (e : Nat) : Nat :=
  if e ∈ [0x1011, 0x1019, 0x5203, 0x5205, 0x5210, 0x5302, 0x5303, 0x5304, 0x5306] then 6
  else if e ∈ [0x1015] then 5
  else if e ∈ [0x1012, 0x1013, 0x1014, 0x1016, 0x1021, 0x2106, 0x3003, 0x3004, 0x3007, 0x5202] then 3
  else if e ∈ [0x1001, 0x1002, 0x1003, 0x1004, 0x1005, 0x1006, 0x1007, 0x1008, 0x1009, 0x100A, 0x100B, 0x100C, 0x100D,
    0x1010, 0x1018, 0x2103] then 2
  else if e ∈ [0x2001, 0x2007, 0x2009, 0x2101, 0x2104, 0x3001, 0x3002, 0x3005, 0x3006, 0x300C, 0x5103, 0x5105, 0x5201,
    0x5204, 0x5307] then 1
  else if e ∈ [0x1020, 0x1023, 0x2105, 0x2107, 0x300B, 0x400B, 0x4201, 0x5101, 0x5102, 0x5104, 0x5106, 0x5107, 0x5108,
    0x5206, 0x5207, 0x5208, 0x5209, 0x520A, 0x520B, 0x520C, 0x5301, 0x5305] then 0
  else if e < 0x6000 then 4
  else outcomeHigh e

/-- The highest of a list of sensor readings. -/
def State.hottest (s : State) (l : List Nat) : Nat :=
  l.foldl (fun a i => let t := s.fld fMG_SENSOR_TEMP 0 i
                      if (signed 16 a) < (signed 16 t) then t else a) (2 ^ 15)

/-- R350: Tc of a cluster, the higher of its two sensors that are not ignored; both when both are (R469). -/
def State.tcOf (s : State) (c : Nat) : Nat :=
  let l := (clusterSensors c).filter (fun i => !s.is fMG_SENSOR_IGNORED 0 i)
  s.hottest (if l.isEmpty then clusterSensors c else l)

/-- Table 10.14: temperature of a unit. -/
def State.unitTemp (s : State) (x : Nat) : Nat :=
  let c := unitCluster x
  match unitKind x with
  | 4 =>
    let i := unitInst x
    let a := s.fld fGL_TOPOLOGY_END_A 0 i
    let b := s.fld fGL_TOPOLOGY_END_B 0 i
    let ta := s.tcOf a
    if 47 < b then ta else
      let tb := s.tcOf b
      if signed 16 ta < signed 16 tb then tb else ta
  | 6 => nget s.hbm.temp (unitInst x)
  | 7 => s.hottest uncoreSensors
  | 8 => s.hottest uncoreSensors
  | 9 => s.hottest uncoreSensors
  | 12 => s.hottest uncoreSensors
  | 10 =>
    let d := unitInst x
    if d < 48 then s.tcOf d else if d = 48 then s.hottest uncoreSensors else s.hottest sramSensors
  | 11 => s.fld fMG_SENSOR_TEMP 0 (unitInst x)
  | _ => s.tcOf c

/-- Table 10.14: the power domain whose voltage and current a record of a unit carries; none where none is
measured. -/
def unitDomainOf (event x : Nat) : Option Nat :=
  let c := unitCluster x
  match unitKind x with
  | 0 => some (if (x / 2 ^ 12) % 32 = 10 ∨ (x / 2 ^ 12) % 32 = 11 then 49 else c)
  | 1 => some c
  | 2 => some c
  | 3 => some 48
  | 4 => some 48
  | 5 => some (if event / 0x1000 = 2 then 49 else 48)
  | 7 => some 48
  | 8 => some 48
  | 12 => some 48
  | 10 => some (unitInst x)
  | _ => none

/-- What a rule gives for one record; the rest of the record follows from the state (R304, R469). -/
structure Ev where
  event : Nat
  unit : Nat
  outcome : Nat
  waybill : Nat := 0
  stream : Nat := 0
  lodging : Option Nat := none
  tag : Nat := 0
  flags : Nat := 0
  detail : List (BitVec 8) := []

/-- The 64 bytes of a record (Table 10.4). -/
def recBytes (r : LedgerRec) : List (BitVec 8) :=
  leBytes 8 r.time ++ leBytes 4 r.waybill ++ leBytes 2 r.event ++
    [BitVec.ofNat 8 (r.event / 0x1000 + 16 * r.outcome), BitVec.ofNat 8 r.step] ++ leBytes 4 r.unit ++
    leBytes 2 r.temp ++ leBytes 2 r.volt ++ leBytes 2 r.curr ++ leBytes 2 r.stream ++
    [BitVec.ofNat 8 r.lodging] ++ leBytes 3 r.count ++ [BitVec.ofNat 8 r.flags] ++ leBytes 3 r.tag ++
    (r.detail ++ List.replicate 28 0#8).take 28

/-- The lodging a record names when its rule names none: the owner of the unit's cluster, or that of the stream whose
command the record concerns (R304). -/
def State.unitLodging (s : State) (x way stream : Nat) : Option Nat :=
  if unitKind x ≤ 3 ∨ unitKind x = 5 then s.ownerOf (unitCluster x)
  else if way = 0 then none else some (s.fld fGL_STREAM7_LODGING 0 stream)

/-- The record an event makes in a state. -/
def State.mkRec (s : State) (e : Ev) : LedgerRec :=
  let c := unitCluster e.unit
  let region := if c < 48 then c else 48
  let dom := unitDomainOf e.event e.unit
  let lodg := match e.lodging with
    | some l => some l
    | none => s.unitLodging e.unit e.waybill e.stream
  { time := s.now, waybill := e.waybill, event := e.event, outcome := e.outcome,
    step := s.fld fTM_REGION_STEP_IN_FORCE 0 region, unit := e.unit, temp := s.unitTemp e.unit,
    volt := (dom.map (fun d => s.fld fPW_DOMAIN_CURRENT_MV 0 d)).getD 0,
    curr := (dom.map (fun d => s.fld fPW_DOMAIN_CURRENT_CURRENT 0 d)).getD 0,
    stream := e.stream, lodging := lodg.getD 0xFF, count := 1, flags := e.flags, tag := e.tag,
    detail := e.detail.take 28 }

def noRec (_ : Nat) : Option LedgerRec := none

/-- The record at a ledger index. -/
def State.recAt (s : State) (i : Nat) : Option LedgerRec := mget noRec s.integ.ledger i

/-- R303: a record placed at its index, in the ledger and, while the mirror's BASE is not 0, in the mirror ring. -/
def State.placeRec (s : State) (i : Nat) (r : LedgerRec) : State :=
  let s := { s with integ := { s.integ with ledger := mput noRec s.integ.ledger i (some r) } }
  let base := s.fld fMG_LEDGER_MIRROR_BASE
  if base = 0 then s else s.physWrite (base + 64 * i) (recBytes r)

/-- R439: a record of outcome 3 or higher is pushed to the owner and to the host of the lodging it names. -/
def State.pushTo (s : State) (dst : Nat) : State :=
  let w := s.fld fMG_LEDGER_STATUS_WRITTEN
  let s := s.emit .push dst w []
  { s with mg := { s.mg with pushes := s.mg.pushes ++ [⟨dst, w, 0, s.now⟩] } }

def State.pushRec (s : State) (r : LedgerRec) : State :=
  if r.outcome < 3 then s
  else
    let s := s.when (s.mg.sessions.any (fun x => x.role == 0)) (fun s => s.pushTo 0)
    s.when (s.mg.sessions.any (fun x => x.role == 1 && x.lodging == r.lodging)) (fun s => s.pushTo (1 + r.lodging))

/-- R308: the newest unread record, where a new one coalesces into it. -/
def State.newestLike (s : State) (r : LedgerRec) : Option LedgerRec :=
  let unread := s.fld fMG_LEDGER_STATUS_UNREAD
  if unread = 0 then none
  else match s.recAt ((s.fld fMG_LEDGER_READ_READ + unread + 1023) % 1024) with
    | some q => if q.event = r.event ∧ q.unit = r.unit ∧ q.waybill = r.waybill ∧ r.time ≤ q.time + 250000 then some q
        else none
    | none => none

/-- R304-R308: one record written, coalesced into the newest unread one, or overwriting it when 1,024 are unread. -/
def State.record (s : State) (e : Ev) : State :=
  let r := s.mkRec e
  let unread := s.fld fMG_LEDGER_STATUS_UNREAD
  let read := s.fld fMG_LEDGER_READ_READ
  let newest := (read + unread + 1023) % 1024
  match s.newestLike r with
  | some q => s.placeRec newest { q with count := min 0xFFFFFF (q.count + 1) }
  | none =>
    if 1024 ≤ unread then
      ((((s.placeRec newest r).sat fMG_LEDGER_STATUS_OVERFLOWS 0 0 1).stick fMG_STICKY1_LEDGER_OVERFLOW).wrap
        fMG_LEDGER_STATUS_WRITTEN 0 0 1).pushRec r
    else
      (((s.placeRec ((read + unread) % 1024) r).put fMG_LEDGER_STATUS_UNREAD 0 0 (unread + 1)).wrap
        fMG_LEDGER_STATUS_WRITTEN 0 0 1).pushRec r

/-- A record with the event's own outcome and no command. -/
def State.event (s : State) (e unit : Nat) (detail : List (BitVec 8) := []) : State :=
  s.record { event := e, unit := unit, outcome := outcomeOf e, detail := detail }

/-- An unread record of an event of a unit in the present 1 ms: its index. -/
def State.summaryAt (s : State) (e unit : Nat) : Option Nat :=
  let start := s.fld fMG_LEDGER_READ_READ
  ((List.range (s.fld fMG_LEDGER_STATUS_UNREAD)).map (fun i => (start + i) % 1024)).find? (fun i => match s.recAt i with
    | some r => r.event == e && r.unit == unit && r.time / 250000 == s.now / 250000
    | none => false)

/-- R230, R251, R261, R262, R378: an event of which one record summarises all in each 1 ms of site time, by link, router, stack or cluster, with
a detail of their number. The first of a 1 ms writes it, and each later one counts in it while it is unread (DESIGN CHOICE,
log 52). -/
def State.eventSummed (s : State) (e unit key : Nat) (detail : Nat → List (BitVec 8)) : State :=
  let k := 256 * e + key
  let ms := s.now / 250000 + 1
  if nget s.net.summed k ≠ ms then
    { s with net := { s.net with summed := nput s.net.summed k ms } }.event e unit (detail 1)
  else match s.summaryAt e unit with
    | none => s
    | some i => match s.recAt i with
      | none => s
      | some r =>
        let n := min 0xFFFFFF (r.count + 1)
        s.placeRec i { r with count := n, detail := (detail n).take 28 }

/-- A record with the event's own outcome for the command that a request belongs to (R180). -/
def State.eventRq (s : State) (rq : Rq) (e unit : Nat) (detail : List (BitVec 8) := []) : State :=
  let o := s.originRq rq
  s.record { event := e, unit := unit, outcome := outcomeOf e, waybill := o.way, stream := o.stream, tag := o.tag,
             detail := detail }

/-- A record with the event's own outcome for a lodging. -/
def State.eventL (s : State) (e unit : Nat) (l : Nat) (detail : List (BitVec 8) := []) : State :=
  s.record { event := e, unit := unit, outcome := outcomeOf e, lodging := some l, detail := detail }

/-! ### The runtime defect list and detection storms -/

/-- Table 13.4: a defect entry. -/
def defectWord (kind unit source index : Nat) : Nat := unit <<< 32 + kind <<< 28 + source <<< 25 + index % 2 ^ 24

/-- Whether two entries name the same unit, kind and index, whatever their sources. -/
def sameDefect (a b : Nat) : Bool := a - (fieldOf 25 3 a) <<< 25 == b - (fieldOf 25 3 b) <<< 25

/-- The parts of an entry. -/
def defUnit (w : Nat) : Nat := fieldOf 32 32 w
def defKind (w : Nat) : Nat := fieldOf 28 4 w
def defIndex (w : Nat) : Nat := fieldOf 0 24 w

/-- R111: what is left of a part in 4 KiB units: rows and spares of a bank, stripe, and the defective rows of each bank. -/
def usableUnits (rows spares stripe : Nat) (bad : List Nat) : Nat :=
  let e := bad.foldl (fun a n => max a (n - spares)) 0
  (rows - e) * stripe / 4096

/-- Distinct defective rows of a bank of a memory: of a slot by class and instance, of a cluster's CM by bank. -/
def badRows (u : List Nat) (unit : Nat) : Nat :=
  (((u.filter (fun w => defKind w == 1 && defUnit w == unit)).map defIndex).eraseDups).length

/-- R111: usable sizes of a slot: WM halves 0 and 1, AM halves 0 and 1, PM. -/
def slotSizes (u : List Nat) (x : Nat) : List Nat :=
  let banks := fun (cls lo n : Nat) => (List.range n).map (fun b => badRows u (unitCore x cls (lo + b)))
  [usableUnits 4096 64 128 (banks 10 0 4), usableUnits 4096 64 128 (banks 10 4 4), usableUnits 6144 96 64 (banks 11 0 2),
    usableUnits 6144 96 64 (banks 11 2 2), usableUnits 1536 24 128 (banks 12 0 32)]

/-- R370: a defect entered in the runtime list, or the report that the list is full. -/
def State.listDefect (s : State) (w : Nat) : State :=
  if s.integ.defects.any (sameDefect w) then s
  else if 2048 ≤ s.integ.defects.length then (s.stick fMG_START_STATUS_RUNTIME_FULL).event 0x600D unitInn
  else { s with integ := { s.integ with defects := s.integ.defects ++ [w] } }.put fMG_DEFECT_STATUS_RUNTIME 0 0
    (s.integ.defects.length + 1)

/-- A defect found in service (source 6). -/
def State.addDefect (s : State) (kind unit index : Nat) : State := s.listDefect (defectWord kind unit 6 index)

/-- R299: the dressing runs of some clusters interrupted: they end without a verdict. -/
def State.cutRuns (s : State) (p : Nat → Bool) : State :=
  let f := fun (d : Dressing) => if p (d.u / 28) then { d with cut := true } else d
  { s with integ := { s.integ with dressings := s.integ.dressings.map f } }

/-- R296: a burst's cluster stops its clock: at its next commit, or at once when nothing of it is to commit. -/
def State.stormStop (s : State) (c : Nat) : State :=
  let f := fun (b : Burst) => if b.c = c ∧ !b.held ∧ b.restarted = none then
      { b with held := true, stop := s.now, ceiling := s.fld fTM_REGION_STEP_IN_FORCE 0 c - 1 } else b
  if s.integ.bursts.any (fun b => b.c == c && !b.held && b.restarted == none) then
    (({ s with integ := { s.integ with bursts := s.integ.bursts.map f } }.event 0x1011 (unitCl c 0)).stick
      fMG_STICKY1_STORM).cutRuns (fun x => x == c)
  else s

/-- R297: the replays of the detections that make up a burst, all within the last 1 ms, count toward nothing. -/
def State.stormRevoke (s : State) (c : Nat) : State :=
  let inBurst := fun (u t : Nat) => u / 28 == c && decide (s.now < t + 250000)
  let f := fun (r : Replay) => if inBurst r.u r.since then { r with counts := false } else r
  { s with integ := { s.integ with replaying := s.integ.replaying.map f,
                                   replayTimes := s.integ.replayTimes.filter (fun p => !inBurst p.1 p.2.2) } }

/-- R296: one more datapath or SRAM detection of a cluster; too many within 1 ms arm a burst hold. -/
def State.stormArm (s : State) (c : Nat) : State :=
  let l := s.integ.detMs.filter (fun d => d.1 != c || decide (s.now < d.2 + 250000)) ++ [(c, s.now)]
  let s := { s with integ := { s.integ with detMs := l } }
  let armed := s.integ.bursts.any (fun b => b.c == c && b.restarted == none)
  if (l.filter (fun d => d.1 == c)).length ≤ s.fld fMG_INTEG_CFG_STORM_COUNT ∨ armed then s
  else
    let bs := s.integ.bursts.filter (fun b => b.c != c) ++ [⟨c, false, 0, none, 0⟩]
    { s with integ := { s.integ with bursts := bs } }.stormRevoke c

/-- R282, R283: whether a long instruction has work that has not committed. -/
def opPending (o : LongOp) : Bool := o.steps != [] || o.next.isSome || o.fault.isSome

/-- R296: a burst's cluster with nothing to commit stops at once. -/
def State.stormIdle (s : State) (c : Nat) : State :=
  if s.core.ops.any (fun o => o.u / 28 == c && opPending o) then s else s.stormStop c

def State.stormTick (s : State) (c : Nat) : State := (s.stormArm c).stormIdle c

end Sys2Proof.Machine
end

