-- ==== Sys2Proof/Machine/Ostler.lean ====
section
/-! DEFINITION. The ostler (08_on_die_network.md R237-R244): who is granted in an arbitration phase, who is parked, and the
grants that are held. Every ostler of Table 8.5 works by the same functions. -/

namespace Sys2Proof.Machine

/-- The key of an ostler: kind, unit and index as NW_OSTLER_SEL names them. -/
def ostlerAt (kind unit index : Nat) : Nat := 65536 * kind + 256 * unit + index

def idleOstler (_ : Nat) : Ostler := {}

def State.ostler (s : State) (k : Nat) : Ostler := mget idleOstler s.net.ostlers k

def State.setOstler (s : State) (k : Nat) (o : Ostler) : State :=
  { s with net := { s.net with ostlers := mput idleOstler s.net.ostlers k o } }

/-- R240: N of a kind as it is taken: 4 to 64. -/
def State.everyNth (s : State) (kind : Nat) : Nat := max 4 (min 64 (s.fld fNW_OSTLER_KIND_N 0 kind))

/-- R242, R243: WATCHDOG of a kind as it is taken: at least 256 network cycles. -/
def State.watchdog (s : State) (kind : Nat) : Nat := max 256 (s.fld fNW_OSTLER_KIND_WATCHDOG 0 kind)

/-- R381 step 2: whether a lodging reset has frozen a lodging at the ostlers of kinds 1 to 5. -/
def State.lodgingFrozen (s : State) (kind l : Nat) : Bool :=
  decide (1 ≤ kind) && decide (kind ≤ 5) && s.rst.lodgings.any (fun x => x.l == l && decide (1 ≤ x.phase))

/-- R241: whether an ostler grants nothing to a lodging's requester: FREEZE, or its bit of LODGING_FREEZE. -/
def State.frozen (s : State) (kind unit index : Nat) (l : Option Nat) : Bool :=
  let w := nget s.net.frozen (ostlerAt kind unit index)
  w.testBit 0 || (match l with
    | some l => w.testBit (8 + l) || s.lodgingFrozen kind l
    | none => false)

/-- One and the same requester. -/
def Asker.same (a b : Asker) : Bool := a.cls == b.cls && a.who == b.who

/-- R238: parked before another; ties to the lower class rank, then to the lower requester number. -/
def Asker.before (a b : Asker) : Bool :=
  decide (a.since < b.since) || (a.since == b.since && (decide (a.rank < b.rank) || (a.rank == b.rank && decide (a.who ≤ b.who))))

/-- R238: the requester parked longest ago. -/
def longestParked : List Asker → Option Asker
  | [] => none
  | a :: l => match longestParked l with
    | none => some a
    | some b => some (if a.before b then a else b)

/-- Round robin: the first number at or after a place, or else the lowest. -/
def nextTurn (start : Nat) (l : List Nat) : Nat :=
  match l.filter (fun k => decide (start ≤ k)) with
  | k :: m => m.foldl min k
  | [] => match l with
    | k :: m => m.foldl min k
    | [] => 0

/-- R238: the class whose turn it is: the highest rank that asks, by turns among classes of equal rank. -/
def Ostler.turnClass (o : Ostler) (l : List Asker) : Nat :=
  let top := (l.map Asker.rank).foldl max 0
  nextTurn o.lastCls ((l.filter (fun a => a.rank == top)).map Asker.cls)

/-- R238: the winner within a class: the head of its pending queue, or else the next live requester by turns, or else, where
neither may be granted, the first parked one that may (R241: other lodgings are served as usual; DEDUCED, log 50). -/
def Ostler.turnIn (o : Ostler) (c : Nat) (parked live : List Asker) : Option Asker :=
  let live := live.filter (fun a => a.cls == c)
  let queue := o.parked.filter (fun a => a.cls == c)
  let ready := parked.filter (fun a => a.cls == c)
  let head := (queue.head?.bind (fun h => if ready.any (fun a => a.same h) then some h else none))
  let turn := nextTurn (nget o.turns c) (live.map Asker.who)
  (head.or (live.find? (fun a => a.who == turn))).or ready.head?

/-- R238: who is granted next among the parked and the live requesters that may be granted; `n` is N. -/
def Ostler.choose (o : Ostler) (n : Nat) (parked live : List Asker) : Option Asker :=
  if (o.grants + 1) % n = 0 ∧ parked ≠ [] then longestParked parked
  else match parked ++ live with
    | [] => none
    | l => o.turnIn (o.turnClass l) parked live

/-- R238: a grant made. -/
def Ostler.grant (o : Ostler) (a : Asker) : Ostler :=
  { o with grants := o.grants + 1, parked := o.parked.filter (fun b => !b.same a), turns := nput o.turns a.cls (a.who + 1),
           lastCls := a.cls + 1 }

/-- R239: a requester that lost is parked while its class queue has room. -/
def Ostler.park (o : Ostler) (now : Nat) (a : Asker) : Ostler :=
  if o.parked.any (fun b => b.same a) || decide (16 ≤ (o.parked.filter (fun b => b.cls == a.cls)).length) then o
  else { o with parked := o.parked ++ [{ a with since := now }] }

/-- R239: requesters that no longer want the resource leave at once. -/
def Ostler.leave (o : Ostler) (gone : Asker → Bool) : Ostler := { o with parked := o.parked.filter (fun a => !gone a) }

/-- The grants of one phase, up to k, each to another requester; `ready` may be granted now. -/
def Ostler.grants? (n : Nat) (ready : Asker → Bool) (live : List Asker) : Nat → Ostler → List Asker → Ostler × List Asker
  | 0, o, won => (o, won)
  | k + 1, o, won =>
    let may := fun (a : Asker) => ready a && !won.any (fun b => b.same a)
    let fresh := live.filter (fun a => may a && !o.parked.any (fun b => b.same a))
    match o.choose n (o.parked.filter may) fresh with
    | none => (o, won)
    | some a => Ostler.grants? n ready live k (o.grant a) (won ++ [a])

/-- R238: one arbitration phase of up to k grants: `eligible` requesters compete, those `ready` can be granted now, and an
eligible live one that lost is parked. A phase that can make no grant is skipped. -/
def Ostler.phase (o : Ostler) (n now k : Nat) (eligible ready : Asker → Bool) (live : List Asker) : Ostler × List Asker :=
  let x := Ostler.grants? n (fun a => eligible a && ready a) live k o []
  if x.2 = [] then (o, [])
  else
    let lost := live.filter (fun a => eligible a && !x.2.any (fun b => b.same a))
    (lost.foldl (fun o a => o.park now a) { x.1 with grantAt := now, stalls := 0 }, x.2)

/-- Whether a requester of an ostler is not frozen out (R238, R241). -/
def State.eligible (s : State) (kind unit index : Nat) (a : Asker) : Bool := !s.frozen kind unit index a.lodging

/-- Phases of an ostler whose grants release themselves, until a requester that asks alone has been granted; the first
argument bounds their number. -/
def State.servedGo (kind unit index : Nat) (a : Asker) : Nat → State → State
  | 0, s => s
  | n + 1, s =>
    let k := ostlerAt kind unit index
    let x := (s.ostler k).phase (s.everyNth kind) s.now 1 (s.eligible kind unit index) (fun _ => true) [a]
    let t := s.setOstler k x.1
    if x.2 = [] ∨ x.2.any (fun b => b.same a) then t else State.servedGo kind unit index a n t

/-- R238: a requester asks an ostler and is granted. -/
def State.served (s : State) (kind unit index : Nat) (a : Asker) : State := State.servedGo kind unit index a 64 s

/-- R237: the grants held at an ostler, and how many it may hold at once. -/
def holdLimit (kind : Nat) : Nat := if kind = 2 then 2 else 1

def State.holder? (s : State) (k : Nat) (p : Holding → Bool) : Option Holding := (s.ostler k).holds.find? p

/-- A grant that is held from now on. -/
def State.hold (s : State) (k : Nat) (h : Holding) : State :=
  let o := s.ostler k
  s.setOstler k { o with holds := o.holds ++ [h] }

/-- R237, R242: a held grant released. -/
def State.letGo (s : State) (k : Nat) (h : Holding) : State :=
  let o := s.ostler k
  s.setOstler k { o with holds := o.holds.erase h }

/-! ### Transmission on Ethernet (kind 4) -/

/-- The ostler of a sub-port's transmitter (Tables 8.5 and 8.7). -/
def txOstler (port sub : Nat) : Nat := ostlerAt 4 0 (4 * port + sub)

/-- Table 8.5: a lodging's connection asks in the lodging's class; what Vuveand itself sends, in the management class. -/
def frameAsker (l c : Nat) : Asker := ⟨l, 0, c, some l, 0⟩
def mgmtAsker : Asker := ⟨8, 1, 0, none, 0⟩

/-- R237, R241: whether a sub-port's transmitter grants a frame to a lodging, or to the management: it is not frozen and no
frame holds it. -/
def State.txOpen (s : State) (port sub : Nat) (l : Option Nat) : Bool :=
  !s.frozen 4 0 (4 * port + sub) l && (s.ostler (txOstler port sub)).holds == []

/-- A management frame granted (log 50). -/
def State.mgmtFrame (s : State) (port sub : Nat) : State := s.served 4 0 (4 * port + sub) mgmtAsker

/-- R237: a connection's frame granted, or the frame that holds the transmitter for it released by its last byte. -/
def State.frameGrant (s : State) (rq : Rq) (port sub l c : Nat) : State :=
  match s.holder? (txOstler port sub) (fun h => h.rq == rq && h.op == c) with
  | some h => s.letGo (txOstler port sub) h
  | none => s.served 4 0 (4 * port + sub) (frameAsker l c)

end Sys2Proof.Machine
end

