-- ==== Sys2Proof/Machine/Paths.lean ====
section
/-! DEFINITION. Ways through the on-die network (08_on_die_network.md R216-R229, R236-R241): attachments, routes, whether a
way is open, the input buffers with the messages that stand in them, and a message's passage from router to router. -/

namespace Sys2Proof.Machine

/-! ### Attachments and links -/

/-- R217: the port by which an Ethernet attachment joins its router. -/
def ethPort (p : Nat) : Nat := if p < 4 then 1 else 3

/-- Whether a link carries traffic: up, narrowed or retraining (Table 8.4). -/
def State.linkUp (s : State) (i : Nat) : Bool :=
  let st := s.fld fGL_TOPOLOGY_STATE 0 i
  st == 1 || st == 2 || st == 4

/-- R217: the attachment of the uncore hub used by a router: router, port and link. -/
def State.hubFrom (s : State) (src : Nat) : Nat × Nat × Nat :=
  let open? := fun (r i : Nat) => s.linkUp i && decide (s.fld fNW_ROUTER_STATUS_STATE 0 r < 2)
  let top := if open? 3 138 then src < 24 ∨ ¬ open? 44 139 else src < 24 ∧ ¬ open? 44 139
  if top then (3, 1, 138) else (44, 3, 139)

/-- R217: the router of a front-end group of a stack, or, while that is fenced or off, of its standby attachment. -/
def groupRouter (n g : Nat) : Nat :=
  let f := n / 2
  8 * (2 * (f / 2) + n % 2) + (if f % 2 = 0 then g else 7 - g)

def State.hbmRouter (s : State) (a : Nat) : Nat :=
  let n := s.stackOf a
  let g := (s.stackAddr a / 1024) % 4
  if !s.net.standby.contains (groupRouter n g) then groupRouter n g
  else groupRouter n (if g = 3 then 2 else g + 1)

/-- Tables 8.1 and 8.2, R236: the link at a port of a router, and the unit at its other end. -/
def linkAt (r port : Nat) : Option (Nat × Nat) :=
  let x := r % 8
  let y := r / 8
  let edge := fun (p : Nat) => ((List.range 8).find? (fun q => ethRouter q == r && p == ethPort q)).map
    (fun q => (130 + q, unitPort q))
  match port with
  | 1 => if 0 < y then some (42 + 8 * (y - 1) + x, unitRouter (r - 8) 3) else if r = 3 then some (138, unitHub) else edge 1
  | 2 => if x < 7 then some (7 * y + x, unitRouter (r + 1) 4) else none
  | 3 => if y < 5 then some (42 + r, unitRouter (r + 8) 1) else if r = 44 then some (139, unitHub) else edge 3
  | 4 => if 0 < x then some (7 * y + x - 1, unitRouter (r - 1) 2) else none
  | 5 => some (82 + r, unitStack (4 * (y / 2) + 2 * (x / 4) + y % 2))
  | _ => none

/-! ### Routes -/

/-- R225: the links of a plain route, X first and then Y, by the link numbers of R236. -/
def xLinks (y a b : Nat) : List Nat := (List.range (max a b - min a b)).map (fun k => 7 * y + min a b + k)
def yLinks (x a b : Nat) : List Nat := (List.range (max a b - min a b)).map (fun k => 42 + 8 * (min a b + k) + x)
def plainRoute (a b : Nat) : List Nat := xLinks (a / 8) (a % 8) (b % 8) ++ yLinks (b % 8) (a / 8) (b / 8)

/-- R225: the routers of a plain route, from its source to its destination. -/
def walkLine (a b : Nat) : List Nat :=
  if a ≤ b then (List.range (b - a + 1)).map (fun k => a + k) else (List.range (a - b + 1)).map (fun k => a - k)
def plainRouters (a b : Nat) : List Nat :=
  (walkLine (a % 8) (b % 8)).map (fun x => 8 * (a / 8) + x) ++
    ((walkLine (a / 8) (b / 8)).drop 1).map (fun y => 8 * y + b % 8)

/-- Table 8.1: the port by which a router passes a packet to its neighbour, and the router behind a mesh port with the port
the packet comes in by there. -/
def portTo (a b : Nat) : Nat := if b + 8 = a then 1 else if b = a + 1 then 2 else if b = a + 8 then 3 else 4
def behind (r port : Nat) : Nat × Nat :=
  match port with
  | 1 => (r - 8, 3)
  | 2 => (r + 1, 4)
  | 3 => (r + 8, 1)
  | _ => (r - 1, 2)

/-- The outputs of a route in one phase: router, port and phase, ending with the port of the destination. -/
def outputs (phase last : Nat) : List Nat → List (Nat × Nat × Nat)
  | [] => []
  | [r] => [(r, last, phase)]
  | r :: q :: l => (r, portTo r q, phase) :: outputs phase last (q :: l)

/-- R226: the detour entry of a router for a destination: the lowest-numbered valid one of the active bank. -/
def State.detour (s : State) (r d : Nat) : Option (BitVec 64) :=
  let bank := 2 * r + s.fld fNW_TOPO_CTRL_ACTIVE_BANK
  (s.regs.find? (fun p => p.1 / 2 ^ 32 == rNW_DETOUR && p.1 % 2 ^ 20 / 64 == bank && p.2.getLsbD 63 &&
    fieldOf 0 6 p.2.toNat == d)).map (fun p => p.2)

/-- R225, R226: the intermediate router of a route, where the source's detour table names one. -/
def State.viaOf (s : State) (src dst : Nat) : Option Nat :=
  match s.detour src dst with
  | none => none
  | some w =>
    let via := fieldOf 8 6 w.toNat
    if via = src ∨ via = dst then none else some via

/-- R225, R226: the outputs a packet takes from a router to a port of another: phase 0, and phase 1 from VIA on. -/
def State.outputsOf (s : State) (src dst last : Nat) : List (Nat × Nat × Nat) :=
  match s.viaOf src dst with
  | none => outputs 0 last (plainRouters src dst)
  | some via => (outputs 0 0 (plainRouters src via)).dropLast ++ outputs 1 last (plainRouters via dst)

/-- R225, R226: the links of the route from a router to another. -/
def State.linksTo (s : State) (src dst : Nat) : List Nat :=
  match s.viaOf src dst with
  | none => plainRoute src dst
  | some via => plainRoute src via ++ plainRoute via dst

/-- R226: whether the source's table declares a destination unreachable. -/
def State.declaredUnreach (s : State) (src dst : Nat) : Bool :=
  match s.detour src dst with
  | some w => w.getLsbD 62
  | none => false

/-- R226, R227, R229, R232: how a packet gets from a router to another: 0 the way is open, 1 unreachable, 2 waiting, for the
next switch of routing tables because a link on the way has gone since the last one, or for the retraining of one. `ends` are
the attachment links of its source and of its destination. -/
def State.reach (s : State) (src dst : Nat) (ends : List Nat) : Nat :=
  if src = dst ∧ ends = [] then 0
  else if s.declaredUnreach src dst then 1
  else
    let path := s.linksTo src dst ++ ends
    let bad := path.filter (fun i => !s.linkUp i)
    if bad = [] then (if path.any (fun i => s.fld fGL_TOPOLOGY_STATE 0 i == 4) then 2 else 0)
    else if bad.any (fun i => s.net.cut.contains i) then 2 else 1

/-! ### The input buffers (R221) -/

/-- The virtual networks by rank (Table 8.6): REQ, SIG and RSP in phase 0. -/
def rankREQ : Nat := 1
def rankSIG : Nat := 3
def rankRSP : Nat := 5

/-- Messages in the network: the list they stand in (0 signals, 1 waits, 2 grants, 3 acknowledgements, 4 REDUCE_ADD flits),
the place in it, their lodging, and where they are. -/
structure Msg where
  list : Nat
  ix : Nat
  lodging : Option Nat
  pos : Pos
  deriving DecidableEq, Repr

/-- Table 8.6: the rank of the network a message travels in, in phase 0. -/
def Msg.net (m : Msg) : Nat := if m.list = 3 then rankRSP else if m.list = 4 then rankREQ else rankSIG

def msgsOf {A : Type} (list : Nat) (l : List A) (pos : A → Option Pos) (lodging : A → Option Nat) : List Msg :=
  l.zipIdx.filterMap (fun x => (pos x.1).map (fun p => ⟨list, x.2, lodging x.1, p⟩))

/-- The lodging of a waiter. -/
def State.waiterLodging (s : State) (seq : Bool) (who : Nat) : Option Nat := s.ownerOf (if seq then who / 16 else who / 28)

/-- Every message that has entered the network. -/
def State.traffic (s : State) : List Msg :=
  msgsOf 0 s.net.signals SemSig.pos (fun g => some g.lodging) ++
    msgsOf 1 s.net.waitMsgs SemWait.pos (fun w => s.waiterLodging w.seq w.who) ++
    msgsOf 2 s.net.grants SemGrant.pos (fun g => s.ownerOf (g.sem / 256)) ++
    msgsOf 3 s.net.resps Resp.pos (fun r => s.lodgingOf r.rq) ++
    msgsOf 4 s.net.flits RedFlit.pos (fun f => some f.lodging)

def State.msgAt (s : State) (list ix : Nat) : Option Msg := s.traffic.find? (fun m => m.list == list && m.ix == ix)

/-- An element of a list replaced. -/
def setAt {A : Type} (l : List A) (i : Nat) (f : A → A) : List A := l.modify i f

/-- A message put somewhere. -/
def State.putMsg (s : State) (list ix : Nat) (p : Option Pos) : State :=
  match list with
  | 0 => { s with net := { s.net with signals := setAt s.net.signals ix (fun g => { g with pos := p }) } }
  | 1 => { s with net := { s.net with waitMsgs := setAt s.net.waitMsgs ix (fun g => { g with pos := p }) } }
  | 2 => { s with net := { s.net with grants := setAt s.net.grants ix (fun g => { g with pos := p }) } }
  | 3 => { s with net := { s.net with resps := setAt s.net.resps ix (fun g => { g with pos := p }) } }
  | 4 => { s with net := { s.net with flits := setAt s.net.flits ix (fun g => { g with pos := p }) } }
  | _ => s

/-- R221: whether a message stands in the input buffer of a router's port for a network and a phase. -/
def Msg.inBuffer (m : Msg) (r inp net phase : Nat) : Bool :=
  m.pos.lot == 0 && m.pos.here == r && m.pos.inp == inp && m.net == net && (m.pos.hops.head?.map (fun h => h.2.2)) == some phase

/-- R221: whether an input buffer has a free place of its 16. -/
def State.room (s : State) (r inp net phase : Nat) : Bool :=
  decide ((s.traffic.filter (fun m => m.inBuffer r inp net phase)).length < 16)

/-- R219, R232: whether an output's link takes flits: it is in service and does not retrain; P0 has none. -/
def State.outputUp (s : State) (r port : Nat) : Bool :=
  if port = 0 then true
  else match linkAt r port with
    | some (i, _) => s.linkUp i && s.fld fGL_TOPOLOGY_STATE 0 i != 4
    | none => false

/-- R221: whether the router behind an output has signalled a free place in the buffer a flit will enter; an endpoint takes
what comes. `next` are the outputs after it. -/
def State.credit (s : State) (r port net : Nat) (next : List (Nat × Nat × Nat)) : Bool :=
  match next with
  | [] => true
  | h :: _ => s.room (behind r port).1 (behind r port).2 net h.2.2

/-- R235, R241: whether an output port's ostler grants nothing to a lodging: it is frozen, or its router drains. -/
def State.outputFrozen (s : State) (r port : Nat) (l : Option Nat) : Bool :=
  s.frozen 0 r port l || s.fld fNW_ROUTER_STATUS_STATE 0 r == 1

/-- The asker an input buffer is at an output port (R238): its class by network and phase, its number by the input port. -/
def bufferAsker (net phase inp : Nat) (l : Option Nat) : Asker := ⟨net + phase, net + phase, inp, l, 0⟩

/-- The buffers with a flit for an output port, each for the first such flit. -/
def State.waitingAt (s : State) (r port : Nat) : List (Asker × Msg) :=
  s.traffic.filterMap (fun m => match m.pos.hops with
    | h :: _ => if m.pos.lot = 0 ∧ m.pos.here = r ∧ h.2.1 = port then some (bufferAsker m.net h.2.2 m.pos.inp m.lodging, m)
        else none
    | [] => none)

/-- R237: grants an output port can make in a network cycle: LANES_NOW of its link, 8 at P0 (Table 8.3). -/
def State.lanesAt (s : State) (r port : Nat) : Nat :=
  match linkAt r port with
  | some (i, _) => max 1 (s.fld fGL_TOPOLOGY_LANES_NOW 0 i)
  | none => 8

/-- A message one hop on: into the next router's buffer, or out at its last port. -/
def State.hop (s : State) (m : Msg) : State :=
  match m.pos.hops with
  | h :: next =>
    let b := behind h.1 h.2.1
    s.putMsg m.list m.ix (some (if next = [] then { m.pos with hops := [] } else ⟨b.1, b.2, next, 0⟩))
  | [] => s

/-- R224, R238: one arbitration phase of an output port: the winning buffers' first flits go on. `extra` asks as well, and is
not a buffer of the state. -/
def State.portPhase (s : State) (r port : Nat) (extra : List Asker) : State × List Asker :=
  let k := ostlerAt 0 r port
  let wait := s.waitingAt r port
  let may := fun (a : Asker) => !s.outputFrozen r port a.lodging && s.outputUp r port
  let ready := fun (a : Asker) => extra.any (fun b => b.same a) ||
    wait.any (fun w => w.1.same a && s.credit r port w.2.net (w.2.pos.hops.drop 1))
  let x := (s.ostler k).phase (s.everyNth 0) s.now (s.lanesAt r port) may ready (wait.map Prod.fst ++ extra)
  let s := s.setOstler k x.1
  let go := x.2.filterMap (fun a => if extra.any (fun b => b.same a) then none
    else (wait.find? (fun w => w.1.same a && s.credit r port w.2.net (w.2.pos.hops.drop 1))).map Prod.snd)
  (s.forEach go (fun m s => s.hop m), x.2)

/-- A request or an answer that stands in no buffer passes an output port: phases until it has been granted. -/
def State.passPort (a : Asker) (r port : Nat) : Nat → State → State
  | 0, s => s
  | n + 1, s =>
    let x := s.portPhase r port [a]
    if x.2 = [] ∨ x.2.any (fun b => b.same a) then x.1 else State.passPort a r port n x.1

/-- A packet that goes its whole way at once: a grant at every output (R224). -/
def State.crossGo (net : Nat) (l : Option Nat) : Nat → List (Nat × Nat × Nat) → State → State
  | _, [], s => s
  | inp, h :: next, s =>
    State.crossGo net l (behind h.1 h.2.1).2 next (State.passPort (bufferAsker net h.2.2 inp l) h.1 h.2.1 64 s)

def State.cross (s : State) (net : Nat) (l : Option Nat) (src inp dst last : Nat) : State :=
  if src = dst ∧ inp = last then s else State.crossGo net l inp (s.outputsOf src dst last) s

/-- R221, R235, R241: whether a request can go its whole way at once: no output on it is frozen, and every buffer has room. -/
def State.wayClear (s : State) (net : Nat) (l : Option Nat) (src inp dst last : Nat) : Bool :=
  let way := s.outputsOf src dst last
  (src == dst && inp == last) || way.zipIdx.all (fun x =>
    !s.outputFrozen x.1.1 x.1.2.1 l && (x.2 != 0 || s.room src inp net 0) && s.credit x.1.1 x.1.2.1 net (way.drop (x.2 + 1)))

/-! ### A message's passage -/

/-- A message goes on until it has arrived or something stops it: a frozen or retraining output, or no free place beyond it.
The first argument bounds the phases. -/
def State.journey (list ix : Nat) : Nat → State → State
  | 0, s => s
  | n + 1, s => match s.msgAt list ix with
    | none => s
    | some m => match m.pos.hops with
      | [] => s
      | h :: _ =>
        let x := s.portPhase h.1 h.2.1 []
        if m.pos.lot ≠ 0 ∨ x.2 = [] then s else State.journey list ix n x.1

/-- R219: hops of the longest way, phases at each bounded by the buffers of a port. -/
def journeyFuel : Nat := 30 * 64

/-- R225: a message enters the network at a router's port, its route chosen by that router's table, once the buffer has
room. -/
def State.enterNet (s : State) (list ix net src inp dst last : Nat) : State :=
  if s.room src inp net 0 then s.putMsg list ix (some ⟨src, inp, s.outputsOf src dst last, 0⟩) else s

/-- R229: whether a message can go no further until the routing tables lead it elsewhere, which they no longer do: its output is of
no use, and was not at the last switch either. -/
def State.cutOff (s : State) (m : Msg) : Bool :=
  m.pos.lot == 3 || (m.pos.lot == 0 && (match m.pos.hops with
    | [] => false
    | h :: _ => h.2.1 != 0 && (match linkAt h.1 h.2.1 with
      | some (i, _) => !s.linkUp i && !s.net.cut.contains i
      | none => true)))

/-- What has become of a message: 0 it is at its destination, 1 unreachable, 2 on its way. -/
def State.fate (s : State) (list ix : Nat) : Nat :=
  match s.msgAt list ix with
  | some m => if s.cutOff m then 1 else if m.pos.hops.isEmpty && m.pos.lot == 0 then 0 else 2
  | none => 2

/-- Every message in the network put where `f` says. -/
def State.mapPos (s : State) (f : Pos → Pos) : State :=
  let n := s.net
  { s with net := { n with signals := n.signals.map (fun g => { g with pos := g.pos.map f }),
                           waitMsgs := n.waitMsgs.map (fun g => { g with pos := g.pos.map f }),
                           grants := n.grants.map (fun g => { g with pos := g.pos.map f }),
                           resps := n.resps.map (fun g => { g with pos := g.pos.map f }),
                           flits := n.flits.map (fun g => { g with pos := g.pos.map f }) } }

/-- R229: the messages queued for an output whose link has gone move into their routers' stranded buffers. -/
def State.strand (s : State) (i : Nat) : State :=
  s.mapPos (fun p => match p.hops with
    | h :: _ => if p.lot = 0 ∧ (linkAt h.1 h.2.1).any (fun x => x.1 == i) then { p with lot := 1 } else p
    | [] => p)

/-- R229: a stranded message is routed from its router on, by that router's new table. -/
def State.rejoin (s : State) (p : Pos) : Pos :=
  match p.lot, p.hops.getLast? with
  | 1, some h =>
    if s.declaredUnreach p.here h.1 then { p with lot := 3 }
    else { p with hops := s.outputsOf p.here h.1 h.2.1, lot := 0 }
  | _, _ => p

def State.rejoinAll (s : State) : State := s.mapPos s.rejoin

/-- R233, R235: what stood at a router that is fenced or switched off is lost: messages, and the sums in its reduction buffer. -/
def State.loseAt (s : State) (r : Nat) : State :=
  let gone := fun (p : Option Pos) => p.any (fun p => p.here == r && p.lot != 2 && !p.hops.isEmpty)
  let n := s.net
  let net := { n with signals := n.signals.filter (fun g => !gone g.pos), waitMsgs := n.waitMsgs.filter (fun g => !gone g.pos),
                      grants := n.grants.filter (fun g => !gone g.pos),
                      reds := n.reds.map (fun e => if e.router = r then { e with lost := true } else e) }
  { s with net := net }.mapPos (fun p => if p.here = r ∧ p.hops ≠ [] then { p with lot := 2 } else p)

/-- R220, R221: a message sent as far as it gets: 0 it is at its destination, 1 that is unreachable, 2 it is on its way. `ends` are
the attachment links of its ends. -/
def State.travel (s : State) (list ix net src inp dst last : Nat) (ends : List Nat) : Nat × State :=
  match s.msgAt list ix with
  | some _ =>
    let t := State.journey list ix journeyFuel s
    (t.fate list ix, t)
  | none =>
    if src = dst ∧ inp = last then (0, s)
    else match s.reach src dst ends with
      | 1 => (1, s)
      | _ =>
        let t := State.journey list ix journeyFuel (s.enterNet list ix net src inp dst last)
        (t.fate list ix, t)

/-- One output further: whether the message has taken it. -/
def State.oneHop (list ix : Nat) : Nat → State → Bool × State
  | 0, s => (false, s)
  | n + 1, s => match s.msgAt list ix with
    | none => (false, s)
    | some m => match m.pos.hops with
      | [] => (false, s)
      | h :: _ =>
        let x := s.portPhase h.1 h.2.1 []
        if m.pos.lot ≠ 0 ∨ x.2 = [] then (false, s)
        else if (x.1.msgAt list ix).map Msg.pos = some m.pos then State.oneHop list ix n x.1 else (true, x.1)

/-! ### Requests -/

/-- R216, R217: where the requests of a requester enter the network on their way to a router: router, port, and the
attachment's link. -/
def State.entryOf (s : State) (rq : Rq) (dst : Nat) : Nat × Nat × List Nat :=
  match rq with
  | .core u _ => (u / 28, 0, [])
  | .coreDma u _ => (u / 28, 0, [])
  | .fetch u => (u / 28, 0, [])
  | .part u _ _ => (u / 28, 0, [])
  | .seqDma c _ => (c, 0, [])
  | .seqFetch c _ => (c, 0, [])
  | .router c _ => (c, 0, [])
  | .walker c => (c, 0, [])
  | .host _ p => (ethRouter p, ethPort p, [130 + p])
  | .firmware => let h := s.hubFrom dst; (h.1, h.2.1, [h.2.2])
  | .scrubber => let h := s.hubFrom dst; (h.1, h.2.1, [h.2.2])

/-- How a request gets to a port of a router: 0 sent, 1 unreachable, 2 waiting. -/
def State.reachTo (s : State) (rq : Rq) (dst last : Nat) (ends : List Nat) : Nat :=
  let e := s.entryOf rq dst
  if e.1 = dst ∧ e.2.1 = last then 0
  else match s.reach e.1 dst (e.2.2 ++ ends) with
    | 0 => if s.wayClear rankREQ (s.lodgingOf rq) e.1 e.2.1 dst last then 0 else 2
    | n => n

/-- A request's way to a port of a router, and its answer's way back where that comes at once. -/
def State.crossed (s : State) (rq : Rq) (dst last : Nat) (back : Bool) : State :=
  let e := s.entryOf rq dst
  let l := s.lodgingOf rq
  (s.cross rankREQ l e.1 e.2.1 dst last).when back (fun s => s.cross rankRSP l dst last e.1 e.2.1)

end Sys2Proof.Machine
end

