-- ==== Sys2Proof/Machine/Access.lean ====
section
/-! DEFINITION. Accesses (04_core_and_cluster_memories.md R85-R97, R109-R117, 09_hbm_and_translation.md R266-R270,
10_result_integrity.md R280, R281, 14_lodgings_and_security.md R387, R388): where a request goes, what refuses it, and
the one reading and the one writing of bytes through all checks. -/

namespace Sys2Proof.Machine

/-- What an access comes to: its result, an error response with the event recorded, or a request that is held and has
not been served yet (a takeover, a reset, a frozen front end: R86, R260, R379). -/
inductive Got (A : Type) where
  | ok (v : A)
  | err (event : Nat)
  | held
  deriving DecidableEq, Repr

/-- R288, R294: a fenced cluster. -/
def State.clusterFenced (s : State) (c : Nat) : Bool := nget s.integ.clusterFenced c != 0

/-- R294, R296, R351, R352: whether a cluster's compute clock stands. -/
def State.clockStopped (s : State) (c : Nat) : Bool :=
  s.clusterFenced c || s.integ.bursts.any (fun b => b.c == c && b.held) || nget s.pw.thermStop c != 0 || s.pw.stopped

/-- R343, R353: gangs paused; when a cap cannot be reached one gang of each lodging runs at a time, in an order of time. -/
def State.gangPaused (s : State) : Bool := s.pw.gangPause && !s.pw.unreachable

/-- R311: the slot of a logical core; 31 stands for an absent one. -/
def State.slotOf (s : State) (c l : Nat) : Nat :=
  fieldOf (5 * (l % 12)) 5 (s.reg rCL_CORE_MAP c (l / 12)).toNat

/-- R311: the logical core a slot of the device holds, 31 for none. -/
def State.logicalOf (s : State) (u : Nat) : Nat :=
  ((List.range 24).find? (fun l => s.slotOf (u / 28) l == u % 28)).getD 31

/-- R115-R117: 0 served, 1 gate closing, 2 off or powering up. -/
def State.partState (s : State) (k : Nat) : Nat :=
  let on := if k < 0x10000 then (s.fld fCO_MEM_POWER_STATE (k / 4)).testBit (k % 4)
    else (s.fld fCL_CM_POWER_STATE_STATE (k / 32 - 2048)).testBit (k % 32)
  let pend := if k < 0x10000 then (s.fld fCO_MEM_POWER_PENDING (k / 4)).testBit (k % 4)
    else (s.fld fCL_CM_POWER_STATE_PENDING (k / 32 - 2048)).testBit (k % 32)
  if pend && nget s.ms.powerDir k == 1 then 1 else if on && !pend then 0 else 2

/-- The event that refuses a request to a place: above the usable top (R88), gate closed (R116), off or powering up
(R116, R117). -/
def State.placeEvent (s : State) (p : Place) : Option Nat :=
  if !s.inCapacity p then some 0x2002
  else match p.part with
    | none => none
    | some k => match s.partState k with
      | 0 => none
      | 1 => some 0x2004
      | _ => some 0x2003

/-- Place of an offset in a core sub-window; none for the unmapped top (R85). -/
def placeInCore (u o : Nat) : Option Place :=
  if o < 0x100000 then some ⟨.wm, u, o⟩
  else if o < 0x1C0000 then some ⟨.am, u, o % 0x100000⟩
  else if o < 0x1F0000 then some ⟨.pm, u, o % 0x1C0000⟩
  else none

/-- Whether a slot's memories hold requests back: a takeover or swap of its logical core, or a core reset (R86,
R379). -/
def State.slotHeld (s : State) (u : Nat) : Bool :=
  s.rst.cores.contains u || s.integ.takeovers.any (fun t => t.c == u / 28 && (t.old == u % 28 || t.new == u % 28)) ||
    s.integ.dressings.any (fun d => d.u == u && d.leased.isSome)

/-- Whether a cluster holds requests back: a cluster reset (R380). -/
def State.clusterHeld (s : State) (c : Nat) : Bool := s.rst.clusters.any (fun p => p.1 == c)

/-- R86, R91: an access of a core's load-store or DMA unit to its own sub-window is local. -/
def Rq.slot : Rq → Option Nat
  | .core u _ => some u
  | .coreDma u _ => some u
  | .fetch u => some u
  | .part u _ _ => some u
  | _ => none

/-- What decoding and checks make of an on-package SRAM address: a place, or the refusing event with the unit and the
place's slot or cluster, or a request held. -/
inductive Look where
  | ok (p : Place)
  | bad (event unit : Nat) (slot : Option Nat) (c : Nat)
  | held
  deriving DecidableEq, Repr

/-- R305: the unit ID of the bank that holds a place. -/
def placeUnit (p : Place) : Nat :=
  match p.kind with
  | .cm => unitCl p.unit p.bankRow.1
  | k => unitCore p.unit k.cls p.bankRow.1

/-- R111: the n-th row that is not among the defective ones. -/
def goodRow (bad : List Nat) (n : Nat) : Nat :=
  bad.foldl (fun k _ => n + (bad.filter (fun b => decide (b ≤ k))).length) (n + (bad.filter (fun b => decide (b ≤ n))).length)

/-- R111: the physical row of a place in its bank: the bank's logical rows lie in ascending order on its good rows, its spare
rows after the ordinary ones. -/
def State.physRow (s : State) (p : Place) : Nat :=
  goodRow ((s.ms.mapped.filter (fun w => fieldOf 28 4 w == 1 && fieldOf 32 32 w == placeUnit p)).map (fieldOf 0 24)).eraseDups
    p.bankRow.2

/-- The cluster a place lies in. -/
def Place.cluster (p : Place) : Nat :=
  match p.kind with
  | .cm => p.unit
  | _ => p.unit / 28

def Place.slot? (p : Place) : Option Nat :=
  match p.kind with
  | .cm => none
  | _ => some p.unit

/-- Checks of a place: capacity and power. -/
def State.lookPlace (s : State) (p : Place) : Look :=
  match s.placeEvent p with
  | some e => .bad e (placeUnit p) p.slot? p.cluster
  | none => .ok p

/-- R388: whether a cluster interface takes a request: the platform tag, or the tag of its owner while VALID is 1 and
LEAVING is 0. -/
def State.admits (s : State) (c : Nat) (rq : Rq) : Bool :=
  rq.platform || (s.is fCL_OWNER_VALID c && !s.is fCL_OWNER_LEAVING c && s.lodgingOf rq == some (s.fld fCL_OWNER_LODGING c))

/-- R381 step 1: whether a lodging reset has stopped a cluster's cores, DMA and sequencer. -/
def State.lodgingHalted (s : State) (c : Nat) : Bool := s.rst.lodgings.any (fun x => s.ownerOf c == some x.l)

/-- R380, R381: whether a cluster or lodging reset keeps a slot of the device from issuing. -/
def State.coreHalted (s : State) (u : Nat) : Bool := s.clusterHeld (u / 28) || s.lodgingHalted (u / 28)

/-- R86: whether an address is in a core's own logical sub-window: its access is local and does not enter the network. -/
def State.ownAccess (s : State) (rq : Rq) (a : Nat) : Bool :=
  let c := clusterAt a
  let o := a % 0x10000000
  decide (0x010000000000 ≤ a) && decide (0x0800_0000 ≤ o) && decide (o < 0x0B00_0000) &&
    (let k := s.slotOf c (o / 0x200000 - 64)
     k != 31 && rq.slot == some (c * 28 + k))

/-- R85-R88, R388: an address of the cluster windows. The record of a refused offset of a core sub-window that names no memory
(R85) carries the slot's load-store unit, class 4 (DESIGN CHOICE, log 51). -/
def State.locate (s : State) (rq : Rq) (a : Nat) : Look :=
  let c := clusterAt a
  let o := a % 0x10000000
  let core (u x : Nat) : Look :=
    match placeInCore u x with
    | none => .bad 0x2002 (unitCore u 4 0) (some u) c
    | some p => if s.slotHeld u then .held else s.lookPlace p
  if 0x0580_0000 ≤ o ∧ o < 0x0800_0000 ∨ 0x0B00_0000 ≤ o ∨ (0x0180_0000 ≤ o ∧ o < 0x0200_0000) then
    if s.admits c rq then .bad 0x2002 (unitCl c 0) none c else .bad 0x7001 (unitCl c 0) none c
  else
    let lslot : Nat := if 0x0800_0000 ≤ o then s.slotOf c (o / 0x200000 - 64) else 31
    let own : Bool := lslot != 31 && rq.slot == some (c * 28 + lslot)
    if own then
      match placeInCore (c * 28 + lslot) (o % 0x200000) with
      | none => .bad 0x2002 (unitCore (c * 28 + lslot) 4 0) (some (c * 28 + lslot)) c
      | some p => s.lookPlace p
    else if !s.admits c rq then .bad 0x7001 (unitCl c 0) none c
    else if s.clusterFenced c then .bad 0x3009 (unitCl c 0) none c
    else if s.clusterHeld c then .held
    else if o < 0x0180_0000 then
      if s.frozen 1 c (o / 0xC0000) (s.lodgingOf rq) then .held else s.lookPlace ⟨.cm, c, o⟩
    else if o < 0x0800_0000 then
      if rq.platform then core (c * 28 + (o / 0x200000 - 16)) (o % 0x200000)
      else .bad 0x2006 (unitCl c 0) none c
    else if lslot = 31 then .bad 0x2006 (unitCl c 0) none c
    else if s.integ.takeovers.any (fun t => t.c == c && t.l == o / 0x200000 - 64) then .held
    else core (c * 28 + lslot) (o % 0x200000)

/-- R122: the status bit an event of the memory system sets. -/
def State.memStatus (s : State) (e : Nat) (slot : Option Nat) (c : Nat) : State :=
  match slot, e with
  | some u, 0x2001 => s.stick fCO_MEM_STATUS_PARITY u
  | some u, 0x2002 => s.stick fCO_MEM_STATUS_RANGE_REFUSED u
  | some u, 0x2003 => s.stick fCO_MEM_STATUS_POWERED_OFF_ACCESS u
  | some u, 0x2004 => s.stick fCO_MEM_STATUS_LATE_WRITE u
  | some u, 0x2005 => s.stick fCO_MEM_STATUS_TRANSPOSE_REFUSED u
  | none, 0x2001 => s.stick fCL_MEM_STATUS_PARITY c
  | none, 0x2002 => s.stick fCL_MEM_STATUS_RANGE_REFUSED c
  | none, 0x2003 => s.stick fCL_MEM_STATUS_POWERED_OFF_ACCESS c
  | none, 0x2004 => s.stick fCL_MEM_STATUS_LATE_WRITE c
  | none, 0x2005 => s.stick fCL_MEM_STATUS_TRANSPOSE_REFUSED c
  | none, 0x2006 => s.stick fCL_MEM_STATUS_ABSENT_CORE c
  | _, _ => s

/-- R388, R389, Table 14.6: a refused access counted in SC_STATUS. -/
def State.secRefused (s : State) : State := (s.stick fSC_STATUS_ACCESS_REFUSED).sat fSC_STATUS_REFUSED 0 0 1

/-- R88, R123, R388, R470: a refused request: status bit, record, error response. -/
def State.refuse (s : State) (rq : Rq) (e unit : Nat) (slot : Option Nat) (c a : Nat) : State :=
  let l := s.lodgingOf rq
  let d := if e = 0x7001 then BitVec.ofNat 8 (l.getD 0xFF) :: leBytes 8 a
    else if e < 0x2008 then leBytes 8 a ++ leBytes 4 rq.unit else []
  let who := if e = 0x7001 then some (l.getD 0xFF) else none
  let o := s.originRq rq
  let ev : Ev := { event := e, unit := unit, outcome := outcomeOf e, waybill := o.way, stream := o.stream, tag := o.tag,
                   lodging := who, detail := d }
  (((s.memStatus e slot c).when (e == 0x7001) State.secRefused).record ev).emit .errorResponse rq.unit e [a]

/-- R281: whether a row overlapping bytes lo to hi - 1 is poisoned. -/
def State.poisonIn (s : State) (lo hi : Nat) : Bool :=
  s.ms.poison.any (fun r => decide (r.1 < hi) &&
    decide (lo < r.1 + (if r.1 % 0x10000000 < 0x01800000 then 64
      else if 0x1C0000 ≤ (r.1 % 0x200000) then 4 else 32)))

/-- The size of the row at a physical-view address. -/
def rowSizeAt (a : Nat) : Nat :=
  if a % 0x10000000 < 0x01800000 then 64 else if 0x1C0000 ≤ a % 0x200000 then 4 else 32

/-- R281: a written byte counts towards lifting the poison of its row; a row all of whose bytes have been written
since is poisoned no longer. -/
def State.unpoison (s : State) (a : Nat) : State :=
  if s.ms.poison.isEmpty then s else
  let f := fun (r : Nat × List Nat) =>
    if r.1 ≤ a ∧ a < r.1 + rowSizeAt r.1 ∧ a ∉ r.2 then (r.1, a :: r.2) else r
  let l := (s.ms.poison.map f).filter (fun r => decide (r.2.length < rowSizeAt r.1))
  { s with ms := { s.ms with poison := l } }

/-- One byte of a served write. -/
def State.storeByte (s : State) (a : Nat) (b : BitVec 8) : State := (s.wr a b).unpoison a

/-- Bytes of a served write from a physical address on; `none` leaves a byte alone (R94, lanes masked off). -/
def State.storeGo (s : State) (a : Nat) : List (Option (BitVec 8)) → State
  | [] => s
  | some b :: l => (s.storeByte a b).storeGo (a + 1) l
  | none :: l => s.storeGo (a + 1) l

/-- R109: a write computes fresh parity for each word it writes whole: a stored bit of it that had flipped is replaced. -/
def State.freshParity (s : State) (a : Nat) (bs : List (Option (BitVec 8))) : State :=
  if s.ms.upsets.isEmpty then s
  else
    let whole := fun (x : Nat) => (List.range 4).all (fun k => decide (a ≤ x + k) && ((bs[x + k - a]?).getD none).isSome)
    { s with ms := { s.ms with upsets := s.ms.upsets.filter (fun x => !whole x.1) } }

def State.storeBytes (s : State) (a : Nat) (bs : List (Option (BitVec 8))) : State := (s.storeGo a bs).freshParity a bs

/-- The key of a cached translation: cache, lodging, page (R269). -/
def tlbKey (cache l v : Nat) : Nat := 2 ^ 28 * cache + 2 ^ 24 * l + v

/-- The cluster or port cache of a requester (R269). -/
def Rq.cache : Rq → Nat
  | .core u _ => u / 28
  | .coreDma u _ => u / 28
  | .fetch u => u / 28
  | .part u _ _ => u / 28
  | .seqDma c _ => c
  | .seqFetch c _ => c
  | .router c _ => c
  | .walker c => c
  | .host _ p => 64 + p
  | .firmware => 127
  | .scrubber => 127

/-- R268: the address of the entry of a page. -/
def State.pteAddr (s : State) (l v : Nat) : Nat :=
  s.fld fGL_PT_BASE_BASE + 8 * (s.fld fGL_PT_REGION_FIRST 0 l + v)

/-- Table 9.4. -/
def pteValid (e : Nat) : Bool := e.testBit 63
def pteWrite (e : Nat) : Bool := e.testBit 62
def pteExec (e : Nat) : Bool := e.testBit 61
def pteLodging (e : Nat) : Nat := fieldOf 56 3 e
def pteFrame (e : Nat) : Nat := fieldOf 0 24 e

/-- R268, R270: an entry that fails cause 4. -/
def pteBad (l e : Nat) : Bool :=
  pteLodging e != l || decide (12566528 ≤ pteFrame e)

/-- R268: a translation fault. -/
def State.transFault (s : State) (rq : Rq) (cause l va pa : Nat) : State :=
  let d := [BitVec.ofNat 8 cause, BitVec.ofNat 8 l] ++ leBytes 8 va ++ leBytes 8 pa
  let o := s.originRq rq
  let ev : Ev := { event := 0x2102, unit := unitStack (s.stackOf pa), outcome := 4, waybill := o.way, stream := o.stream,
                   tag := o.tag, lodging := some l, detail := d }
  ((s.sat fGL_TLB_STATUS_FAULTS 0 0 1).record ev).emit .errorResponse rq.unit 0x2102 [va]

/-- A requester's number among those of its class at an ostler: its cluster, 48 on for an Ethernet port, 63 for the hub. -/
def Rq.number : Rq → Nat
  | .core u _ => u / 28
  | .coreDma u _ => u / 28
  | .fetch u => u / 28
  | .part u _ _ => u / 28
  | .seqDma c _ => c
  | .seqFetch c _ => c
  | .router c _ => c
  | .walker c => c
  | .host _ p => 48 + p
  | .firmware => 63
  | .scrubber => 63

/-- Table 9.3: the classes at an HBM front end, numbered 0 refresh, 1 walks, 2 to 9 the lodgings, 10 the innkeeper, 11 the
scrubber. -/
def refreshAsker : Asker := ⟨0, 3, 63, none, 0⟩
def walkAsker (rq : Rq) (l : Nat) : Asker := ⟨1, 2, rq.number, some l, 0⟩
def State.dataAsker (s : State) (rq : Rq) : Asker :=
  match rq with
  | .scrubber => ⟨11, 0, rq.number, none, 0⟩
  | _ => match s.lodgingOf rq with
    | some l => ⟨2 + l, 1, rq.number, some l, 0⟩
    | none => ⟨10, 1, rq.number, none, 0⟩

/-- The pseudo-channel of a physical HBM address (Table 9.2). -/
def State.channelOf (s : State) (a : Nat) : Nat := s.stackAddr a / 64 % 64

/-- Table 9.2: the bank within the pseudo-channel of a stack address, and its row: stack ID, bank group, bank. -/
def bankOf (sa : Nat) : Nat :=
  let k := sa / 4096
  16 * (k / 256 % 4) + 4 * ((k / 16 % 4).xor (k / 1024 % 4)) + k / 64 % 4

def rowOf (sa : Nat) : Nat := sa / 4096 / 1024 % 16384

/-- The bank of a physical HBM address among those of all stacks. -/
def State.bankAt (s : State) (a : Nat) : Nat := 64 * (64 * s.stackOf a + s.channelOf a) + bankOf (s.stackAddr a)

/-- R252: an access to a row that is not open activates it (DESIGN CHOICE, log 52: a row stays open until another row of its bank
is accessed or the bank is refreshed). -/
def State.activate (s : State) (a : Nat) : State :=
  let b := s.bankAt a
  let r := rowOf (s.stackAddr a) + 1
  if nget s.hbm.rows b = r then s
  else { s with hbm := { s.hbm with rows := nput s.hbm.rows b r, acts := nput s.hbm.acts b (nget s.hbm.acts b + 1) } }

/-- R241, R258, R260: whether a front end grants nothing to a lodging's requester: a rate change of its stack, or a freeze. -/
def State.frontHeld (s : State) (l : Option Nat) (a : Nat) : Bool :=
  s.is fHB_STATUS_SWITCHING (s.stackOf a) || s.frozen 3 (s.stackOf a) (s.channelOf a) l

def State.stackHeld (s : State) (rq : Rq) (a : Nat) : Bool := s.frontHeld (s.lodgingOf rq) a

/-- R258: a grant of a front end for one access. -/
def State.frontGrant (s : State) (a : Nat) (x : Asker) : State := (s.served 3 (s.stackOf a) (s.channelOf a) x).activate a

/-- R227: a request whose destination is unreachable: event 0x3009 of the source router and an error response. -/
def State.unreachable (s : State) (rq : Rq) (src a : Nat) : State :=
  (s.stick fNW_STATUS_UNREACHABLE).refuse rq 0x3009 (unitRouter src 0) none src a

/-- R269: the entries a cache holds besides one, in the set of a page: a cluster's cache of 1,024 entries has 128 sets of 8;
how a page picks its set is open. A port's cache has 256 entries, a controller's 8,192. -/
def tlbWays (cache : Nat) : Nat := if cache < 64 then 8 else if cache < 128 then 256 else 8192

def State.tlbRivals (s : State) (cache l v : Nat) : SMap Nat :=
  let set := fun (k : Nat) => if cache < 64 then Config.tlbSet (k / 2 ^ 24 % 16) (k % 2 ^ 24) else 0#7
  let k := tlbKey cache l v
  s.hbm.tlb.filter (fun p => p.1 != k && p.1 / 2 ^ 28 == cache && set p.1 == set k)

def State.tlbSetTo (s : State) (k e : Nat) : State := { s with hbm := { s.hbm with tlb := nput s.hbm.tlb k e } }

/-- R269: an entry cached; which one leaves a full set is open (log 9). -/
def State.tlbFill (s : State) (cache l v e : Nat) : State :=
  let rivals := s.tlbRivals cache l v
  if rivals.length < tlbWays cache then s.tlbSetTo (tlbKey cache l v) e
  else
    let (d, t) := s.draw
    match rivals[Config.freeOrder d 0 % rivals.length]? with
    | some p => (t.tlbSetTo p.1 0).tlbSetTo (tlbKey cache l v) e
    | none => t.tlbSetTo (tlbKey cache l v) e

/-- R269, R271: the entry of a page as a cache may give it: an entry changed in the table without an invalidation is used in
its old or its new form (log 9). -/
def State.eitherForm (s : State) (old now : Nat) : Nat × State :=
  if old = now then (now, s)
  else
    let (k, t) := s.draw
    (if Config.freeBool k then old else now, t)

/-- R91: who makes a walk: the translation walker of the requester's cluster, or the port's own engine. -/
def Rq.walks : Rq → Rq
  | .core u _ => .walker (u / 28)
  | .coreDma u _ => .walker (u / 28)
  | .fetch u => .walker (u / 28)
  | .part u _ _ => .walker (u / 28)
  | .seqDma c _ => .walker c
  | .seqFetch c _ => .walker c
  | .router c _ => .walker c
  | r => r

/-- R268, R269: the read of an entry from its controller, which its cache spares the DRAM. -/
def State.walkRead (s : State) (rq : Rq) (l v : Nat) : Got Nat × State :=
  let pa := s.pteAddr l v
  let w := rq.walks
  let r := s.hbmRouter pa
  let ctl := 128 + s.stackOf pa
  let old := nget s.hbm.tlb (tlbKey ctl l v)
  match s.reachTo w r 5 [82 + r] with
  | 0 =>
    if old = 0 ∧ s.frontHeld (some l) pa then (.held, s)
    else
      let t := (s.crossed w r 5 true).when (old == 0) (fun s => s.frontGrant pa (walkAsker w l))
      let now := s.physNat pa 8
      let (e, t) := if old = 0 then (now, t) else t.eitherForm old now
      if pteValid e && !pteBad l e then (.ok e, (t.tlbFill ctl l v e).tlbFill rq.cache l v e) else (.ok e, t)
  | 1 => (.err 0x3009, s.unreachable rq (s.entryOf w r).1 pa)
  | _ => (.held, s)

/-- R269: the entry that the cluster's or the port's cache holds for a page, or that a walk reads. -/
def State.walk (s : State) (rq : Rq) (l v : Nat) : Got Nat × State :=
  let old := nget s.hbm.tlb (tlbKey rq.cache l v)
  if old = 0 then s.walkRead rq l v
  else
    let (e, t) := s.eitherForm old (s.physNat (s.pteAddr l v) 8)
    (.ok e, t)

/-- R266-R268: the physical address of a virtual one. -/
def State.translate (s : State) (rq : Rq) (va : Nat) (wr ex : Bool) : Got Nat × State :=
  let l := (s.lodgingOf rq).getD 0xFF
  let v := va / 65536
  if 8 ≤ l ∨ s.fld fGL_PT_REGION_COUNT 0 l ≤ v then (.err 0x2102, s.transFault rq 0 l va 0)
  else
    let pa := s.pteAddr l v
    match s.walk rq l v with
    | (.held, _) => (.held, s)
    | (.err e, t) => (.err e, t)
    | (.ok e, t) =>
      if !pteValid e then (.err 0x2102, t.transFault rq 1 l va pa)
      else if pteBad l e then (.err 0x2102, t.transFault rq 4 l va pa)
      else if wr && !pteWrite e then (.err 0x2102, t.transFault rq 2 l va pa)
      else if ex && !pteExec e then (.err 0x2102, t.transFault rq 3 l va pa)
      else (.ok (65536 * pteFrame e + va % 65536), t)

/-- A request that passes the network to a port of a router, or what becomes of it there. -/
def State.routed (s : State) (rq : Rq) (a dst last : Nat) (ends : List Nat) (next : State → Got Nat × State) :
    Got Nat × State :=
  match s.reachTo rq dst last ends with
  | 0 => next s
  | 1 => (.err 0x3009, s.unreachable rq (s.entryOf rq dst).1 a)
  | _ => (.held, s)

/-! ### Parity (R109, R280) -/

/-- R123, R280, R470: the record of a parity failure: memory, bank, physical row and requester; outcome 1 when the re-read
passed, 5 when the row is poisoned. -/
def State.parityEvent (s : State) (rq : Rq) (p : Place) (outcome : Nat) : State :=
  let d := [BitVec.ofNat 8 p.kind.cls] ++ leBytes 2 p.bankRow.1 ++ leBytes 4 (s.physRow p) ++ leBytes 4 rq.unit
  let s := s.memStatus 0x2001 p.slot? p.cluster
  let s := match p.slot? with
    | some u => s.sat fCO_MEM_STATUS_PARITY_ERRORS u 0 1
    | none => s.sat fCL_MEM_STATUS_PARITY_ERRORS p.cluster 0 1
  let o := s.originRq rq
  (s.record { event := 0x2001, unit := placeUnit p, outcome := outcome, waybill := o.way, stream := o.stream, tag := o.tag,
              detail := d }).stormTick p.cluster

/-- R280: a row poisoned and listed by its physical row (defect kind 1: SRAM row). -/
def State.poisonRow (s : State) (rq : Rq) (p : Place) : State :=
  let s := s.parityEvent rq p 5
  let s := if s.ms.poison.any (fun r => r.1 == p.row) then s
    else { s with ms := { s.ms with poison := s.ms.poison ++ [(p.row, [])] } }
  (s.stick fMG_STICKY1_DATA_LOST).addDefect 1 (placeUnit p) (s.physRow p)

/-- R109: the first word of a range with a flipped stored bit. -/
def State.upsetIn (s : State) (lo n : Nat) : Option (Nat × Bool) :=
  s.ms.upsets.find? (fun x => decide (x.1 < lo + n) && decide (lo < x.1 + 4))

/-- R109: a stored bit of a word flips; `bad` if the word cannot be read again either. -/
def State.upset (s : State) (a : Nat) (bad : Bool) : State :=
  if s.ms.upsets.any (fun x => x.1 == a) then s else { s with ms := { s.ms with upsets := s.ms.upsets ++ [(a, bad)] } }

/-- A flipped word corrected, or lost with its row. -/
def State.dropUpset (s : State) (a : Nat) : State :=
  { s with ms := { s.ms with upsets := s.ms.upsets.filter (fun x => x.1 != a) } }

/-- The place of a physical-view address in the memory a place lies in. -/
def Place.at (p : Place) (a : Nat) : Place := { p with off := p.off + a - p.addr }

/-- R280: the flipped words of a read of n bytes at a place are met: none where every re-read passes, or the state in which a
row is poisoned. The first argument bounds their number. -/
def State.readCheck (rq : Rq) (p : Place) (n : Nat) : Nat → State → Bool × State
  | 0, s => (true, s)
  | k + 1, s => match s.upsetIn p.addr n with
    | none => (true, s)
    | some (a, bad) =>
      let t := s.dropUpset a
      let q := p.at (max a p.addr)
      if bad then (false, t.poisonRow rq q) else State.readCheck rq p n k (t.parityEvent rq q 1)

/-- R94: whether a write reads words before it writes them. -/
def partialWord (a n : Nat) : Bool := a % 4 != 0 || n % 4 != 0

/-- R109, R280: the row reads of a request at a place: of a read, and of a write that covers part of a word. -/
def State.checked (s : State) (rq : Rq) (p : Place) (a n : Nat) (rd : Bool) : Got Nat × State :=
  if !rd && !partialWord a n then (.ok p.addr, s)
  else
    let x := State.readCheck rq p n s.ms.upsets.length s
    if x.1 then (.ok p.addr, x.2) else (.err 0x2001, x.2.emit .errorResponse rq.unit 0x2001 [a])

/-- R88, R281: a request at its place. -/
def State.atPlace (s : State) (rq : Rq) (a n : Nat) (rd : Bool) : Got Nat × State :=
  match s.locate rq a with
  | .held => (.held, s)
  | .bad e unit slot c => (.err e, s.refuse rq e unit slot c a)
  | .ok p =>
    if rd && s.poisonIn p.addr (p.addr + n) then
      (.err 0x2008, s.refuse rq 0x2008 (placeUnit p) p.slot? p.cluster a)
    else s.checked rq p a n rd

/-- One request of at most 64 bytes that crosses no 64-byte boundary: the physical address it is served at. The
requester's address is below 0x0100_0000_0000 for HBM, and in the cluster windows above; the platform names HBM by its
physical address (R270, R387). -/
def State.request (s : State) (rq : Rq) (a n : Nat) (rd wr ex : Bool) : Got Nat × State :=
  if 0x010300000000 ≤ a then (.err 0, s.emit .errorResponse rq.unit 0 [a])
  else if 0x010000000000 ≤ a then
    if s.ownAccess rq a then s.atPlace rq a n rd
    else s.routed rq a (clusterAt a) 0 [] (fun s => s.atPlace rq a n rd)
  else if rq.platform then
    if hbmSize ≤ a then (.err 0, s.emit .errorResponse rq.unit 0 [a])
    else if s.stackHeld rq a then (.held, s)
    else s.routed rq a (s.hbmRouter a) 5 [82 + s.hbmRouter a] (fun s => (.ok a, s))
  else
    match s.translate rq a wr ex with
    | (.ok pa, t) =>
      if s.stackHeld rq pa then (.held, s)
      else t.routed rq a (t.hbmRouter pa) 5 [82 + t.hbmRouter pa] (fun t => (.ok pa, t))
    | (.err e, t) => (.err e, t)
    | (.held, _) => (.held, s)

/-- R90: a grant of a CM bank, where a physical address lies in one; `near` for a requester of the same cluster. -/
def State.bankGrant (s : State) (rq : Rq) (near : Bool) (pa : Nat) : State :=
  if pa % 0x10000000 < 0x01800000 then
    s.served 1 (clusterAt pa) (pa % 0x10000000 / 0xC0000) ⟨if near then 0 else 1, 0, rq.number, s.lodgingOf rq, 0⟩
  else s

/-- R224, R237: the grants a served request takes: at every output of its way and, where `back`, of its answer's, and at the
CM bank or the front end that serves it. An access of a core to its own sub-window takes none (R86). -/
def State.granted (s : State) (rq : Rq) (a pa : Nat) (back : Bool) : State :=
  if s.ownAccess rq a then s
  else if 0x010000000000 ≤ pa then
    let c := clusterAt pa
    (s.crossed rq c 0 back).bankGrant rq ((s.entryOf rq c).1 == c && (s.entryOf rq c).2.1 == 0) pa
  else (s.crossed rq (s.hbmRouter pa) 5 back).frontGrant pa (s.dataAsker rq)

/-- R222: whether the answers to a requester's writes come by RESPONSE_ARRIVAL: those of a core's stores do. -/
def Rq.acksLater : Rq → Bool
  | .core _ _ => true
  | _ => false

/-! ### Response tables (R222) -/

/-- The response table of a requester, and its entries. -/
def Rq.table : Rq → Nat × Nat
  | .core u _ => (0, u)
  | .coreDma u _ => (1, u)
  | .fetch u => (2, u)
  | .part u _ _ => (1, u)
  | .seqDma c _ => (3, c)
  | .seqFetch c _ => (4, c)
  | .router c _ => (5, c)
  | .walker c => (6, c)
  | .host _ p => (7, p)
  | .firmware => (8, 0)
  | .scrubber => (8, 0)

def Rq.entries (rq : Rq) : Nat :=
  match rq.table.1 with
  | 0 => 16
  | 1 => 256
  | 2 => 4
  | 3 => 256
  | 4 => 128
  | 5 => 32
  | 6 => 32
  | 7 => 512
  | _ => 64

/-- The free entries of a requester's response table. -/
def State.tableFree (s : State) (rq : Rq) : Nat :=
  rq.entries - (s.net.resps.filter (fun r => r.rq.table == rq.table)).foldl (fun a r => a + r.entries) 0

/-- A write that awaits its acknowledgement holds entries of its requester's response table. -/
def State.awaitAck (s : State) (rq : Rq) (op pc : Nat) (n : Nat := 1) (src : Option (Nat × Nat) := none) : State :=
  let r : Resp := { id := s.net.nextResp, rq := rq, op := op, issued := s.now, write := true, pc := pc, entries := n, src := src }
  { s with net := { s.net with resps := s.net.resps ++ [r], nextResp := s.net.nextResp + 1 } }

/-- The bytes of a range that the first request of it covers: up to the next 64-byte boundary. -/
def pieceLen (a n : Nat) : Nat := min n (64 - a % 64)

/-- A read of n bytes from an address on, request by request in ascending order. The first argument bounds the number
of requests; n of them always suffice. -/
def State.readGo (rq : Rq) (ex : Bool) : Nat → State → Nat → Nat → Got (List (BitVec 8)) × State
  | 0, s, _, _ => (.ok [], s)
  | k + 1, s, a, n =>
    if n = 0 then (.ok [], s)
    else
      let m := pieceLen a n
      match s.request rq a m true false ex with
      | (.ok pa, t) =>
        let bs := t.physRead pa m
        match State.readGo rq ex k (t.granted rq a pa true) (a + m) (n - m) with
        | (.ok l, t') => (.ok (bs ++ l), t')
        | r => r
      | (.err e, t) => (.err e, t)
      | (.held, t) => (.held, t)

def State.readMem (s : State) (rq : Rq) (a n : Nat) : Got (List (BitVec 8)) × State :=
  State.readGo rq false (n / 64 + 2) s a n

def State.fetchMem (s : State) (rq : Rq) (a n : Nat) : Got (List (BitVec 8)) × State :=
  State.readGo rq true (n / 64 + 2) s a n

/-- A write of bytes from an address on, request by request in ascending order; `none` leaves a byte alone. A request
that is refused writes nothing, and the requests after it are not sent. -/
def State.writeGo (rq : Rq) : Nat → State → Nat → List (Option (BitVec 8)) → Got Unit × State
  | 0, s, _, _ => (.ok (), s)
  | k + 1, s, a, bs =>
    if bs = [] then (.ok (), s)
    else
      let m := pieceLen a bs.length
      let here := bs.take m
      if here.all Option.isNone then State.writeGo rq k s (a + m) (bs.drop m)
      else
        match s.request rq a m false true false with
        | (.ok pa, t) => State.writeGo rq k ((t.granted rq a pa !rq.acksLater).storeBytes pa here) (a + m) (bs.drop m)
        | (.err e, t) => (.err e, t)
        | (.held, t) => (.held, t)

def State.writeMem (s : State) (rq : Rq) (a : Nat) (bs : List (Option (BitVec 8))) : Got Unit × State :=
  State.writeGo rq (bs.length / 64 + 2) s a bs

def State.writeAll (s : State) (rq : Rq) (a : Nat) (bs : List (BitVec 8)) : Got Unit × State :=
  s.writeMem rq a (bs.map some)

end Sys2Proof.Machine
end

