-- ==== Sys2Proof/Machine/Ops.lean ====
section
/-! DEFINITION. Shared operations of streams, semaphores, flags and cores (04 R98-R107, 05 R157, 06 R173-R194):
ending and faulting a stream, completing a command, changing a flag, serving a semaphore, and a core fault. -/

namespace Sys2Proof.Machine

/-- The outcome of every command of this block: a next state (log 3). -/
abbrev Outcome := Host.Outcome State Fault Refusal

/-- The key of a sequencer slot. -/
def slotKey (c i : Nat) : Nat := 16 * c + i

def noWait (_ : Nat) : Option SlotWait := none

def State.waitOf (s : State) (k : Nat) : Option SlotWait := mget noWait s.sq.waits k

def State.setWait (s : State) (k : Nat) (w : Option SlotWait) : State :=
  { s with sq := { s.sq with waits := mput noWait s.sq.waits k w } }

/-- Site time in a clock region: the master count, or a count next to it, which the spec leaves free (R314, R317); a copy that has
gone wrong holds another count until it is reloaded (R318). -/
def State.regionNow (s : State) (r : Nat) : Nat :=
  match nget s.tm.skew r with
  | 0 => (match (Config.freeSkew r s.now).toNat with
    | 1 => (s.now + 1) % 2 ^ 64
    | 2 => (s.now + (2 ^ 64 - 1)) % 2 ^ 64
    | _ => s.now)
  | k => (s.now + k) % 2 ^ 64

/-- R316, R320: a boundary of a grain: a multiple of it, or the first count after a jump over one. -/
def State.atBoundary (s : State) (n : Nat) : Bool :=
  s.now % n == 0 || (match s.tm.jump with
    | some (a, b) => b == s.now && decide (a / n < b / n)
    | none => false)

/-- R316, R317: a boundary as a region sees it. -/
def State.regionBoundary (s : State) (r n : Nat) : Bool :=
  s.regionNow r % n == 0 || (match s.tm.jump with
    | some (a, b) => b == s.now && decide (a / n < b / n)
    | none => false)

/-- R320: whether a jump of the count has just passed over a count. -/
def State.jumpedOver (s : State) (t : Nat) : Bool :=
  match s.tm.jump with
  | some (a, b) => b == s.now && decide (a < t) && decide (t ≤ b)
  | none => false

/-- The waybill, class and other parts of a record's common words (Table 6.4). -/
def recWord (r : List Word) (k : Nat) : Nat := (r.getD k 0#64).toNat
def recOpc (r : List Word) : Nat := fieldOf 56 8 (recWord r 0)
def recWaybill (r : List Word) : Nat := fieldOf 0 32 (recWord r 1)
def recStream (r : List Word) : Nat := fieldOf 32 16 (recWord r 1)
def recFence (r : List Word) : Bool := (recWord r 1).testBit 48

/-- R181, Table 6.8: a trace record written to the ring, or dropped when the ring is full. -/
def State.trace (s : State) (c : Nat) (kind way tag stream opc data : Nat) : State :=
  if !s.is fSQ_TRACE_CTRL_EN c then s
  else
    let w := s.fld fSQ_TRACE_CTRL_WRITE c
    let n := 2 ^ s.fld fSQ_TRACE_CTRL_SIZE c
    if n ≤ (w + 65536 - s.fld fSQ_TRACE_CTRL_READ c) % 65536 then s.sat fSQ_TRACE_CTRL_DROPS c 0 1
    else
      let b := leBytes 8 (s.regionNow c) ++ leBytes 4 way ++ leBytes 2 tag ++ leBytes 2 stream ++
        [BitVec.ofNat 8 kind, BitVec.ofNat 8 opc] ++ leBytes 6 0 ++ leBytes 8 data
      let a := s.fld fSQ_TRACE_BASE_BASE c + 32 * (w % n)
      ((s.writeAll (.seqFetch c (some ⟨way, stream, tag⟩)) a b).2).wrap fSQ_TRACE_CTRL_WRITE c 0 1

/-- The slot of a stream in its home sequencer. -/
def State.slotIx (s : State) (id : Nat) : Option Nat :=
  let c := s.fld fGL_STREAM7_HOME 0 id
  (List.range 16).find? (fun i => s.is fSQ_SLOT_VALID c i && s.fld fSQ_SLOT_STREAM c i == id)

/-- R184, R192: an object's value: a semaphore's count, a flag, a barrier's count. -/
def State.objValue (s : State) (obj : Nat) : Nat :=
  let c := fieldOf 22 6 obj
  let k := fieldOf 0 22 obj
  match fieldOf 28 4 obj with
  | 0 => s.fld fCL_SEM_COUNT c k
  | 1 => s.fld fCL_FLAG_VALUE c k
  | 2 => s.fld fGL_BARRIER_COUNT 0 k
  | _ => 0

/-- The name of an awaited object (Table 10.16). -/
def objName (kind c k : Nat) : Nat := kind <<< 28 + c <<< 22 + k

/-- Table 6.1, FLAG_CMP; the reserved value never holds. -/
def flagHolds (cmp v x : Nat) : Bool :=
  match cmp with
  | 0 => decide (x ≤ v)
  | 1 => v == x
  | 2 => v != x
  | _ => false

/-- R173: a command of a stream completes: COMPLETED and LAST_WAYBILL of the entry, and a trace record. -/
def State.completed (s : State) (id way opc : Nat) : State :=
  let s := (s.wrap fGL_STREAM5_COMPLETED 0 id 1).put fGL_STREAM5_LAST_WAYBILL 0 id way
  s.trace (s.fld fGL_STREAM7_HOME 0 id) 3 way 0 id opc 0

/-- A wait of a slot ends met: the slot issues again and the blocking command completes. -/
def State.waitMet (s : State) (c i : Nat) : State :=
  match s.waitOf (slotKey c i) with
  | none => s
  | some w =>
    let id := s.fld fSQ_SLOT_STREAM c i
    let s := (s.setWait (slotKey c i) none).put fSQ_SLOT_WAIT c i 0
    let s := s.trace c 5 (recWaybill w.record) 0 id (recOpc w.record) w.need
    s.completed id (recWaybill w.record) (recOpc w.record)

/-- All sequencer slots of the device. -/
def allSlots : List (Nat × Nat) := (List.range 48).flatMap (fun c => (List.range 16).map (fun i => (c, i)))

/-- R182: FLAG_WAITs on a flag are examined. -/
def State.examineFlagWaits (s : State) (c k : Nat) : State :=
  s.forEach (s.sq.waits.filterMap (fun p => match p.2 with
      | some w => if w.obj = objName 1 c k then some (p.1, w) else none
      | none => none))
    (fun p s => if flagHolds (fieldOf 0 2 (recWord p.2.record 0)) (s.fld fCL_FLAG_VALUE c k) p.2.need
      then s.waitMet (p.1 / 16) (p.1 % 16) else s)

/-- R167, R182: a flag written. A change examines waits, and release conditions on the flag at the next boundary. -/
def State.flagPut (s : State) (c k v way : Nat) : State :=
  let old := s.fld fCL_FLAG_VALUE c k
  let s := (s.put fCL_FLAG_VALUE c k v).put fCL_FLAG_LAST_WAYBILL c k way
  if old = v % 2 ^ 32 then s
  else
    let s := { s with sq := { s.sq with examine := s.sq.examine ++ [1048576 + 4096 * c + k] } }
    s.examineFlagWaits c k

/-- Table 6.6, FLAG_SET OP: set, add saturating, maximum. -/
def flagResult (op old v : Nat) : Nat :=
  match op with
  | 0 => v
  | 1 => min 0xFFFFFFFF (old + v)
  | 2 => max old v
  | _ => old

def State.flagOp (s : State) (c k op v way : Nat) : State :=
  s.flagPut c k (flagResult op (s.fld fCL_FLAG_VALUE c k) v) way

/-- R191: the timeout in µs of a wait of a stream that begins now. -/
def State.streamLimit (s : State) (id : Nat) : Nat :=
  if s.fld fGL_STREAM4_TIMEOUT 0 id = 0 then s.fld fGL_STREAM_TIMEOUT_TIMEOUT else s.fld fGL_STREAM4_TIMEOUT 0 id

/-- R165, R182, R391: whether a lodging owns a cluster and is not leaving it. -/
def State.owns (s : State) (l c : Nat) : Bool :=
  decide (c < 48) && s.ownerOf c == some l && !s.is fCL_OWNER_LEAVING c

/-- R106, R182: a request of a unit for a flag of a cluster its lodging does not own: the record and the error
response. -/
def State.flagRefuse (s : State) (unit l c k way stream : Nat) : State :=
  let a := 0x0F0010008000 + 0x01000000 * c + 8 * k
  let ev : Ev := { event := 0x7001, unit := unitCl c 0, outcome := 4, waybill := way, stream := stream,
                   lodging := some l, detail := BitVec.ofNat 8 l :: leBytes 8 a }
  (s.secRefused.record ev).emit .errorResponse unit 0x7001 [a]

/-- R217: where SIG messages of a unit enter the network on their way to a cluster: router, port and the attachment's link. -/
def State.sigEntry (s : State) (unit c : Nat) : Nat × Nat × List Nat :=
  if unitCluster unit < 48 then (unitCluster unit, 0, [])
  else if unitKind unit = 7 then (ethRouter (unitInst unit), ethPort (unitInst unit), [130 + unitInst unit])
  else
    let h := s.hubFrom c
    (h.1, h.2.1, [h.2.2])

/-- R227: a SIG message whose destination is unreachable is discarded. -/
def State.sigLost (s : State) (r : Nat) (o : Origin) : State :=
  let ev : Ev := { event := 0x3009, unit := unitRouter r 0, outcome := outcomeOf 0x3009, waybill := o.way, stream := o.stream,
                   tag := o.tag }
  (s.stick fNW_STATUS_UNREACHABLE).record ev

/-- R294, R380: a SIG message that comes to a fenced cluster, or to one under reset, is discarded; none where it is taken. -/
def State.sigGone (s : State) (c : Nat) (o : Origin) : Option State :=
  if s.clusterFenced c then
    let ev : Ev := { event := 0x3009, unit := unitCl c 0, outcome := outcomeOf 0x3009, waybill := o.way, stream := o.stream,
                     tag := o.tag }
    some (s.record ev)
  else if s.clusterHeld c then some (s.sat fCL_RESET_STATUS_SIG_DROPPED c 0 1)
  else none

/-- R227, R294, R380: what becomes of a SIG message of a unit that is not taken by its cluster; none where it is. -/
def State.sigDrop (s : State) (unit c : Nat) (o : Origin) : Option State :=
  let e := s.sigEntry unit c
  if s.reach e.1 c e.2.2 = 1 then some (s.sigLost e.1 o) else s.sigGone c o

/-- R193, R417: a unit adds 1 to a flag for a lodging: refused, as R182 has it, in a cluster the lodging does not own, and
discarded where no SIG message gets (R227, R294). LAST_WAYBILL keeps the last FLAG_SET's (Table 6.9). -/
def State.raiseFlag (s : State) (unit l c k : Nat) (o : Origin) : State :=
  if s.owns l c then
    match s.sigDrop unit c o with
    | some t => t
    | none => s.flagOp c k 1 1 (s.fld fCL_FLAG_LAST_WAYBILL c k)
  else s.flagRefuse unit l c k o.way o.stream

/-- R164, R193: 1 added to the notify flag of a stream that has left RUNNING. -/
def State.notify (s : State) (id : Nat) : State :=
  let c := s.fld fGL_STREAM4_NOTIFY_CLUSTER 0 id
  let k := s.fld fGL_STREAM4_NOTIFY_INDEX 0 id
  if !s.is fGL_STREAM4_NOTIFY_EN 0 id then s
  else s.raiseFlag (unitSeq (s.fld fGL_STREAM7_HOME 0 id)) (s.fld fGL_STREAM7_LODGING 0 id) c k ⟨0, id, 0⟩

/-- A slot freed. -/
def State.freeSlot (s : State) (id : Nat) : State :=
  let c := s.fld fGL_STREAM7_HOME 0 id
  match s.slotIx id with
  | some i => (s.setReg rSQ_SLOT c i 0#64).setWait (slotKey c i) none
  | none => s

/-- Launched commands of a stream not yet completed. -/
def State.outstanding (s : State) (id : Nat) : Nat := (s.sq.launches.filter (fun l => l.stream == id)).length

/-- A stream is no longer ending. -/
def State.dropEnding (s : State) (id : Nat) : State :=
  { s with sq := { s.sq with ending := s.sq.ending.filter (fun e => e.1 != id) } }

/-- R193, R194: a stream that has ended has its slot freed and its notify flag raised once every issued command has
completed; a fault of a stream that is stopping ends it as faulted. -/
def State.endIfQuiet (s : State) (id st : Nat) : State :=
  let s := s.dropEnding id
  if s.outstanding id = 0 then ((s.freeSlot id).put fGL_STREAM7_STATE 0 id st).notify id
  else { s with sq := { s.sq with ending := s.sq.ending ++ [(id, st)] } }

/-- R100: waits at the head of a semaphore's queue are served while the count covers them. The first argument bounds
the number of waits. -/
def State.serveGo : Nat → State → Nat → Nat → State
  | 0, s, _, _ => s
  | n + 1, s, c, k =>
    match s.ms.semQueue.find? (fun w => w.sem == 256 * c + k) with
    | none => s
    | some w =>
      let v := s.fld fCL_SEM_COUNT c k
      if v < w.amount then s
      else
        let g : SemGrant := { sem := w.sem, seq := w.seq, who := w.who, amount := w.amount }
        let t := { s with ms := { s.ms with semQueue := s.ms.semQueue.erase w }, net := { s.net with grants := s.net.grants ++ [g] } }
        State.serveGo n (t.put fCL_SEM_COUNT c k (v - w.amount)) c k

def State.semServe (s : State) (c k : Nat) : State := State.serveGo s.ms.semQueue.length s c k

/-- R100, R105: waits withdrawn from their queues; a wait that comes to the head is then served as the count allows. The
semaphores of a fenced cluster change no further (R294). -/
def State.dropWaits (s : State) (gone : SemWait → Bool) : State :=
  let sems := ((s.ms.semQueue.filter gone).map (fun w => w.sem)).eraseDups
  let keep := fun (w : SemWait) => !gone w
  let t := { s with ms := { s.ms with semQueue := s.ms.semQueue.filter keep },
                    net := { s.net with waitMsgs := s.net.waitMsgs.filter keep } }
  t.forEach sems (fun k s =>
    if s.clusterFenced (k / 256) then s else s.semServe (k / 256) (k % 256))

/-- R105, R193: a slot's pending wait withdrawn, with a TENSOR not yet delivered; a grant on its way finds nobody
waiting. -/
def State.withdraw (s : State) (id : Nat) : State :=
  let c := s.fld fGL_STREAM7_HOME 0 id
  match s.slotIx id with
  | none => s
  | some i =>
    let k := slotKey c i
    let s := (s.setWait k none).put fSQ_SLOT_WAIT c i 0
    let s := s.dropWaits (fun w => w.seq && w.who == k)
    { s with sq := { s.sq with barrierWait := s.sq.barrierWait.filter (fun b => b.2.1 != k),
                               tensors := s.sq.tensors.filter (fun t => t.stream != id),
                               held := s.sq.held.filter (fun h => h != id) } }

/-- R193: a stream enters FAULTED with an event and its record. `opc` is the kind of the faulting command (Table 6.8). -/
def State.streamFault (s : State) (id event way : Nat) (detail : List (BitVec 8)) (opc : Nat := 0) : State :=
  let c := s.fld fGL_STREAM7_HOME 0 id
  let running := s.fld fGL_STREAM7_STATE 0 id == 3
  let ev : Ev := { event := event, unit := unitSeq c, outcome := 4, waybill := way, stream := id,
                   lodging := some (s.fld fGL_STREAM7_LODGING 0 id), detail := detail }
  let s := s.record ev
  let s := s.trace c 6 way 0 id opc event
  let s := (s.withdraw id).put fGL_STREAM6_FAULT 0 id event
  let s := { s with sq := { s.sq with ready := s.sq.ready.filter (fun r => r != id) } }
  let s := s.put fGL_STREAM7_STATE 0 id 5
  if running then s.endIfQuiet id 5 else s

/-- R194: a stream is stopped: at once when ARMED or READY, when its issued commands have completed if RUNNING. -/
def State.streamStop (s : State) (id : Nat) : State :=
  match s.fld fGL_STREAM7_STATE 0 id with
  | 1 => s.put fGL_STREAM7_STATE 0 id 6
  | 2 => { s with sq := { s.sq with ready := s.sq.ready.filter (fun r => r != id) } }.put fGL_STREAM7_STATE 0 id 6
  | 3 => if s.sq.ending.any (fun e => e.1 == id) then s else (s.withdraw id).endIfQuiet id 6
  | _ => s

/-- R99: a semaphore's count raised, saturating with event 0x4201, whose address is that of CL_SEM[k] (DESIGN CHOICE, log
51). -/
def State.semAdd (s : State) (c k n unit : Nat) (o : Origin) : State :=
  let v := s.fld fCL_SEM_COUNT c k + n
  if 0xFFFFFFFF < v then
    let d := leBytes 8 (0x0F0010000000 + 0x01000000 * c + 0x2000 + 8 * k) ++ leBytes 4 unit
    let ev : Ev := { event := 0x4201, unit := unitCl c 0, outcome := outcomeOf 0x4201, waybill := o.way, stream := o.stream,
                     tag := o.tag, detail := d }
    ((s.put fCL_SEM_COUNT c k 0xFFFFFFFF).stick fCL_MEM_STATUS_SEM_OVERFLOW c).record ev
  else s.put fCL_SEM_COUNT c k v

/-- R102: a signal sent on its way. -/
def State.sendSignal (s : State) (sem amount way unit lodging stream : Nat) (opc tag : Nat := 0) (bcast : Bool := false)
    (pc : Nat := 0) : State :=
  let g : SemSig := { sem := sem, amount := amount, waybill := way, unit := unit, lodging := lodging, stream := stream, opc := opc,
                      tag := tag, bcast := bcast, pc := pc }
  { s with net := { s.net with signals := s.net.signals ++ [g] } }

/-- Fields of a semaphore word (R137): amount, cluster, index; the other bits must be 0. -/
def semAmount (w : Nat) : Nat := fieldOf 32 16 w
def semName (w : Nat) : Nat := 256 * fieldOf 8 6 w + fieldOf 0 8 w
def semWordOk (w : Nat) : Bool := w == semAmount w <<< 32 + fieldOf 8 6 w <<< 8 + fieldOf 0 8 w

/-- A launch's share on one logical core is over (R175, R178). -/
def State.coreDone (s : State) (launch l : Nat) : State :=
  let f := fun (x : Launch) => if x.id = launch then { x with cores := x.cores.filter (fun k => k != l) } else x
  { s with sq := { s.sq with launches := s.sq.launches.map f } }

/-- R157, R159: the fault registers take the first fault since the program started. -/
def State.faultRegs (s : State) (u event tag : Nat) (bcast : Bool) (way pc addr : Nat) : State :=
  if s.fld fCO_FAULT_EVENT u = 0 then
    (((((s.put fCO_FAULT_EVENT u 0 event).put fCO_FAULT_TAG u 0 tag).put fCO_FAULT_BROADCAST u 0 bcast.toNat).put
      fCO_FAULT_WAYBILL u 0 way).put fCO_FAULT_PC_PC u 0 pc).put fCO_FAULT_ADDR_ADDR u 0 addr
  else s

/-- R157: the record of a core fault (Table 10.16). -/
def faultEv (u event tag : Nat) (bcast : Bool) (way stream pc addr : Nat) : Ev :=
  { event := event, unit := unitIssue u, outcome := 4, waybill := way, stream := stream, tag := tag,
    detail := leBytes 8 pc ++ leBytes 8 addr ++ [BitVec.ofNat 8 bcast.toNat] }

/-- A core stops waiting. -/
def State.clearWait (s : State) (u : Nat) : State :=
  { s with core := { s.core with wait := nput s.core.wait u 0 } }

/-- R157, R179: a core fault: registers, record, state FAULTED, and the responsible stream faulted. -/
def State.coreFault (s : State) (u event tag : Nat) (bcast : Bool) (way stream pc addr launch : Nat) : State :=
  let s := (s.faultRegs u event tag bcast way pc addr).record (faultEv u event tag bcast way stream pc addr)
  let s := ((s.put fCO_CORE_STATUS_PC u 0 pc).put fCO_CORE_STATUS_STATE u 0 4).clearWait u
  let s := s.coreDone launch (s.logicalOf u)
  let opc := ((s.sq.launches.find? (fun x => x.id == launch)).map Launch.opc).getD 0
  if s.fld fGL_STREAM7_STATE 0 stream = 3 then s.streamFault stream 0x4006 way [] opc else s

/-- A fault of a single-word instruction of a core's own program. -/
def State.progFault (s : State) (u event addr : Nat) : State :=
  s.coreFault u event 0 false (nget s.core.waybill u) (nget s.core.stream u) (s.fld fCO_CORE_STATUS_PC u) addr
    (nget s.core.group u)

/-- A condition of the model's events that does not hold leaves the state alone (log 3). -/
def State.guard (s : State) (b : Bool) (f : State → State) : Outcome := .next (if b then f s else s)

end Sys2Proof.Machine
end

