-- ==== Sys2Proof/Machine/Gate.lean ====
section
/-! DEFINITION. Who reaches which register (14_lodgings_and_security.md R388, R389, Table 14.2; 06 R166; 10 R313; 15 R429):
the one check that every access to control space passes before anything else. -/

namespace Sys2Proof.Machine

/-- Control-space addresses of the blocks (Table 0.6). -/
def clAddr (c off : Nat) : Nat := 0x0F0010000000 + 0x01000000 * c + off
def coAddr (u off : Nat) : Nat := clAddr (u / 28) (0x00800000 + 0x10000 * (u % 28) + off)
def sqAddr (c off : Nat) : Nat := clAddr c (0x00400000 + off)
def glAddr (off : Nat) : Nat := 0x0F0000000000 + off
def mgAddr (off : Nat) : Nat := 0x0F0001000000 + off
def tmAddr (off : Nat) : Nat := 0x0F0002000000 + off
def pwAddr (off : Nat) : Nat := 0x0F0003000000 + off
def etAddr (off : Nat) : Nat := 0x0F0005000000 + off
def nwAddr (off : Nat) : Nat := 0x0F0008000000 + off

/-- R388, R389, R293: what refuses a request to the registers of a cluster: another owner, or a fenced cluster. -/
def State.regGate (s : State) (rq : Rq) (c : Nat) : Option Nat :=
  if !s.admits c rq then some 0x7001 else if s.clusterFenced c then some 0x3009 else none

/-- A register action of a cluster, or its refusal with an error response. -/
def State.regAct (s : State) (rq : Rq) (c addr : Nat) (f : State → State) : State :=
  match s.regGate rq c with
  | some e => s.refuse rq e (unitCl c 0) none c addr
  | none => f s

/-- R166: whether a stream table entry lies in a lodging's range. -/
def State.inRange (s : State) (l id : Nat) : Bool :=
  let first := s.fld fGL_STREAM_RANGE_FIRST 0 l
  decide (first ≤ id) && decide (id < first + s.fld fGL_STREAM_RANGE_COUNT 0 l)

/-- The rows of the stream table. -/
def streamRow (r : Nat) : Bool := decide (rGL_STREAM0 ≤ r) && decide (r ≤ rGL_STREAM7)

/-- R184: whether a barrier is granted to a lodging. -/
def State.ownsBarrier (s : State) (l b : Nat) : Bool := s.is fGL_BARRIER_OWNED 0 b && s.fld fGL_BARRIER_OWNER 0 b == l

/-- Table 14.2, GL: what a lodging reads. -/
def State.glReads (s : State) (l r i : Nat) : Bool :=
  r == rGL_IDENT || r == rGL_CONTRACT_LEVEL || r == rGL_CAPACITY0 || r == rGL_CAPACITY1 || r == rGL_TOPOLOGY ||
    r == rGL_STREAM_STATUS ||
    ((r == rGL_STREAM_RANGE || r == rGL_LODGING_CLUSTERS || r == rGL_LODGING_CFG) && i == l) ||
    (r == rGL_BARRIER && s.ownsBarrier l i) || (streamRow r && s.inRange l i)

/-- Table 14.2, GL: what a lodging writes. The stream that GL_STREAM_CTRL names is checked by its action (R194). -/
def State.glWrites (s : State) (l r i : Nat) : Bool :=
  r == rGL_STREAM_CTRL || (r == rGL_BARRIER && s.ownsBarrier l i) || (streamRow r && s.inRange l i)

/-- Table 14.2, SC: the range of a lodging and the slots in it. -/
def State.scReads (s : State) (l r i : Nat) : Bool :=
  (r == rSC_SLOT_RANGE && i == l) || ((r == rSC_SLOT0 || r == rSC_SLOT1) &&
    decide (s.fld fSC_SLOT_RANGE_FIRST 0 l ≤ i) &&
    decide (i < s.fld fSC_SLOT_RANGE_FIRST 0 l + s.fld fSC_SLOT_RANGE_COUNT 0 l))

/-- R429: what a lodging reads and writes of the ET block. -/
def State.etReaches (s : State) (l r i : Nat) (wr : Bool) : Bool :=
  (r == rET_CONN_POST && i / 1024 == l) ||
    (decide (rET_CKPT_CFG0 ≤ r) && decide (r ≤ rET_CKPT_CFG7) && i == l) ||
    ((r == rET_RESUME0 || r == rET_RESUME1) && i == l) ||
    (!wr && (((r == rET_CKPT_STATUS || r == rET_MB_FLOOR || r == rET_RESUME_STATUS) && i == l) ||
      (r == rET_PORT_STATUS && fieldOf (4 * i) 4 (s.fld fGL_LODGING_CFG_PORTS 0 l) != 0)))

/-- Table 14.2: whether a lodging reaches a register of a block. -/
def State.csReaches (s : State) (l : Nat) (b : Block) (c r i : Nat) (wr : Bool) : Bool :=
  match b with
  | .gl => if wr then s.glWrites l r i else s.glReads l r i
  | .tm => !wr && (r == rTM_SITE_NOW || r == rTM_DISC_STATUS)
  | .pw => !wr && (r == rPW_STATUS || r == rPW_DOMAIN_CURRENT)
  | .sc => !wr && s.scReads l r i
  | .et => s.etReaches l r i wr
  | .cl => !(wr && (r == rCL_RESET || r == rCL_OWNER)) && s.ownerOf c == some l
  | .sq => s.ownerOf c == some l
  | .co => s.ownerOf (c / 28) == some l
  | _ => false

/-- The cluster of a block's unit, for the blocks of a cluster. -/
def csCluster (b : Block) (u : Nat) : Option Nat :=
  match b with
  | .cl => some u
  | .sq => some u
  | .co => some (u / 28)
  | _ => none

/-- R388, R389: what refuses an access to control space, with the unit that records it; none when it is let through.
A row number beyond the table stands for an address without a register. -/
def State.csRefusal (s : State) (rq : Rq) (a : Nat) (wr : Bool) : Option (Nat × Nat) :=
  match csBlock a with
  | none => if rq.platform then none else some (0x7001, unitHub)
  | some (b, u, o) =>
    let ri := (findRow b o).getD (1000, 0)
    let ok := rq.platform || (match s.lodgingOf rq with
      | some l => s.csReaches l b u ri.1 ri.2 wr
      | none => false)
    match csCluster b u with
    | some c => match s.regGate rq c with
      | some e => some (e, unitCl c 0)
      | none => if ok then none else some (0x7001, unitCl c 0)
    | none => if ok then none else some (0x7001, if streamRow ri.1 then unitSched else unitHub)

/-- R166: a refused write of a stream table entry sets RANGE_REFUSED. -/
def State.rangeRefused (s : State) (a : Nat) (wr : Bool) : State :=
  match csDecode a with
  | some (r, _, _) => s.when (wr && streamRow r) (fun s => s.stick fGL_STREAM_STATUS_RANGE_REFUSED)
  | none => s

/-- A refused access to control space: the record and the error response. -/
def State.csRefuse (s : State) (rq : Rq) (a : Nat) (wr : Bool) (e : Nat × Nat) : State :=
  (s.rangeRefused a wr).refuse rq e.1 e.2 none (unitCluster e.2) a

/-- Table 0.7: the RW fields of a register take the value written. -/
def State.writeRw (s : State) (r u i : Nat) (w : Word) : State := s.writeAcc .rw r u i w

/-- R10: a write ignored because the block is active. -/
def State.busyWrite (s : State) (f : Fld) (u i : Nat) : State := s.stick f u i

/-- The action of a write to a register with a row of its own, or its refusal. -/
def State.csAct (s : State) (rq : Rq) (a : Nat) (f : State → State) : State :=
  match s.csRefusal rq a true with
  | some e => s.csRefuse rq a true e
  | none => f s

end Sys2Proof.Machine
end

