-- ==== Sys2Proof/Machine/Clocks.lean ====
section
/-! DEFINITION. Frequency-step ceilings (11_site_time_and_clocks.md R326, R331): what each loop imposes on a region, the step
that follows, and the fields of TM_REGION_STEP that show them. -/

namespace Sys2Proof.Machine

/-- The loops that impose ceilings (R326). -/
inductive Loop where
  | power | thermal | regulator | burst
  deriving DecidableEq, Repr

def State.ceilMap (s : State) : Loop → SMap Nat
  | .power => s.tm.ceilPower
  | .thermal => s.tm.ceilThermal
  | .regulator => s.tm.ceilRegulator
  | .burst => s.tm.ceilBurst

/-- A ceiling, 7 where none is imposed. The uncore region has none. -/
def State.ceilAt (s : State) (k : Loop) (r : Nat) : Nat :=
  let n := nget (s.ceilMap k) r
  if n = 0 then 7 else n - 1

/-- The lowest ceiling now imposed on a region. -/
def State.ceiling (s : State) (r : Nat) : Nat :=
  min (min (s.ceilAt .power r) (s.ceilAt .thermal r)) (min (s.ceilAt .regulator r) (s.ceilAt .burst r))

/-- R326: the step a region is due to run at: the lowest of the target and the ceilings. -/
def State.stepDue (s : State) (r : Nat) : Nat := min (s.fld fTM_STEP_TARGET_TARGET) (s.ceiling r)

/-- TM_REGION_STEP: CEILING, and the limits that bind. -/
def State.ceilShow (s : State) (r : Nat) : State :=
  let d := s.stepDue r
  let bit := fun (k : Loop) => decide (nget (s.ceilMap k) r ≠ 0) && s.ceilAt k r == d
  let b := (decide (s.fld fTM_STEP_TARGET_TARGET = d)).toNat + 2 * (bit .power).toNat + 4 * (bit .thermal).toNat +
    8 * (bit .regulator).toNat + 16 * (bit .burst).toNat
  (s.put fTM_REGION_STEP_CEILING 0 r (s.ceiling r)).put fTM_REGION_STEP_BINDING 0 r b

/-- A ceiling imposed on a region, or lifted. -/
def State.setCeil (s : State) (k : Loop) (r : Nat) (c : Option Nat) : State :=
  let v := match c with
    | some x => x + 1
    | none => 0
  let tm := match k with
    | .power => { s.tm with ceilPower := nput s.tm.ceilPower r v }
    | .thermal => { s.tm with ceilThermal := nput s.tm.ceilThermal r v }
    | .regulator => { s.tm with ceilRegulator := nput s.tm.ceilRegulator r v }
    | .burst => { s.tm with ceilBurst := nput s.tm.ceilBurst r v }
  { s with tm := tm }.ceilShow r

/-- R390: whether any lodging is open. -/
def State.anyOpen (s : State) : Bool := (List.range 8).any (fun l => s.is fGL_LODGING_CFG_OPEN 0 l)

end Sys2Proof.Machine
end

