-- ==== Sys2Proof/Machine/Flags.lean ====
section
/-! DEFINITION. The numeric status of a core (02_number_formats.md R54): bits are sticky and set by the operations
that round, saturate or lose a NaN. -/

namespace Sys2Proof.Machine

/-- R54: status bits an operation raised are added to CO_NUM_STATUS. -/
def State.numStatus (s : State) (u flags : Nat) : State :=
  if flags = 0 then s
  else s.setReg rCO_NUM_STATUS u 0 (s.reg rCO_NUM_STATUS u 0 ||| BitVec.ofNat 64 flags)

/-- The status bits of many results together. -/
def orFlags (l : List Nat) : Nat := l.foldl (fun a b => a ||| b) 0

end Sys2Proof.Machine
end

