-- ==== Sys2Proof/Machine/Operands.lean ====
section
/-! DEFINITION. Operands of QN instructions (05_qn_instruction_set.md R124, R126-R131, R133, R136, R139-R142): the
registers of a core, instruction fields, predicates, conditions, address forms, descriptors and their walks, the
quad. -/

namespace Sys2Proof.Machine

/-- R124: s0 reads 0 and discards writes. -/
def State.sReg (s : State) (u r : Nat) : Word := if r = 0 then 0#64 else mget zeroW s.core.s (32 * u + r)

def State.setS (s : State) (u r : Nat) (w : Word) : State :=
  if r = 0 then s else { s with core := { s.core with s := mput zeroW s.core.s (32 * u + r) w } }

/-- R124: p0 reads all ones and discards writes. -/
def State.pReg (s : State) (u r : Nat) : Word := if r = 0 then BitVec.allOnes 64 else mget zeroW s.core.p (8 * u + r)

def State.setP (s : State) (u r : Nat) (w : Word) : State :=
  if r = 0 then s else { s with core := { s.core with p := mput zeroW s.core.p (8 * u + r) w } }

/-- R124: lane k of v register r. -/
def State.vLane (s : State) (u r k : Nat) : BitVec 32 := mget zeroL s.core.v ((32 * u + r) * 64 + k)

def State.setLane (s : State) (u r k : Nat) (x : BitVec 32) : State :=
  { s with core := { s.core with v := mput zeroL s.core.v ((32 * u + r) * 64 + k) x } }

def State.vReg (s : State) (u r : Nat) : List (BitVec 32) := (List.range 64).map (fun k => s.vLane u r k)

/-- Lanes of a v register written where the mask has a 1 (R133). -/
def State.setV (s : State) (u r : Nat) (mask : Word) (xs : List (BitVec 32)) : State :=
  s.forEach (List.range 64) (fun k s => if mask.getLsbD k then s.setLane u r k (xs.getD k 0#32) else s)

/-- R124: descriptor r as eight words. -/
def State.dReg (s : State) (u r : Nat) : List Word :=
  (List.range 8).map (fun k => mget zeroW s.core.d ((16 * u + r) * 8 + k))

def State.setDWord (s : State) (u r k : Nat) (w : Word) : State :=
  { s with core := { s.core with d := mput zeroW s.core.d ((16 * u + r) * 8 + k) w } }

def State.setD (s : State) (u r : Nat) (ws : List Word) : State :=
  s.forEach (List.range 8) (fun k s => s.setDWord u r k (ws.getD k 0#64))

/-- The program counter and its advance by one word, modulo 2^40. -/
def State.pc (s : State) (u : Nat) : Nat := s.fld fCO_CORE_STATUS_PC u

def State.setPc (s : State) (u pc : Nat) : State := s.put fCO_CORE_STATUS_PC u 0 pc

def State.advance (s : State) (u n : Nat) : State := s.setPc u (s.pc u + n)

def xPred (x : Payload) : Nat := fieldOf 23 3 x.toNat
def xNeg (x : Payload) : Bool := x.getLsbD 22
def xD (x : Payload) : Nat := fieldOf 17 5 x.toNat
def xA (x : Payload) : Nat := fieldOf 12 5 x.toNat
def xB (x : Payload) : Nat := fieldOf 7 5 x.toNat
def xFn (x : Payload) : Nat := fieldOf 0 7 x.toNat
def xImm12 (x : Payload) : Int := signed 12 x.toNat
def xSz (x : Payload) : Nat := fieldOf 10 2 x.toNat
def xImm10 (x : Payload) : Int := signed 10 x.toNat

/-- R133: the lanes of a predicate after inversion, and whether a scalar or control instruction executes. -/
def State.predMask (s : State) (u p : Nat) (neg : Bool) : Word := if neg then ~~~ (s.pReg u p) else s.pReg u p

def State.predOk (s : State) (u p : Nat) (neg : Bool) : Bool := (s.predMask u p neg).getLsbD 0

/-- R136: the conditions; codes 0xC to 0xF are reserved. -/
def condInt {w : Nat} (c : Nat) (a b : BitVec w) : Bool :=
  match c with
  | 0 => a == b
  | 1 => a != b
  | 2 => BitVec.slt a b
  | 3 => !BitVec.slt a b
  | 4 => BitVec.ult a b
  | _ => !BitVec.ult a b

def condFp (c : Nat) (a b : BitVec 32) : Bool :=
  let x := valF32 a
  let y := valF32 b
  match c with
  | 6 => x.feq y
  | 7 => !x.feq y
  | 8 => x.lt y
  | 9 => !x.isNan && !y.isNan && !x.lt y
  | 10 => x.isNan || y.isNan
  | _ => !x.isNan && !y.isNan

def condScalar (c : Nat) (a b : Word) : Bool :=
  if c < 6 then condInt c a b else condFp c (a.setWidth 32) (b.setWidth 32)

def condLane (c : Nat) (a b : BitVec 32) : Bool := if c < 6 then condInt c a b else condFp c a b

/-- R126, Table 5.2: the forms of an address: 0 virtual, 1 SRAM, 2 control space, 3 none. -/
def addrForm (a : Nat) : Nat :=
  if a < 0x010000000000 then 0
  else if a < 0x010300000000 then 1
  else if 0x0F0000000000 ≤ a ∧ a < 0x100000000000 then 2
  else 3

/-- A base register plus a displacement, modulo 2^64. -/
def addrOf (b : Word) (d : Int) : Nat := (b + BitVec.ofInt 64 d).toNat

/-- Table 5.11: fields of a descriptor. -/
def descBits (d : List Word) (lo w : Nat) : Nat :=
  let n := d.foldr (fun x a => x.toNat + 2 ^ 64 * a) 0
  fieldOf lo w n

def descCount (d : List Word) (k : Nat) : Nat := descBits d (32 * k) 32
def descStride (d : List Word) (k : Nat) : Int := signed 40 (descBits d (192 + 40 * k) 40)
def descOffset (d : List Word) : Int := signed 48 (descBits d 432 48)
def descLevels (d : List Word) : Nat := descBits d 480 3

/-- R143: a record that LDD takes: LEVELS at most 6 and the must-be-0 fields 0. -/
def descOk (d : List Word) : Bool := decide (descBits d 480 8 ≤ 6) && descBits d 488 24 == 0

/-- The number of walk points of a descriptor, without walking it (R141, R142). -/
def walkCount (d : List Word) : Nat := (List.range (descLevels d)).foldl (fun a k => a * descCount d k) 1

/-- R141: walk point number i in the order of emission: each level's index is a digit of i, level 0 lowest. -/
def walkOff (d : List Word) : List Nat → Nat → Int
  | [], _ => 0
  | k :: ks, i => descStride d k * ((i % descCount d k : Nat) : Int) + walkOff d ks (i / descCount d k)

/-- R141: walk point i as an exact integer. -/
def walkPoint (base : Int) (d : List Word) (i : Nat) : Int :=
  base + descOffset d + walkOff d (List.range (descLevels d)) i

/-- Fields of a long instruction (Table 5.4). -/
def lSA (w0 : BitVec 32) : Nat := fieldOf 17 5 w0.toNat
def lDA (w0 : BitVec 32) : Nat := fieldOf 13 4 w0.toNat
def lSB (w0 : BitVec 32) : Nat := fieldOf 8 5 w0.toNat
def lDB (w0 : BitVec 32) : Nat := fieldOf 4 4 w0.toNat
def lSub (w0 : BitVec 32) : Nat := fieldOf 0 4 w0.toNat
def lPred (w0 : BitVec 32) : Nat := fieldOf 23 3 w0.toNat
def lNeg (w0 : BitVec 32) : Bool := w0.getLsbD 22
def lOpc (w0 : BitVec 32) : Nat := fieldOf 26 6 w0.toNat
def lSY (w1 : BitVec 32) : Nat := fieldOf 27 5 w1.toNat
def lDY (w1 : BitVec 32) : Nat := fieldOf 23 4 w1.toNat
def lQ (w1 : BitVec 32) : Nat := fieldOf 20 3 w1.toNat
def lTag (w1 : BitVec 32) : Nat := fieldOf 8 12 w1.toNat
def lZero (w1 : BitVec 32) : Nat := fieldOf 0 8 w1.toNat

/-- The quad as a record (Table 5.5). -/
structure Quad where
  fmtA : Nat := 9
  fmtB : Nat := 9
  fmtD : Nat := 9
  taps : Nat := 0
  dil : Nat := 0
  sparse : Nat := 0
  split : Bool := false
  pair : Bool := false
  splitOp : Bool := false
  tileMap : Bool := false
  zmapIn : Bool := false
  zmapOut : Bool := false
  src2 : Bool := false
  scaleA : Bool := false
  scaleB : Bool := false
  sat : Bool := false
  sr : Bool := false
  ftz : Bool := false
  sig : Bool := false
  sigAmount : Nat := 0
  sigSem : Nat := 0
  scaleAVal : BitVec 32 := 0x3F800000#32
  scaleBVal : BitVec 32 := 0x3F800000#32
  tileMapBase : Nat := 0
  zinBase : Nat := 0
  zoutBase : Nat := 0
  scaleABase : Nat := 0
  scaleBBase : Nat := 0
  src2Base : Nat := 0
  mustZero : Bool := true
  deriving DecidableEq, Repr

/-- Table 5.5: the four latched words decoded; with no words (Q = 0) the defaults: FP32, IEEE mode, round to nearest
even, no scales, no signal. -/
def quadOf (q : List Word) : Quad :=
  if q = [] then {}
  else
    let w := recWord q 0
    let x := recWord q 2
    let y := recWord q 3
    { fmtA := fieldOf 60 4 w, fmtB := fieldOf 56 4 w, fmtD := fieldOf 52 4 w, taps := fieldOf 48 4 w,
      dil := fieldOf 46 2 w, sparse := fieldOf 44 2 w, split := w.testBit 43, pair := w.testBit 42,
      splitOp := w.testBit 41, tileMap := w.testBit 40, zmapIn := w.testBit 39, zmapOut := w.testBit 38,
      src2 := w.testBit 37, scaleA := w.testBit 36, scaleB := w.testBit 35, sat := w.testBit 34, sr := w.testBit 33,
      ftz := w.testBit 32, sig := w.testBit 30, sigAmount := fieldOf 14 16 w,
      sigSem := 256 * fieldOf 8 6 w + fieldOf 0 8 w,
      scaleAVal := BitVec.ofNat 32 (recWord q 1), scaleBVal := BitVec.ofNat 32 (recWord q 1 / 2 ^ 32),
      tileMapBase := fieldOf 40 20 x, zinBase := fieldOf 20 20 x, zoutBase := fieldOf 0 20 x,
      scaleABase := fieldOf 40 20 y, scaleBBase := fieldOf 20 20 y, src2Base := fieldOf 0 20 y,
      mustZero := !w.testBit 31 && fieldOf 60 4 x == 0 && fieldOf 60 4 y == 0 }

end Sys2Proof.Machine
end

