-- ==== Sys2Proof/Machine/Scalar.lean ====
section
/-! DEFINITION. Scalar, predicate, control and descriptor instructions of QN that make no memory request
(05_qn_instruction_set.md R132-R137, R143, R156, R178, R186). A command of this family is the issue of one instruction
of a core's own program: `u` is the core slot of the device (cluster * 28 + slot), `x` bits 25:0 of the word. -/

namespace Sys2Proof.Machine

/-- R26, R160, R176: the contract level an instruction executes at: the level in force, 3 before any program. -/
def State.level (s : State) (u : Nat) : Nat :=
  if s.fld fCO_CORE_STATUS_LEVEL u = 0 then 3 else s.fld fCO_CORE_STATUS_LEVEL u

/-- R145: whether a pending REDUCE of the core will write one of the registers. -/
def State.regPending (s : State) (u : Nat) (regs : List Nat) : Bool :=
  s.core.ops.any (fun o => o.u == u && o.opc == 0x24 && lSY o.latch.w1 != 0 && regs.contains (lSY o.latch.w1))

/-- R145: whether the vector unit still has a REDUCE or ZMAP of the core. -/
def State.vecBusy (s : State) (u : Nat) : Bool := s.core.ops.any (fun o => o.u == u && (o.opc == 0x24 || o.opc == 0x25))

/-- R144: the instructions of the matrix path, and those of a core not yet committed. -/
def matrixOpc (o : Nat) : Bool := decide (o < 0x23)

def State.matrixPending (s : State) (u : Nat) : List LongOp :=
  s.core.ops.filter (fun o => o.u == u && matrixOpc o.opc && opPending o)

/-- R144: the free generators of a core in ascending order. -/
def State.freeGens (s : State) (u : Nat) : List Nat :=
  (List.range 4).filter (fun g => !(s.fld fCO_CORE_STATUS_AG_BUSY u).testBit g)

/-- R144: the B walk of a MATMUL whose last step has been carried out has ended. -/
def bEnded (o : LongOp) : Bool := o.opc == 0x20 && o.next.isNone && o.gens != 0

/-- R144, R145: whether the unit of an instruction accepts it; one without walk points needs no generator (R142). -/
def State.unitTakes (s : State) (u opc : Nat) (empty : Bool) : Bool :=
  let gen := empty || !(s.freeGens u).isEmpty
  if opc = 0x20 then decide ((s.matrixPending u).length < 2) && (gen || (s.matrixPending u).any bEnded)
  else if opc < 0x23 then (s.matrixPending u).isEmpty && gen
  else if opc = 0x23 then decide (s.fld fCO_CORE_STATUS_DMA_QUEUE u < 8)
  else !s.vecBusy u && gen

/-- R142: whether a latched instruction has walk points: none when a count in use is 0. -/
def hasPoints (ds : List (List Word)) : Bool := ds.all (fun d => walkCount d != 0)

/-- Table 5.12: the descriptors that a long instruction walks. -/
def walkedBy (opc : Nat) (lt : Latch) : List (List Word) :=
  if opc = 0x20 then [lt.da, lt.db, lt.dy]
  else if opc = 0x21 then (if lSB lt.w0 = 0 then [lt.da, lt.dy] else [lt.da, lt.dy, lt.db])
  else if opc = 0x22 then [lt.dy]
  else if opc = 0x23 then (if List.contains [1, 5, 7, 8] (lSub lt.w0) then [lt.dy] else [lt.da])
  else [lt.da]

/-- R142: a long instruction without walk points. -/
def longEmpty (opc : Nat) (lt : Latch) : Bool := !hasPoints (walkedBy opc lt)

/-- The scalars a long instruction names. -/
def lRegs (w0 w1 : BitVec 32) : List Nat :=
  [lSA w0, lSB w0, lSY w1] ++ (if lQ w1 = 0 then [] else (List.range 4).map (fun k => 4 * lQ w1 + k)) ++
    (if lOpc w0 = 0x23 ∧ (lSub w0 = 6 ∨ lSub w0 = 7) then [lSB w0 + 1] else [])

/-- The quad registers a long instruction names; none with Q = 0. -/
def State.quadWords (s : State) (u : Nat) (w1 : BitVec 32) : List Word :=
  if lQ w1 = 0 then [] else (List.range 4).map (fun k => s.sReg u (4 * lQ w1 + k))

/-- R176: the base value of an operand: the record's when its LOAD bit is 1, with the per-core stride where STRIDE_ON names that
field of the record; else the register's. -/
def bcastBase (record : List Word) (k l : Nat) (reg : Word) : Word :=
  let r0 := recWord record 0
  let v := record.getD (4 + k) 0#64
  if !r0.testBit (27 + k) then reg
  else if fieldOf 30 2 r0 = k + 1 then v + BitVec.ofNat 64 l * record.getD 3 0#64 else v

/-- R175, R176, R180: a broadcast instruction latched at issue. -/
def State.latchBcast (s : State) (u : Nat) (e : BQEntry) : Latch :=
  let insn := recWord e.record 2
  let w0 := BitVec.ofNat 32 insn
  let w1 := BitVec.ofNat 32 (insn / 2 ^ 32)
  let pack := e.pack ≠ []
  { w0 := w0, w1 := w1, a := bcastBase e.record 0 e.l (s.sReg u (lSA w0)),
    b := bcastBase e.record 1 e.l (s.sReg u (lSB w0)), b1 := s.sReg u (lSB w0 + 1),
    y := bcastBase e.record 2 e.l (s.sReg u (lSY w1)),
    da := if pack then e.pack.take 8 else s.dReg u (lDA w0),
    db := if pack then (e.pack.drop 8).take 8 else s.dReg u (lDB w0),
    dy := if pack then (e.pack.drop 16).take 8 else s.dReg u (lDY w1),
    quad := if pack then (e.pack.drop 24).take 4 else s.quadWords u w1,
    level := s.level u, bcast := true, waybill := recWaybill e.record, stream := recStream e.record,
    tag := lTag w1, pc := e.pos }

/-- The head of a slot's broadcast queue. -/
def State.bqHead (s : State) (u : Nat) : Option BQEntry :=
  s.core.bq.find? (fun e => e.c == u / 28 && s.slotOf e.c e.l == u % 28)

/-- R175: the states in which a broadcast issues: idle, running, waiting or completing. -/
def State.takesBcast (s : State) (u : Nat) : Bool :=
  decide (s.fld fCO_CORE_STATUS_STATE u < 4) && !s.slotHeld u && !s.coreHalted u && !s.clockStopped (u / 28) &&
    !s.gangPaused

/-- R175: whether the head of the broadcast queue can issue: its unit and a generator are free, and no REDUCE will write a
register it names. -/
def State.bqReady (s : State) (u : Nat) (e : BQEntry) : Bool :=
  let lt := s.latchBcast u e
  s.takesBcast u && s.unitTakes u (lOpc lt.w0) (longEmpty (lOpc lt.w0) lt) && !s.regPending u (lRegs lt.w0 lt.w1)

/-- R145, R175: an instruction of the program issues only while the core runs, no register it names awaits a REDUCE, and no
broadcast goes before it. -/
def State.issues (s : State) (u : Nat) (regs : List Nat) : Bool :=
  s.fld fCO_CORE_STATUS_STATE u == 1 && nget s.core.wait u == 0 && !s.slotHeld u && !s.coreHalted u && !s.clockStopped (u / 28) &&
    !s.regPending u regs && !(s.bqHead u).any (s.bqReady u)

/-- R133: a predicated scalar or control instruction: the body when its predicate lets it execute, else only the
program counter advances. -/
def State.predicated (s : State) (u : Nat) (x : Payload) (body : State → State) : State :=
  if s.predOk u (xPred x) (xNeg x) then body s else s.advance u 4

/-- A scalar result and the next instruction. -/
def State.retire (s : State) (u rd : Nat) (w : Word) : State := (s.setS u rd w).advance u 4

/-- R134: the integer functions of Table 5.7; none for the others. -/
def aluInt (fn : Nat) (a b : Word) : Option Word :=
  match fn with
  | 0x00 => some (a + b)
  | 0x01 => some (a - b)
  | 0x02 => some (a &&& b)
  | 0x03 => some (a ||| b)
  | 0x04 => some (a ^^^ b)
  | 0x05 => some (a <<< (b.toNat % 64))
  | 0x06 => some (a >>> (b.toNat % 64))
  | 0x07 => some (BitVec.sshiftRight a (b.toNat % 64))
  | 0x08 => some (a * b)
  | 0x09 => some (BitVec.ofNat 64 (a.toNat * b.toNat / 2 ^ 64))
  | 0x0A => some (if b = 0#64 then BitVec.allOnes 64 else BitVec.sdiv a b)
  | 0x0B => some (if b = 0#64 then BitVec.allOnes 64 else BitVec.udiv a b)
  | 0x0C => some (if b = 0#64 then a else BitVec.srem a b)
  | 0x0D => some (if b = 0#64 then a else BitVec.umod a b)
  | 0x0E => some (if BitVec.slt b a then b else a)
  | 0x0F => some (if BitVec.slt a b then b else a)
  | 0x18 => some (f2i (a.setWidth 32))
  | _ => none

/-- R134: the FP32 functions of Table 5.7, with the status bits they raise; none for the others. -/
def aluFp (fn : Nat) (a b : Word) : Option (BitVec 32 × Nat) :=
  let x := a.setWidth 32
  let y := b.setWidth 32
  match fn with
  | 0x10 => some (fadd x y)
  | 0x11 => some (fsub x y)
  | 0x12 => some (fmul x y)
  | 0x13 => some (fdiv x y)
  | 0x14 => some (fminmax false x y, 0)
  | 0x15 => some (fminmax true x y, 0)
  | 0x16 => some (fsqrt x)
  | 0x17 => some (i2f a, 0)
  | _ => none

def State.aluBody (s : State) (u : Nat) (x : Payload) : State :=
  match aluInt (xFn x) (s.sReg u (xA x)) (s.sReg u (xB x)) with
  | some w => s.retire u (xD x) w
  | none =>
    match aluFp (xFn x) (s.sReg u (xA x)) (s.sReg u (xB x)) with
    | some p => (s.numStatus u p.2).retire u (xD x) (p.1.setWidth 64)
    | none => s.progFault u 0x4101 0

def execAlu (u : Nat) (x : Payload) (s : State) : Outcome :=
  s.guard (s.issues u [xD x, xA x, xB x]) (fun s => s.predicated u x (fun s => s.aluBody u x))

/-- R135: an immediate form: sA, sign-extended IMM12 and an operation. -/
def State.immForm (s : State) (u : Nat) (x : Payload) (f : Word → Word → Word) : State :=
  s.predicated u x (fun s => s.retire u (xD x) (f (s.sReg u (xA x)) (BitVec.ofInt 64 (xImm12 x))))

def execAddi (u : Nat) (x : Payload) (s : State) : Outcome :=
  s.guard (s.issues u [xD x, xA x]) (fun s => s.immForm u x (fun a b => a + b))

def execAndi (u : Nat) (x : Payload) (s : State) : Outcome :=
  s.guard (s.issues u [xD x, xA x]) (fun s => s.immForm u x (fun a b => a &&& b))

def execOri (u : Nat) (x : Payload) (s : State) : Outcome :=
  s.guard (s.issues u [xD x, xA x]) (fun s => s.immForm u x (fun a b => a ||| b))

def execXori (u : Nat) (x : Payload) (s : State) : Outcome :=
  s.guard (s.issues u [xD x, xA x]) (fun s => s.immForm u x (fun a b => a ^^^ b))

/-- R135: the shift of IMM12: kind in bits 7:6, amount in bits 5:0, bits 11:8 must be 0. -/
def shiftImm (x : Payload) (a : Word) : Option Word :=
  let n := fieldOf 0 6 x.toNat
  if fieldOf 8 4 x.toNat ≠ 0 then none
  else match fieldOf 6 2 x.toNat with
    | 0 => some (a <<< n)
    | 1 => some (a >>> n)
    | 2 => some (BitVec.sshiftRight a n)
    | _ => none

def State.shiBody (s : State) (u : Nat) (x : Payload) : State :=
  match shiftImm x (s.sReg u (xA x)) with
  | some w => s.retire u (xD x) w
  | none => s.progFault u 0x4101 0

def execShi (u : Nat) (x : Payload) (s : State) : Outcome :=
  s.guard (s.issues u [xD x, xA x]) (fun s => s.predicated u x (fun s => s.shiBody u x))

/-- R135: LIH, form U: RD at 25:21, POS at 20:19, CLR at 18, 17:16 must be 0. -/
def lihRd (x : Payload) : Nat := fieldOf 21 5 x.toNat
def lihPos (x : Payload) : Nat := fieldOf 19 2 x.toNat

def lihWord (x : Payload) (old : Word) : Word :=
  let keep := if x.getLsbD 18 then 0 else old.toNat
  BitVec.ofNat 64 (withField (16 * lihPos x) 16 keep (fieldOf 0 16 x.toNat))

def State.lihBody (s : State) (u : Nat) (x : Payload) : State :=
  if fieldOf 16 2 x.toNat ≠ 0 then s.progFault u 0x4101 0
  else s.retire u (lihRd x) (lihWord x (s.sReg u (lihRd x)))

def execLih (u : Nat) (x : Payload) (s : State) : Outcome :=
  s.guard (s.issues u [lihRd x]) (fun s => s.lihBody u x)

/-- R135: CMP: the predicate RD[2:0] takes 64 copies of the result; FN[6:4] and RD[4:3] must be 0. -/
def State.cmpBody (s : State) (u : Nat) (x : Payload) : State :=
  if 12 ≤ xFn x ∨ 8 ≤ xD x then s.progFault u 0x4101 0
  else
    let r := condScalar (xFn x) (s.sReg u (xA x)) (s.sReg u (xB x))
    (s.setP u (xD x) (if r then BitVec.allOnes 64 else 0#64)).advance u 4

def execCmp (u : Nat) (x : Payload) (s : State) : Outcome :=
  s.guard (s.issues u [xA x, xB x]) (fun s => s.predicated u x (fun s => s.cmpBody u x))

/-- R135: PLOG on predicates RD[2:0], RA[2:0], RB[2:0]; functions 5 and 6 move between a predicate and a scalar. -/
def State.plogBody (s : State) (u : Nat) (x : Payload) : State :=
  let a := s.pReg u (xA x % 8)
  let b := s.pReg u (xB x % 8)
  let d := xD x % 8
  match xFn x with
  | 0 => (s.setP u d (a &&& b)).advance u 4
  | 1 => (s.setP u d (a ||| b)).advance u 4
  | 2 => (s.setP u d (a ^^^ b)).advance u 4
  | 3 => (s.setP u d (a &&& ~~~ b)).advance u 4
  | 4 => (s.setP u d (~~~ a)).advance u 4
  | 5 => (s.setP u d (s.sReg u (xA x))).advance u 4
  | 6 => s.retire u (xD x) a
  | _ => s.progFault u 0x4101 0

def execPlog (u : Nat) (x : Payload) (s : State) : Outcome :=
  s.guard (s.issues u [xD x, xA x]) (fun s => s.predicated u x (fun s => s.plogBody u x))

/-- The program counter plus a displacement in words, modulo 2^40. -/
def State.jump (s : State) (u : Nat) (words : Int) : State :=
  s.setPc u (((s.pc u : Int) + 4 * words) % (2 ^ 40 : Nat)).toNat

/-- R135: BR, form B: COND at 25:22, RA at 21:17, RB at 16:12, OFF12 in words. -/
def State.branchBody (s : State) (u : Nat) (x : Payload) : State :=
  let c := fieldOf 22 4 x.toNat
  if 12 ≤ c then s.progFault u 0x4101 0
  else if condScalar c (s.sReg u (xD x)) (s.sReg u (xA x)) then s.jump u (xImm12 x)
  else s.advance u 4

def execBr (u : Nat) (x : Payload) (s : State) : Outcome :=
  s.guard (s.issues u [xD x, xA x]) (fun s => s.branchBody u x)

def execJ (u : Nat) (x : Payload) (s : State) : Outcome :=
  s.guard (s.issues u []) (fun s => s.predicated u x (fun s => s.jump u (signed 22 x.toNat)))

/-- R135: JR: sA, read before sD is written, is the target. -/
def State.jrBody (s : State) (u : Nat) (x : Payload) : State :=
  let t := (s.sReg u (xA x)).toNat
  if t % 4 ≠ 0 ∨ 2 ^ 40 ≤ t then s.progFault u 0x4102 t
  else (s.setS u (xD x) (BitVec.ofNat 64 ((s.pc u + 4) % 2 ^ 40))).setPc u t

def execJr (u : Nat) (x : Payload) (s : State) : Outcome :=
  s.guard (s.issues u [xD x, xA x]) (fun s => s.predicated u x (fun s => s.jrBody u x))

/-- R137: a SYS function whose constructor names it. A word with another FN is not this command (log 4). -/
def State.sys (s : State) (u fn : Nat) (x : Payload) (regs : List Nat) (body : State → State) : Outcome :=
  s.guard (s.issues u regs && xFn x == fn) (fun s => s.predicated u x body)

/-- A SYS with a reserved FN, above 10, has no row of its own: it is issued here and faults with 0x4101 (R137, R159). -/
def execSysNop (u : Nat) (x : Payload) (s : State) : Outcome :=
  if 10 < xFn x then s.sys u (xFn x) x [] (fun s => s.progFault u 0x4101 0)
  else s.sys u 0 x [] (fun s => s.advance u 4)

/-- R137: END issues nothing further. -/
def execSysEnd (u : Nat) (x : Payload) (s : State) : Outcome :=
  s.sys u 1 x [] (fun s => (s.advance u 4).put fCO_CORE_STATUS_STATE u 0 3)

/-- R178: a program ends when its END has been issued and every earlier long instruction has completed. -/
def State.programEnd (s : State) (u : Nat) : State :=
  (s.put fCO_CORE_STATUS_STATE u 0 0).coreDone (nget s.core.group u) (s.logicalOf u)

def execProgramEnd (u : Nat) (s : State) : Outcome :=
  s.guard (s.fld fCO_CORE_STATUS_STATE u == 3 && s.core.ops.all (fun o => o.u != u)) (fun s => s.programEnd u)

/-- R137: whether instructions of the classes of a FENCE mask are still under way: 1 matrix path, 2 DMA, 4 vector unit,
8 loads and stores. -/
def opClass (opc : Nat) : Nat := if opc < 0x23 then 0 else if opc = 0x23 then 1 else 2

def State.fencePending (s : State) (u mask : Nat) : Bool :=
  s.core.ops.any (fun o => o.u == u && mask.testBit (opClass o.opc)) ||
    (mask.testBit 3 && s.net.resps.any (fun r => r.rq == .core u && r.op == 0))

/-- A core begins to wait: kind 1 a grant, 2 a FENCE, 3 a QPUT. A QPUT leaves the state at running. -/
def State.coreWait (s : State) (u kind arg : Nat) : State :=
  let s := { s with core := { s.core with wait := nput s.core.wait u kind, waitArg := nput s.core.waitArg u arg,
                                          waitSince := nput s.core.waitSince u s.now,
                                          waitLimit := nput s.core.waitLimit u (s.streamLimit (nget s.core.stream u)) } }
  s.put fCO_CORE_STATUS_STATE u 0 2

/-- A core's wait ends and its program goes on. -/
def State.coreWake (s : State) (u : Nat) : State :=
  ((s.clearWait u).put fCO_CORE_STATUS_STATE u 0 1).advance u 4

def execSysFence (u : Nat) (x : Payload) (s : State) : Outcome :=
  s.sys u 2 x [] (fun s => if s.fencePending u (xB x % 16) then s.coreWait u 2 (xB x % 16) else s.advance u 4)

/-- A FENCE whose classes have all completed ends. -/
def State.fenceCheck (s : State) (u : Nat) : State :=
  if nget s.core.wait u = 2 ∧ !s.fencePending u (nget s.core.waitArg u) then s.coreWake u else s

/-- R100, R103, R137: SEMWAIT: a wait message is sent and the core blocks; a wait of amount 0 completes at once. -/
def State.semWaitBody (s : State) (u : Nat) (x : Payload) : State :=
  let w := (s.sReg u (xA x)).toNat
  if !semWordOk w then s.progFault u 0x4101 0
  else if semAmount w = 0 then s.advance u 4
  else
    let m : SemWait := { sem := semName w, seq := false, who := u, amount := semAmount w }
    { s with net := { s.net with waitMsgs := s.net.waitMsgs ++ [m] } }.coreWait u 1 w

def execSemwait (u : Nat) (x : Payload) (s : State) : Outcome := s.sys u 3 x [xA x] (fun s => s.semWaitBody u x)

/-- R102: a signal of a core: sent once every earlier long instruction has completed and every earlier store has been
acknowledged. -/
def State.coreSignal (s : State) (u sem amount : Nat) : State :=
  let after := (s.core.ops.filter (fun o => o.u == u)).map (fun o => o.id)
  let acks := (s.net.resps.filter (fun r => r.rq == .core u)).map Resp.id
  let way := nget s.core.waybill u
  if after = [] ∧ acks = [] then s.sendSignal sem amount way (unitIssue u) ((s.ownerOf (u / 28)).getD 0xFF)
    (nget s.core.stream u)
  else { s with core := { s.core with heldSigs := s.core.heldSigs ++ [⟨u, after, sem, amount, way, acks⟩] } }

/-- R102: signals held for earlier work go out once the last of it has ended. -/
def State.sendDue (s : State) : State :=
  let ready := fun (h : HeldSig) => h.after == [] && h.acks == []
  let due := s.core.heldSigs.filter ready
  { s with core := { s.core with heldSigs := s.core.heldSigs.filter (fun h => !ready h) } }.forEach due (fun h s =>
    s.sendSignal h.sem h.amount h.waybill (unitIssue h.u) ((s.ownerOf (h.u / 28)).getD 0xFF) (nget s.core.stream h.u))

/-- A long instruction of a core has ended. -/
def State.sendHeld (s : State) (u id : Nat) : State :=
  let f := fun (h : HeldSig) => if h.u = u then { h with after := h.after.filter (fun k => k != id) } else h
  { s with core := { s.core with heldSigs := s.core.heldSigs.map f } }.sendDue

/-- A store's request has been answered. -/
def State.sendAcked (s : State) (id : Nat) : State :=
  let f := fun (h : HeldSig) => { h with acks := h.acks.filter (fun k => k != id) }
  { s with core := { s.core with heldSigs := s.core.heldSigs.map f } }.sendDue

def State.semSigBody (s : State) (u : Nat) (x : Payload) : State :=
  let w := (s.sReg u (xA x)).toNat
  if !semWordOk w then s.progFault u 0x4101 0
  else (s.coreSignal u (semName w) (semAmount w)).advance u 4

def execSemsig (u : Nat) (x : Payload) (s : State) : Outcome := s.sys u 4 x [xA x] (fun s => s.semSigBody u x)

/-- R156: every line of a core's instruction cache dropped. -/
def State.icInv (s : State) (u : Nat) : State :=
  { s with core := { s.core with icache := s.core.icache.filter (fun l => l.u != u) } }

def execSysIcinv (u : Nat) (x : Payload) (s : State) : Outcome := s.sys u 5 x [] (fun s => (s.icInv u).advance u 4)

/-- R137, R159: TRAP raises fault 0x4107 with sA, truncated to 48 bits, as the fault address. -/
def execSysTrap (u : Nat) (x : Payload) (s : State) : Outcome :=
  s.sys u 6 x [xA x] (fun s => s.progFault u 0x4107 ((s.sReg u (xA x)).toNat % 2 ^ 48))

def execRdtime (u : Nat) (x : Payload) (s : State) : Outcome :=
  s.sys u 7 x [xD x] (fun s => s.retire u (xD x) (BitVec.ofNat 64 (s.regionNow (u / 28))))

/-- R137: logical core, cluster, lodging and level in force. -/
def State.coreWord (s : State) (u : Nat) : Word :=
  BitVec.ofNat 64 (s.logicalOf u + (u / 28) <<< 5 + s.fld fCL_OWNER_LODGING (u / 28) <<< 11 +
    s.fld fCO_CORE_STATUS_LEVEL u <<< 14)

def execRdcore (u : Nat) (x : Payload) (s : State) : Outcome :=
  s.sys u 8 x [xD x] (fun s => s.retire u (xD x) (s.coreWord u))

def execRdbase (u : Nat) (x : Payload) (s : State) : Outcome :=
  s.sys u 10 x [xD x] (fun s => s.retire u (xD x) (BitVec.ofNat 64 (logicalWindow (u / 28) (s.logicalOf u))))

/-- R186: the key of a reduction slot: cluster, logical core, number. -/
def redKey (c l n : Nat) : Nat := (32 * c + l) * 16 + n

/-- R186, Table 5.14: FP32 combination in ascending order of logical core. -/
def redSum (xs : List (BitVec 32)) : BitVec 32 :=
  match xs with
  | [] => 0#32
  | x :: l => l.foldl (fun a b => (fadd a b).1) (toF32 (valF32 x))

def redMinMax (isMax : Bool) (xs : List (BitVec 32)) : BitVec 32 :=
  match xs with
  | [] => if isMax then 0xFF800000#32 else 0x7F800000#32
  | x :: l => l.foldl (fun a b => fminmax isMax a b) (if (valF32 x).isNan then 0x7FC00000#32 else x)

/-- The key of the first maximum among numbered elements; all ones when every one is NaN or there is none. -/
def argMaxOf (xs : List (Nat × BitVec 32)) : Word :=
  let step := fun (acc : Option (Nat × BitVec 32)) (p : Nat × BitVec 32) =>
    if (valF32 p.2).isNan then acc
    else match acc with
      | none => some p
      | some q => if (valF32 q.2).lt (valF32 p.2) then some p else acc
  match xs.foldl step none with
  | some p => BitVec.ofNat 64 p.1
  | none => BitVec.allOnes 64

/-- R186: the combination of the contributions, by OP. -/
def redCombine (op : Nat) (xs : List (Nat × Word)) : Word :=
  let fs := xs.map (fun p => p.2.setWidth 32)
  match op with
  | 0 => (redSum fs).setWidth 64
  | 1 => (redMinMax true fs).setWidth 64
  | 2 => (redMinMax false fs).setWidth 64
  | 3 => argMaxOf (xs.map (fun p => (p.1, p.2.setWidth 32)))
  | _ => xs.foldl (fun a p => a + p.2) 0#64

/-- The logical cores a mask names, in ascending order. -/
def maskCores (m : Nat) : List Nat := (List.range 24).filter (fun l => m.testBit l)

/-- R18, R311: whether a logical core is present. -/
def State.present (s : State) (c l : Nat) : Bool := (s.fld fCL_CORE_COUNT_PRESENT c).testBit l

/-- R186: a filled slot. -/
def State.fillSlot (s : State) (c l n : Nat) (w : Word) : State :=
  { s with core := { s.core with slotFull := nput s.core.slotFull (redKey c l n) 1,
                                 slotVal := mput zeroW s.core.slotVal (redKey c l n) w } }

/-- R186: slots consumed; a QPUT that waited on one of them fills it and its core goes on. -/
def State.consumeSlot (s : State) (c n l : Nat) : State :=
  let s := { s with core := { s.core with slotFull := nput s.core.slotFull (redKey c l n) 0 } }
  let u := 28 * c + s.slotOf c l
  if nget s.core.wait u = 3 ∧ nget s.core.waitArg u % 16 = n then
    (s.fillSlot c l n (BitVec.ofNat 64 (nget s.core.waitArg u / 16))).coreWake u
  else s

/-- The REDUCE_Q waits of a cluster on a number, in issue order. -/
def State.reduceWaits (s : State) (c n : Nat) : List (Nat × SlotWait) :=
  let ws := s.sq.waits.filterMap (fun p => match p.2 with
    | some w => if w.obj = objName 3 c n then some (p.1, w) else none
    | none => none)
  ws.filter (fun p => ws.all (fun q => decide (p.2.order ≤ q.2.order)))

/-- R186: the earliest REDUCE_Q on a number completes when the slots of all its cores are full. The first argument
bounds the number of completions. -/
def State.reduceGo : Nat → State → Nat → Nat → State
  | 0, s, _, _ => s
  | k + 1, s, c, n =>
    match s.reduceWaits c n with
    | [] => s
    | (key, w) :: _ =>
      let ls := w.cores
      if ls.all (fun l => nget s.core.slotFull (redKey c l n) == 1) then
        let vals := ls.map (fun l => (l, mget zeroW s.core.slotVal (redKey c l n)))
        let r0 := recWord w.record 0
        let s := s.setReg rSQ_Q c (fieldOf 0 4 r0) (redCombine (fieldOf 8 3 r0) vals)
        State.reduceGo k ((s.forEach ls (fun l s => s.consumeSlot c n l)).waitMet (key / 16) (key % 16)) c n
      else s

def State.reduceCheck (s : State) (c n : Nat) : State := State.reduceGo (16 * 2) s c n

/-- R186: QPUT fills its slot, or waits while the slot holds a value that has not been consumed; the core then keeps
the number and the value it waits with. -/
def State.qputBody (s : State) (u : Nat) (x : Payload) : State :=
  let c := u / 28
  let l := s.logicalOf u
  let n := (s.sReg u (xB x)).toNat % 16
  let v := s.sReg u (xA x)
  if s.level u < 3 then s.progFault u 0x4101 0
  else if nget s.core.slotFull (redKey c l n) = 1 then
    (s.coreWait u 3 (n + 16 * v.toNat)).put fCO_CORE_STATUS_STATE u 0 1
  else ((s.fillSlot c l n v).advance u 4).reduceCheck c n

def execQput (u : Nat) (x : Payload) (s : State) : Outcome :=
  s.sys u 9 x [xA x, xB x] (fun s => s.qputBody u x)

/-- R143: a field of a descriptor replaced. -/
def setDescBits (d : List Word) (lo w v : Nat) : List Word :=
  let n := withField lo w (d.foldr (fun x a => x.toNat + 2 ^ 64 * a) 0) v
  (List.range 8).map (fun k => BitVec.ofNat 64 (n / 2 ^ (64 * k)))

/-- R143: what DSET makes of a descriptor: fault 0x4101 for a reserved function, 0x4104 for a value that does not fit. -/
def dsetResult (d : List Word) (fn : Nat) (a : Word) : Except Nat (List Word) :=
  let k := fn % 16
  match fn / 16 with
  | 0 => if 5 < k then .error 0x4101
    else if 2 ^ 32 ≤ a.toNat then .error 0x4104 else .ok (setDescBits d (32 * k) 32 a.toNat)
  | 1 => if 5 < k then .error 0x4101
    else if a.toInt < -(2 ^ 39 : Nat) ∨ (2 ^ 39 : Nat) ≤ a.toInt then .error 0x4104
    else .ok (setDescBits d (192 + 40 * k) 40 a.toNat)
  | 2 => if k ≠ 0 then .error 0x4101
    else if a.toInt < -(2 ^ 47 : Nat) ∨ (2 ^ 47 : Nat) ≤ a.toInt then .error 0x4104
    else .ok (setDescBits d 432 48 a.toNat)
  | 3 => if k ≠ 0 then .error 0x4101
    else if 6 < a.toNat then .error 0x4104 else .ok (setDescBits d 480 8 a.toNat)
  | _ => .error 0x4101

/-- Table 5.18: LEVELS above 4 needs contract level 3. -/
def levelsOk (level : Nat) (d : List Word) : Bool := decide (descLevels d ≤ 4) || decide (3 ≤ level)

def State.dsetBody (s : State) (u : Nat) (x : Payload) : State :=
  if xB x ≠ 0 ∨ 16 ≤ xD x then s.progFault u 0x4101 0
  else match dsetResult (s.dReg u (xD x)) (xFn x) (s.sReg u (xA x)) with
    | .error e => s.progFault u e 0
    | .ok d => if levelsOk (s.level u) d then (s.setD u (xD x) d).advance u 4 else s.progFault u 0x4101 0

def execDset (u : Nat) (x : Payload) (s : State) : Outcome :=
  s.guard (s.issues u [xA x]) (fun s => s.predicated u x (fun s => s.dsetBody u x))

/-- R132: the reserved major opcodes, the reserved long ones among them. -/
def reservedOpc (o : Nat) : Bool :=
  !(List.contains [0x01, 0x02, 0x03, 0x04, 0x05, 0x06, 0x07, 0x08, 0x09, 0x0C, 0x0D, 0x0E, 0x0F, 0x10, 0x11, 0x12, 0x13,
    0x14, 0x15, 0x16, 0x18, 0x19, 0x1A, 0x1B, 0x1C, 0x1D, 0x1E, 0x20, 0x21, 0x22, 0x23, 0x24, 0x25] o)

/-- R132: a reserved opcode faults whatever its predicate: fetched by the program, or broadcast. -/
def State.reservedBody (s : State) (u : Nat) : State := s.progFault u 0x4101 0

end Sys2Proof.Machine
end

