-- ==== Sys2Proof/Machine/Vector.lean ====
section
/-! DEFINITION. Vector instructions of QN (05_qn_instruction_set.md R133, R138, R155; 02_number_formats.md R42-R52) that
make no memory request, and the conversions and reductions they share with the long instructions. -/

namespace Sys2Proof.Machine

/-- R47, R53: a slot's generator; after reset it holds the seed firmware loaded. -/
def lfsrReset (u : Nat) : BitVec 64 := BitVec.ofNat 64 (u + 1)

/-- R47: n draws of a core's generator, by element: the order in which elements draw is left open (log 9). -/
def State.srDraws (s : State) (u n : Nat) : List Nat × State :=
  let (c, s) := s.draw
  let r := lfsrDraws n (mget lfsrReset s.core.lfsr u)
  let order := freeOrderOf c n
  ((List.range n).map (fun e => r.1.getD (order.idxOf e) 0),
    { s with core := { s.core with lfsr := mput lfsrReset s.core.lfsr u r.2 } })

/-- Fixed-point 2^x: the product over the bits of the fraction, highest first, of 2^(2^-i), each the square root of
the one before, in 96-bit fixed point. -/
def exp2Go : Nat → Nat → Nat → Nat → Nat
  | 0, _, _, acc => acc
  | k + 1, f, c, acc =>
    let c' := isqrt (c <<< 96)
    exp2Go k f c' (if f.testBit k then (acc * c') >>> 96 else acc)

/-- 2^(f / 2^96) in units of 2^-96, for a fraction f below 2^96. -/
def exp2Frac (f : Nat) : Nat := exp2Go 96 f (2 <<< 96) (1 <<< 96)

/-- 2^x for x in units of 2^-96. -/
def exp2Val (x : Int) : Val :=
  .fin false (exp2Frac (x % (2 ^ 96 : Nat)).toNat) (x / (2 ^ 96 : Nat) - 96)

/-- A finite value in units of 2^-96, rounded toward zero; a magnitude above 2^40 is kept at 2^40. -/
def toFix96 : Val → Int
  | .fin s m e =>
    let n := if 40 < (m.log2 : Int) + e then 2 ^ 136 else (unitsOf m e (-96)).1
    if s then -(n : Int) else n
  | _ => 0

/-- The fraction bits of log2 of a mantissa y in units of 2^-127, 1 ≤ y < 2, by repeated squaring. -/
def log2Go : Nat → Nat → Nat → Nat
  | 0, _, acc => acc
  | k + 1, y, acc =>
    let z := (y * y) >>> 127
    if 2 ^ 128 ≤ z then log2Go k (z >>> 1) (2 * acc + 1) else log2Go k z (2 * acc)

/-- log2 of a positive finite value to 72 fraction bits. -/
def log2Val (m : Nat) (e : Int) : Val :=
  let p := m.log2
  let y := if p ≤ 127 then m <<< (127 - p) else m >>> (p - 127)
  let x : Int := ((p : Int) + e) * (2 ^ 72 : Nat) + (log2Go 72 y 0 : Nat)
  .fin (decide (x < 0)) x.natAbs (-72)

/-- 1 / sqrt of a positive finite value. -/
def rsqrtVal (m : Nat) (e : Int) : Val :=
  let (m', e') := if e % 2 = 0 then (m, e) else (2 * m, e - 1)
  .fin false (isqrt (2 ^ 400 / m')) (-(e' / 2) - 200)

/-- tanh of a finite value: 1 beyond 16, a itself below 2^-13, else (E - 1) / (E + 1) with E = 2^(2 a log2 e); the
constant is log2 e in units of 2^-96. -/
def tanhVal (s : Bool) (m : Nat) (e : Int) : Val :=
  let top := (m.log2 : Int) + e
  if 4 ≤ top then .fin s 1 0
  else if top < -13 then .fin s m e
  else
    let x := (unitsOf m e (-96)).1
    let y := (114302077158074026402637675936 * (2 * x)) >>> 96
    match exp2Val y with
    | .fin _ p q =>
      let n := (unitsOf p q (-96)).1
      let one := 2 ^ 96
      .fin s (((n - one) <<< 96) / (n + one)) (-96)
    | v => v

/-- R138, R198: a magnitude within n units in the last place of an exact one, by its binary32 code; `k` chooses among
them. -/
def withinUlp (n k : Nat) (exact : Val) : Nat :=
  let mag := (toF32 exact).toNat
  let near := valF32 (BitVec.ofNat 32 mag)
  let lo := if near.lt exact then n - 1 else n
  let hi := if exact.lt near then n - 1 else n
  mag + k % (lo + hi + 1) - lo

/-- The magnitude of a value. -/
def magOf (v : Val) : Val :=
  match v with
  | .fin _ m e => .fin false m e
  | _ => v

/-- R38: a lane as it is delivered: a NaN in its canonical encoding. -/
def canonLane (x : BitVec 32) : BitVec 32 := if (valF32 x).isNan then 0x7FC00000#32 else x

/-- The five functions of R138 that are accurate to within 2 units in the last place: the special cases exactly, a
normal result within the 2 units (log 9: which is left open), a value of no stated accuracy where it is not normal. -/
def nearResult (fn : Nat) (a : BitVec 32) (v : Val) : BitVec 32 × Nat :=
  let c := (toF32 v).toNat
  let mag := c % 2 ^ 31
  if mag = 0x7F800000 then (BitVec.ofNat 32 c, nsOverflow)
  else if mag < 0x00800000 then (canonLane (Config.freeLane fn a), 0)
  else
    let m := withinUlp 2 (Config.freeUlp fn a).toNat (magOf v)
    (BitVec.ofNat 32 (c - mag + (if m < 0x00800000 ∨ 0x7F7FFFFF < m then mag else m)), 0)

def canonNan : BitVec 32 := 0x7FC00000#32

def vExp2 (a : BitVec 32) : BitVec 32 × Nat :=
  match valF32 a with
  | .nan => (canonNan, 0)
  | .inf s => (if s then 0#32 else 0x7F800000#32, 0)
  | .fin s m e => if m = 0 then (0x3F800000#32, 0) else nearResult 0x09 a (exp2Val (toFix96 (.fin s m e)))

def vLog2 (a : BitVec 32) : BitVec 32 × Nat :=
  match valF32 a with
  | .nan => (canonNan, 0)
  | .inf s => if s then (canonNan, nsInvalid) else (0x7F800000#32, 0)
  | .fin s m e =>
    if m = 0 then (0xFF800000#32, 0)
    else if s then (canonNan, nsInvalid)
    else if a = 0x3F800000#32 then (0#32, 0)
    else nearResult 0x0A a (log2Val m e)

def vRcp (a : BitVec 32) : BitVec 32 × Nat :=
  match valF32 a with
  | .nan => (canonNan, 0)
  | .inf s => (if s then 0x80000000#32 else 0#32, 0)
  | .fin s m e =>
    if m = 0 then (if s then 0xFF800000#32 else 0x7F800000#32, 0)
    else nearResult 0x0B a ((Val.fin false 1 0).div (.fin s m e))

def vRsqrt (a : BitVec 32) : BitVec 32 × Nat :=
  match valF32 a with
  | .nan => (canonNan, 0)
  | .inf s => if s then (canonNan, nsInvalid) else (0#32, 0)
  | .fin s m e =>
    if m = 0 then (if s then 0xFF800000#32 else 0x7F800000#32, 0)
    else if s then (canonNan, nsInvalid)
    else nearResult 0x0C a (rsqrtVal m e)

def vTanh (a : BitVec 32) : BitVec 32 × Nat :=
  match valF32 a with
  | .nan => (canonNan, 0)
  | .inf s => (if s then 0xBF800000#32 else 0x3F800000#32, 0)
  | .fin s m e => if m = 0 then (a, 0) else nearResult 0x0D a (tanhVal s m e)

/-- R138, Table 5.10: one lane of VALU: a, b and the destination's old lane d; none for a reserved function. -/
def valuLane (fn : Nat) (a b d : BitVec 32) : Option (BitVec 32 × Nat) :=
  match fn with
  | 0x00 => some (fadd a b)
  | 0x01 => some (fsub a b)
  | 0x02 => some (fmul a b)
  | 0x03 => some (ffma false a b d)
  | 0x04 => some (ffma true a b d)
  | 0x05 => some (fminmax true a b, 0)
  | 0x06 => some (fminmax false a b, 0)
  | 0x07 => some (fabs a, 0)
  | 0x08 => some (fneg a, 0)
  | 0x09 => some (vExp2 a)
  | 0x0A => some (vLog2 a)
  | 0x0B => some (vRcp a)
  | 0x0C => some (vRsqrt a)
  | 0x0D => some (vTanh a)
  | 0x10 => some (a + b, 0)
  | 0x11 => some (a - b, 0)
  | 0x12 => some (a * b, 0)
  | 0x13 => some (a &&& b, 0)
  | 0x14 => some (a ||| b, 0)
  | 0x15 => some (a ^^^ b, 0)
  | 0x16 => some (a <<< (b.toNat % 32), 0)
  | 0x17 => some (a >>> (b.toNat % 32), 0)
  | 0x18 => some (BitVec.sshiftRight a (b.toNat % 32), 0)
  | _ => none

/-- R145: a vector instruction issues once every earlier REDUCE and ZMAP of the core has completed. -/
def State.issuesV (s : State) (u : Nat) (regs : List Nat) : Bool := s.issues u regs && !s.vecBusy u

/-- R133: the lanes of a vector instruction. -/
def State.lanes (s : State) (u : Nat) (x : Payload) : Word := s.predMask u (xPred x) (xNeg x)

/-- The lane indices of a mask. -/
def maskLanes (m : Word) : List Nat := (List.range 64).filter (fun k => m.getLsbD k)

def State.valuBody (s : State) (u : Nat) (x : Payload) : State :=
  let m := s.lanes u x
  let rs := (List.range 64).map (fun k =>
    valuLane (xFn x) (s.vLane u (xA x) k) (s.vLane u (xB x) k) (s.vLane u (xD x) k))
  if rs.any Option.isNone then s.progFault u 0x4101 0
  else
    let ps := rs.map (fun r => r.getD (0#32, 0))
    let fl := orFlags ((maskLanes m).map (fun k => (ps.getD k (0#32, 0)).2))
    ((s.setV u (xD x) m (ps.map Prod.fst)).numStatus u fl).advance u 4

def execValu (u : Nat) (x : Payload) (s : State) : Outcome := s.guard (s.issuesV u []) (fun s => s.valuBody u x)

/-- R138: VCMP: lanes masked off keep their bits of the predicate. -/
def State.vcmpBody (s : State) (u : Nat) (x : Payload) : State :=
  if 12 ≤ xFn x ∨ 8 ≤ xD x then s.progFault u 0x4101 0
  else
    let m := s.lanes u x
    let bits := (maskLanes (BitVec.allOnes 64)).filter (fun k =>
      condLane (xFn x) (s.vLane u (xA x) k) (s.vLane u (xB x) k))
    let r : Word := bits.foldl (fun a k => a ||| BitVec.twoPow 64 k) 0#64
    (s.setP u (xD x) ((s.pReg u (xD x) &&& ~~~ m) ||| (r &&& m))).advance u 4

def execVcmp (u : Nat) (x : Payload) (s : State) : Outcome := s.guard (s.issuesV u []) (fun s => s.vcmpBody u x)

/-- Table 5.18: the lowest contract level that permits a format. -/
def fmtLevel (f : Nat) : Nat :=
  if f ∈ [0x0, 0x2, 0x3, 0x7, 0x8, 0x9] then 1
  else if f ∈ [0x1, 0x6, 0xA, 0xB, 0xE, 0xF] then 2
  else 3

/-- The rounding of an element: by its draw, or to nearest even. -/
def rndOf (draws : Option (List Nat)) (k : Nat) : Rnd :=
  match draws with
  | some us => .sr (us.getD k 0)
  | none => .rne

/-- Elements converted to a destination that is not MX: the codes and the status bits (R40, R43). -/
def cvtElts (dst : Nat) (sat ftz : Bool) (draws : Option (List Nat)) (ys : List Val) : List Nat × Nat :=
  let rs := (List.range ys.length).map (fun k => cvtFmt dst sat (rndOf draws k) ftz (ys.getD k .nan))
  (rs.map Prod.fst, orFlags (rs.map Prod.snd))

/-- R42: blocks whose scale will be 0xFF draw nothing: whether a block of y values draws. -/
def blockDraws (sat : Bool) (ys : List Val) : Bool := !(ys.any Val.isNan || (!sat && ys.any Val.isInf))

/-- MX blocks converted, with draws when stochastic rounding is selected: scale, codes, status bits of each. All their elements
draw in one order, which is left open (R47, log 9). -/
def State.cvtBlocks (s : State) (u dst : Nat) (sat sr ftz : Bool) (bs : List (List Val)) : List (Nat × List Nat × Nat) × State :=
  let draws := fun (ys : List Val) => sr && blockDraws sat ys
  let n := (bs.filter draws).foldl (fun a ys => a + ys.length) 0
  let x := if n = 0 then ([], s) else s.srDraws u n
  let r := bs.foldl (fun (acc : List (Nat × List Nat × Nat) × List Nat) ys =>
    if draws ys then (acc.1 ++ [mxBlock dst sat (some (acc.2.take ys.length)) ftz ys], acc.2.drop ys.length)
    else (acc.1 ++ [mxBlock dst sat none ftz ys], acc.2)) ([], x.1)
  (r.1, x.2)

/-- Elements converted to a destination that is not MX, with draws when stochastic rounding is selected. -/
def State.cvtList (s : State) (u dst : Nat) (sat sr ftz : Bool) (ys : List Val) : (List Nat × Nat) × State :=
  if sr then
    let (us, s) := s.srDraws u ys.length
    (cvtElts dst sat ftz (some us) ys, s)
  else (cvtElts dst sat ftz none ys, s)

/-- The 32-bit lanes of a packed number. -/
def lanesOf (n : Nat) : List (BitVec 32) := (List.range 64).map (fun k => BitVec.ofNat 32 (n >>> (32 * k)))

/-- R138: VCVTO. -/
def State.vcvtoBody (s : State) (u : Nat) (x : Payload) : State :=
  let fmt := fieldOf 3 4 (xFn x)
  let sat := (xFn x).testBit 2
  let sr := (xFn x).testBit 1
  let ftz := (xFn x).testBit 0
  let ys := (s.vReg u (xA x)).map valF32
  if s.level u < fmtLevel fmt then s.progFault u 0x4101 0
  else if fmtIsMx fmt then
    let (bs, s) := s.cvtBlocks u fmt sat sr ftz [ys.take 32, ys.drop 32]
    let scale := fun (k : Nat) => (bs[k]?.map Prod.fst).getD 0
    let packed := packElts (fmtBits fmt) (bs.flatMap (fun b => b.2.1))
    let s := s.setV u (xD x) (s.lanes u x) (lanesOf packed)
    ((s.setS u (xB x) (BitVec.ofNat 64 (scale 0 + 256 * scale 1))).numStatus u (orFlags (bs.map (fun b => b.2.2)))).advance u 4
  else
    let (r, s) := s.cvtList u fmt sat sr ftz ys
    ((s.setV u (xD x) (s.lanes u x) (lanesOf (packElts (fmtBits fmt) r.1))).numStatus u r.2).advance u 4

def execVcvto (u : Nat) (x : Payload) (s : State) : Outcome :=
  s.guard (s.issuesV u (if fmtIsMx (fieldOf 3 4 (xFn x)) then [xB x] else [])) (fun s => s.vcvtoBody u x)

/-- The number a v register's lanes spell. -/
def laneNat (l : List (BitVec 32)) : Nat := l.foldr (fun x a => x.toNat + 2 ^ 32 * a) 0

/-- R44: one element converted to FP32, with OVERFLOW for a scaled MX element beyond the range. -/
def cvtToF32 (fmt scale code : Nat) : BitVec 32 × Nat :=
  let v := decodeElt fmt code
  let w := if fmtIsMx fmt then scaleVal scale v else v
  let c := toF32 w
  (c, if w.isFin && decide (c.toNat % 2 ^ 31 = 0x7F800000) then nsOverflow else 0)

/-- R138: VCVTI; FN[2:0] must be 0. -/
def State.vcvtiBody (s : State) (u : Nat) (x : Payload) : State :=
  let fmt := fieldOf 3 4 (xFn x)
  if xFn x % 8 ≠ 0 ∨ s.level u < fmtLevel fmt then s.progFault u 0x4101 0
  else
    let m := s.lanes u x
    let src := laneNat (s.vReg u (xA x))
    let sc := (s.sReg u (xB x)).toNat
    let rs := (List.range 64).map (fun k =>
      cvtToF32 fmt (fieldOf (8 * (k / 32)) 8 sc) (eltOf (fmtBits fmt) src k))
    let fl := orFlags ((maskLanes m).map (fun k => (rs.getD k (0#32, 0)).2))
    ((s.setV u (xD x) m (rs.map Prod.fst)).numStatus u fl).advance u 4

def execVcvti (u : Nat) (x : Payload) (s : State) : Outcome :=
  s.guard (s.issuesV u (if fmtIsMx (fieldOf 3 4 (xFn x)) then [xB x] else [])) (fun s => s.vcvtiBody u x)

/-- R52, R138: VSPLIT: the packed high parts to VD, the low parts to VD + 1. -/
def State.vsplitBody (s : State) (u : Nat) (x : Payload) : State :=
  if xD x % 2 = 1 ∨ s.level u < 3 then s.progFault u 0x4101 0
  else
    let m := s.lanes u x
    let ps := (s.vReg u (xA x)).map splitF32
    let hi := packElts 16 (ps.map (fun p => p.1.toNat))
    let lo := packElts 16 (ps.map (fun p => p.2.toNat))
    ((s.setV u (xD x) m (lanesOf hi)).setV u (xD x + 1) m (lanesOf lo)).advance u 4

def execVsplit (u : Nat) (x : Payload) (s : State) : Outcome := s.guard (s.issuesV u []) (fun s => s.vsplitBody u x)

/-- R155, Table 5.14: binary32 additions in an order that is left open: repeatedly two elements at free places are
replaced by their sum. The first argument bounds the number of additions. -/
def sumFree (c : Nat) : Nat → List (BitVec 32) → Nat → BitVec 32 × Nat
  | 0, l, fl => (l.headD 0#32, fl)
  | k + 1, l, fl =>
    match l with
    | [] => (0#32, fl)
    | [x] => (toF32 (valF32 x), fl)
    | l =>
      let i := Config.freeOrder c (2 * k) % l.length
      let l1 := l.eraseIdx i
      let j := Config.freeOrder c (2 * k + 1) % l1.length
      let r := fadd (l.getD i 0#32) (l1.getD j 0#32)
      sumFree c k (r.1 :: l1.eraseIdx j) (fl ||| r.2)

/-- R155: a reduction of numbered elements: the scalar and the status bits; the reserved operations give none. -/
def reduceVals (c op : Nat) (absFirst : Bool) (xs : List (Nat × BitVec 32)) : Option (Word × Nat) :=
  let ys := xs.map (fun p => (p.1, if absFirst then fabs p.2 else p.2))
  let fs := ys.map Prod.snd
  match op with
  | 0 => let r := sumFree c fs.length fs 0
         some (r.1.setWidth 64, r.2)
  | 1 => some ((redMinMax true fs).setWidth 64, 0)
  | 2 => some ((redMinMax false fs).setWidth 64, 0)
  | 3 => some (argMaxOf ys, 0)
  | 4 => some (BitVec.ofNat 64 (fs.filter (fun y => !(valF32 y).isZero)).length, 0)
  | _ => none

/-- R138, R155: VRED. -/
def State.vredBody (s : State) (u : Nat) (x : Payload) : State :=
  let xs := (maskLanes (s.lanes u x)).map (fun k => (k, s.vLane u (xA x) k))
  let (c, s) := s.draw
  match reduceVals c (xFn x % 8) ((xFn x).testBit 3) xs with
  | some r => (s.numStatus u r.2).retire u (xD x) r.1
  | none => s.progFault u 0x4101 0

def execVred (u : Nat) (x : Payload) (s : State) : Outcome := s.guard (s.issuesV u [xD x]) (fun s => s.vredBody u x)

/-- R138: VMOV. -/
def State.vmovBody (s : State) (u : Nat) (x : Payload) : State :=
  let m := s.lanes u x
  let a := (s.sReg u (xA x)).setWidth 32
  let k := (s.sReg u (xB x)).toNat % 64
  match xFn x with
  | 0 => (s.setV u (xD x) m (List.replicate 64 a)).advance u 4
  | 1 => (s.setV u (xD x) (m &&& BitVec.twoPow 64 k) (List.replicate 64 a)).advance u 4
  | 2 => s.retire u (xD x) ((s.vLane u (xA x) k).setWidth 64)
  | 3 => (s.setV u (xD x) m ((s.vReg u (xB x)).map (fun i => s.vLane u (xA x) (i.toNat % 64)))).advance u 4
  | 4 => (s.setV u (xD x) m (s.vReg u (xA x))).advance u 4
  | _ => s.progFault u 0x4101 0

def execVmov (u : Nat) (x : Payload) (s : State) : Outcome :=
  s.guard (s.issuesV u [xD x, xA x, xB x]) (fun s => s.vmovBody u x)

end Sys2Proof.Machine
end

