-- ==== Sys2Proof/Machine/Long.lean ====
section
/-! DEFINITION. What every long instruction shares (05_qn_instruction_set.md R128, R130, R133, R140-R146, R157, R160,
10_result_integrity.md R280-R283): latching, the checks of every long instruction, local accesses, and what a step comes to. -/

namespace Sys2Proof.Machine

def lWord0 (opc : Nat) (w : LPayload) : BitVec 32 := BitVec.ofNat 32 (opc <<< 26 + w.toNat % 2 ^ 26)
def lWord1 (w : LPayload) : BitVec 32 := BitVec.ofNat 32 (w.toNat / 2 ^ 26)

/-- R140: an instruction of the core's own program latched at issue. -/
def State.latchProg (s : State) (u : Nat) (w0 w1 : BitVec 32) : Latch :=
  { w0 := w0, w1 := w1, a := s.sReg u (lSA w0), b := s.sReg u (lSB w0),
    b1 := s.sReg u (lSB w0 + 1), y := s.sReg u (lSY w1),
    da := s.dReg u (lDA w0), db := s.dReg u (lDB w0), dy := s.dReg u (lDY w1), quad := s.quadWords u w1,
    level := s.level u, bcast := false, waybill := nget s.core.waybill u, stream := nget s.core.stream u,
    tag := lTag w1, pc := s.pc u }

/-- R158: why a local access failed: a fault of the instruction, or a place that refuses the access. -/
inductive LErr where
  | fault (event addr : Nat)
  | place (kind : MemKind) (off event : Nat)
  deriving DecidableEq, Repr

/-- What one step of a long instruction comes to: the step, none where the walks have ended without one; where the next step
begins, none after the last; a scalar; a fault, and a local access that failed; the requests sent out of the core that await
their acknowledgements; and whether an access is held. -/
structure LStep where
  res : Option StepRes := none
  next : Option WalkPos := none
  sreg : Option (Nat × Word) := none
  fault : Option (Nat × Nat) := none
  err : Option LErr := none
  writes : Nat := 0
  held : Bool := false
  deriving DecidableEq, Repr

/-- A step that stops with a fault. -/
def lFault (e a : Nat) : LStep := { fault := some (e, a) }

/-- R282: the points of a walk that begin within 65,536 cycles of the first, `c` cycles each or, where `k` is not 1, `k` of them
in `c` cycles. A unit is taken to work at the rate the spec gives it, without stalls (DEDUCED, log 18). -/
def stepPoints (c k : Nat) : Nat := (65536 * k + c - 1) / c

/-- An address or offset as the fault registers hold it. -/
def addrNat (x : Int) : Nat := (x % (2 ^ 64 : Nat)).toNat

/-- R127, R280, R281: why n bytes at a local offset cannot be reached, or a word of them that must be read again; none when they
can. -/
def State.locErr (s : State) (k : MemKind) (u : Nat) (off : Int) (n : Nat) (rd : Bool) : Option LErr :=
  if off < 0 then some (.place k (addrNat off) 0x2002)
  else
    let p : Place := ⟨k, u, off.toNat⟩
    match s.placeEvent p, s.placeEvent ⟨k, u, off.toNat + (n - 1)⟩ with
    | none, none =>
      if !rd then none
      else if s.poisonIn p.addr (p.addr + n) then some (.place k p.off 0x2008)
      else (s.upsetIn p.addr n).map (fun x => .place k (p.at (max x.1 p.addr)).off 0x2001)
    | some e, _ => some (.place k p.off e)
    | none, some e => some (.place k p.off e)

/-- n bytes at a local offset. -/
def State.locRead (s : State) (k : MemKind) (u : Nat) (off : Int) (n : Nat) : Except LErr (List (BitVec 8)) :=
  match s.locErr k u off n true with
  | some e => .error e
  | none => .ok (s.physRead (Place.addr ⟨k, u, off.toNat⟩) n)

/-- R180: the command and tag that a long instruction belongs to. -/
def Latch.org (lt : Latch) : Option Origin := some ⟨lt.waybill, lt.stream, lt.tag⟩

/-- Table 10.6: the sub-unit of a core that makes the local accesses of a long instruction: the matrix engine, the output stage
or the vector unit. -/
def localClass (opc : Nat) : Nat := if opc = 0x21 then 1 else if opc < 0x23 then 0 else 2

/-- R88, R127, R158: the record of a refused local access, with the bare local offset as the address concerned (DESIGN CHOICE,
log 51); the fault and address it gives the instruction. -/
def State.locFault (s : State) (u : Nat) (rq : Rq) (e : LErr) : (Nat × Nat) × State :=
  match e with
  | .fault ev a => ((ev, a), s)
  | .place k off ev => ((0x4106, off), s.refuse rq ev (placeUnit ⟨k, u, off⟩) (some u) (u / 28) off)

/-- R283, R93: an accumulator word as the matrix path sees it: the newest uncommitted value, else the committed one. -/
def State.pmWord (s : State) (u off : Nat) : BitVec 32 :=
  let hits := (s.core.ops.filter (fun o => o.u == u)).flatMap (fun o => o.steps.flatMap (fun r =>
    r.pm.filterMap (fun p => if p.1 = off then some p.2 else none)))
  match hits.getLast? with
  | some v => v
  | none => BitVec.ofNat 32 (s.physNat (pmBase u + off) 4)

def State.dropGens (s : State) (u m : Nat) : State :=
  let x := s.fld fCO_CORE_STATUS_AG_BUSY u
  s.put fCO_CORE_STATUS_AG_BUSY u 0 (x - (x &&& m))

/-- Table 5.12: the walks of an instruction. -/
def walksOf (opc : Nat) (lt : Latch) : Nat := if opc = 0x23 then 1 else (walkedBy opc lt).length

/-- R130, R131, R160: faults of every long instruction: a must-be-0 field, a reserved bit of the quad, too many levels. -/
def longIllegal (lt : Latch) : Bool :=
  lZero lt.w1 != 0 || !(quadOf lt.quad).mustZero || !levelsOk lt.level lt.da || !levelsOk lt.level lt.db ||
    !levelsOk lt.level lt.dy

/-- R157: a fault of a long instruction. -/
def State.longFault (s : State) (u : Nat) (lt : Latch) (group e a : Nat) : State :=
  s.coreFault u e lt.tag lt.bcast lt.waybill lt.stream lt.pc a group

end Sys2Proof.Machine
end

