-- ==== Sys2Proof/Machine/Matrix.lean ====
section
/-! DEFINITION. The matrix path (03_matrix_engine.md R55-R75, R80-R82; 05_qn_instruction_set.md R147-R152): MATMUL,
PMOUT and PMCLR evaluated from a latched instruction, and the engine's own registers. -/

namespace Sys2Proof.Machine

/-- What a MATMUL's quad and descriptors fix (R55, R62-R68, Table 3.1, Table 3.3). `mode` is 0 for 8-bit, 1 for
4/6-bit, 2 for 16-bit; `sv` the values a cell holds; `kc` the covered K of a tile, of one quadrant in split mode; `nc`
its channels; `rows` the rows a tap group has in window mode; `c0` the tiles along the contraction; `nkb` the blocks
along K; `m` the rows of a tile. -/
structure MM where
  q : Quad
  mode : Nat
  sv : Nat
  kc : Nat
  nc : Nat
  units : Nat
  taps : Nat
  dil : Nat
  rows : Nat
  pair : Bool
  c0 : Nat
  nkb : Nat
  m : Nat
  deriving DecidableEq, Repr

/-- R33, Table 2.6. -/
def mmMode (q : Quad) : Nat :=
  match max (fmtClass q.fmtA) (fmtClass q.fmtB) with
  | 0 => 1
  | 1 => 0
  | _ => 2

def mmOf (q : Quad) (da db : List Word) : MM :=
  let mode := mmMode q
  let win := q.taps != 0
  let sv := if mode = 1 then 2 else 1
  let kt := if mode = 1 then 64 else 32
  let nt := if mode = 2 then 16 else 32
  let kc := if q.split then kt / 2 else if q.sparse = 1 then 2 * kt else if q.sparse = 2 then 4 * kt else kt
  let kg := if win then 32 else kc
  let c0 := if descLevels db = 0 then 1 else descCount db 0
  { q := q, mode := mode, sv := sv, kc := kc, nc := if q.split then nt / 2 else nt,
    units := if q.split then 4 else 1, taps := if win then q.taps + 1 else 1, dil := if win then q.dil + 1 else 0,
    rows := if win then 32 / (q.taps + 1) else 0, pair := q.pair || q.splitOp, c0 := c0,
    nkb := (c0 * kg + 31) / 32, m := if descLevels da = 0 then 1 else descCount da 0 }

def MM.win (x : MM) : Bool := x.q.taps != 0

/-- R33, R52, R67, R75: combinations that are illegal. -/
def mmIllegal (q : Quad) (sub : Nat) : Bool :=
  let win := q.taps != 0
  sub != 0 || q.fmtA == 9 || q.fmtB == 9 || (fmtIsInt q.fmtA != fmtIsInt q.fmtB) || q.sparse == 3 ||
    (q.sparse == 2 && !((q.fmtB == 1 || q.fmtB == 6 || q.fmtB == 0xE) && mmMode q == 1)) ||
    (q.sparse != 0 && (q.split || win || q.splitOp)) || (q.split && (win || q.splitOp)) || (win && q.splitOp) ||
    (q.splitOp && (q.fmtA != 7 || q.fmtB != 7)) || ((fmtIsMx q.fmtA || fmtIsMx q.fmtB) && (q.split || win))

/-- Table 5.18: the contract level a MATMUL needs. -/
def mmLevel (q : Quad) : Nat :=
  let f := max (fmtLevel q.fmtA) (fmtLevel q.fmtB)
  let a := if q.sparse = 1 ∨ q.tileMap ∨ q.split then 2 else 1
  let b := if q.sparse = 2 ∨ q.zmapIn ∨ q.taps ≠ 0 ∨ q.pair ∨ q.splitOp then 3 else 1
  max f (max a b)

/-- R31: bytes of a row of n elements of a format. -/
def rowBytes (fmt n : Nat) : Nat :=
  let b := fmtBits fmt
  let n' := if b = 4 then (n + 1) / 2 * 2 else if b = 6 then (n + 3) / 4 * 4 else n
  n' * b / 8

/-- Elements of an activation row of one unit (R62, R64, R65). -/
def MM.elts (x : MM) : Nat := if x.win then x.rows * x.sv else x.kc

/-- R62: the activation row size in bytes, of one unit. -/
def MM.rowA (x : MM) : Nat := rowBytes x.q.fmtA x.elts

/-- R57, R64, R68: the bytes of one unit's tile. -/
def MM.tileBytes (x : MM) : Nat :=
  if x.q.sparse = 0 then (if x.q.split then x.kc else if x.mode = 1 then 64 else 32) * rowBytes x.q.fmtB x.nc
  else 32 * (rowBytes x.q.fmtB (x.nc * x.sv) + x.nc * x.sv / 4)

/-- R51, R62, R64: core cycles of a pass. -/
def MM.pace (x : MM) : Nat :=
  let a := x.rowA
  let p := if a ≤ 64 then 1 else if x.q.src2 then (a + 127) / 128 else (a + 63) / 64
  let p2 := if x.q.split then max p 2 else p
  if x.pair && x.mode != 2 then 2 * p2 else p2

/-- R62: load cycles of a tile: ceil(bytes / (128 - h)) with h = max(0, A / p - 64) when a second source feeds the
rows. -/
def MM.load (x : MM) : Nat :=
  let a := x.rowA
  let p := (a + 127) / 128
  let b := x.units * x.tileBytes
  if 64 < a ∧ x.q.src2 then
    let den := 192 * p - a
    (b * p + den - 1) / den
  else (b + 127) / 128

/-- Elements of a packed row. -/
def rowElts (fmt n : Nat) (bs : List (BitVec 8)) : List Nat :=
  let x := leNat bs
  (List.range n).map (fun k => eltOf (fmtBits fmt) x k)

/-- A bit of a packed bit array. -/
def bitOf (bs : List (BitVec 8)) (k : Nat) : Bool := (bs.getD (k / 8) 0#8).getLsbD (k % 8)

/-- R62, R148: the activation row of each unit at an A point; `lo` is the displacement of the low parts (R52). -/
def State.mmRow (s : State) (u : Nat) (x : MM) (abase pt : Int) (lo : Nat) : Except LErr (List (List Val)) :=
  let o := pt - abase
  let a := x.rowA
  let sa := min a 64
  if (64 < a ∧ x.q.src2 ∧ o % 64 ≠ 0) ∨ (fmtIsMx x.q.fmtA ∧ o % (sa : Int) ≠ 0) then .error (.fault 0x4102 (addrNat pt))
  else do
    let data ← if 64 < a ∧ x.q.src2 then do
        let b1 ← s.locRead .am u pt 64
        let b2 ← s.locRead .wm u ((x.q.src2Base : Int) + o * (a - 64 : Nat) / 64) (a - 64)
        pure (b1 ++ b2)
      else s.locRead .am u (pt + lo) (x.units * a)
    let scales ← if fmtIsMx x.q.fmtA then
        s.locRead .am u ((x.q.scaleABase : Int) + o / (sa : Int) * (x.kc / 32 : Nat)) (x.kc / 32)
      else pure []
    pure ((List.range x.units).map (fun k =>
      let es := rowElts x.q.fmtA x.elts ((data.drop (k * a)).take a)
      (List.range x.elts).map (fun i =>
        let v := decodeElt x.q.fmtA (es.getD i 0)
        if fmtIsMx x.q.fmtA then scaleVal (scales.getD (i / 32) 0#8).toNat v else v)))

/-- One stored weight: its array row, the displacement of the position it meets, the element it meets, its value. -/
structure Cell where
  row : Nat
  pos : Nat
  elt : Nat
  w : Val
  deriving DecidableEq, Repr

/-- R71, R149: whether the block of contraction index k of a tile is absent. -/
def MM.absent (x : MM) (bmap : List (BitVec 8)) (t k : Nat) : Bool :=
  let kg := if x.win then 32 else x.kc
  let nb := t / x.c0 * x.nc / 32
  x.q.tileMap && !bitOf bmap (nb * x.nkb + (t % x.c0 * kg + min k (kg - 1)) / 32)

/-- R34, R148: a weight with its MX scale. -/
def MM.weight (x : MM) (scales : List (BitVec 8)) (code k n : Nat) : Val :=
  let v := decodeElt x.q.fmtB code
  if fmtIsMx x.q.fmtB then scaleVal (scales.getD (k / 32 * 32 + n) 0#8).toNat v else v

/-- R55, R57, R65: the cells of channel n of a dense tile. -/
def MM.denseCells (x : MM) (data scales bmap : List (BitVec 8)) (t n : Nat) : List Cell :=
  let rb := rowBytes x.q.fmtB x.nc
  (List.range (if x.win then x.taps * x.rows * x.sv else x.kc)).map (fun k =>
    let code := (rowElts x.q.fmtB x.nc ((data.drop (k * rb)).take rb)).getD n 0
    let w := if x.absent bmap t k then Val.fin false 0 0 else x.weight scales code k n
    if x.win then ⟨k / x.sv, k / (x.rows * x.sv) * x.dil, k % (x.rows * x.sv), w⟩ else ⟨k / x.sv, 0, k, w⟩)

/-- R66-R70: the cells of channel n of a sparse tile: value slot s of array row i belongs to group (i * S + s) div 2
under 2:4 and i * S + s under 1:4, and meets the element of its group that its index names. Within a value row, channel n's slot
s is element n * S + s (DESIGN CHOICE, log 20: R69 orders only the indices). -/
def MM.sparseCells (x : MM) (data scales bmap : List (BitVec 8)) (t n : Nat) : List Cell :=
  let vb := rowBytes x.q.fmtB (x.nc * x.sv)
  let ib := x.nc * x.sv / 4
  (List.range (32 * x.sv)).map (fun j =>
    let i := j / x.sv
    let c := n * x.sv + j % x.sv
    let g := if x.q.sparse = 1 then j / 2 else j
    if x.absent bmap t (4 * g) then ⟨i, 0, 4 * g, .fin false 0 0⟩
    else
      let code := (rowElts x.q.fmtB (x.nc * x.sv) ((data.drop (i * vb)).take vb)).getD c 0
      let ix := eltOf 2 (leNat ((data.drop (32 * vb + i * ib)).take ib)) c
      ⟨i, 0, 4 * g + ix, x.weight scales code (4 * g + ix) n⟩)

/-- R71: a part of a tile in WM that lies in equal shares by its blocks of 32 contraction indices; an absent block's share is
not read. -/
def State.mmShares (s : State) (u : Nat) (x : MM) (bmap : List (BitVec 8)) (t : Nat) (off : Int) (len : Nat) :
    Except LErr (List (BitVec 8)) := do
  let nb := (x.kc + 31) / 32
  let ps ← (List.range nb).mapM (fun b =>
    if x.absent bmap t (32 * b) then .ok (List.replicate (len / nb) 0#8)
    else s.locRead .wm u (off + (len / nb * b : Nat)) (len / nb))
  pure ps.flatten

/-- The cells of every channel of the tile at a WM offset, with B walk index t: its values, its indices, its scales. -/
def State.mmTile (s : State) (u : Nat) (x : MM) (bmap : List (BitVec 8)) (t : Nat) (off : Int) :
    Except LErr (List (List Cell)) := do
  let vals := if x.q.sparse = 0 then x.tileBytes else 32 * rowBytes x.q.fmtB (x.nc * x.sv)
  let data1 ← s.mmShares u x bmap t off vals
  let data2 ← if x.q.sparse = 0 then pure [] else s.mmShares u x bmap t (off + (vals : Nat)) (x.tileBytes - vals)
  let data := data1 ++ data2
  let scales ← if fmtIsMx x.q.fmtB then s.mmShares u x bmap t ((x.q.scaleBBase : Int) + (t * x.kc : Nat)) x.kc else pure []
  pure ((List.range x.nc).map (fun n =>
    if x.q.sparse = 0 then x.denseCells data scales bmap t n else x.sparseCells data scales bmap t n))

/-- A magnitude truncated toward zero to a multiple of 2^q (R35 step 2). -/
def truncTo (q : Int) : Val → Val
  | .fin s m e => .fin s (unitsOf m e q).1 q
  | v => v

/-- The exponent of the leading bit of a nonzero finite value. -/
def leadExp : Val → Option Int
  | .fin _ m e => if m = 0 then none else some ((m.log2 : Int) + e)
  | _ => none

/-- R35: the exact sum of the truncated products, before it is rounded. -/
def passExact (ps : List Val) : Val :=
  let top := ps.foldl (fun (a : Option Int) p => match a, leadExp p with
    | none, e => e
    | a, none => a
    | some x, some y => some (max x y)) none
  match ps.map (truncTo ((top.getD 0) - 36)) with
  | [] => .fin false 0 0
  | v :: vs => vs.foldl Val.add v

/-- R36, R54: the status bits of a pass sum: INVALID for a NaN from factors that hold none, OVERFLOW for an infinity
from finite products. -/
def passFlags (factorsNan : Bool) (ps : List Val) (v : Val) (r : BitVec 32) : Nat :=
  if v.isNan && !factorsNan then nsInvalid
  else if (valF32 r).isInf && ps.all Val.isFin then nsOverflow else 0

/-- R49: one pair update by a pass sum. -/
def pairUpdate (hi lo : BitVec 32) (v : Val) : (BitVec 32 × BitVec 32) × Nat :=
  let ph := toF32 v
  let pl := toF32 (v.add (valF32 ph).negate)
  let a := fadd hi ph
  if !(valF32 a.1).isFin then ((a.1, 0#32), a.2)
  else
    let bv := (fsub a.1 hi).1
    let e := (fadd (fsub hi (fsub a.1 bv).1).1 (fsub ph bv).1).1
    ((a.1, (fadd (fadd lo e).1 pl).1), a.2)

/-- What a step of a MATMUL has done so far: accumulators by unit * 2^20 + offset, those it has written, status bits, the cycle
of the next pass, of the tile's first pass and of the step's first, its passes, the least deviation a tally check of it lets
through (R77), and, once it is over, where the next step begins. -/
structure MMAcc where
  acc : List (Nat × BitVec 32) := []
  dirty : List Nat := []
  flags : Nat := 0
  cyc : Nat := 0
  tileAt : Nat := 0
  stepAt : Nat := 0
  passes : Nat := 0
  tally : Option Nat := none
  full : Option WalkPos := none
  err : Option LErr := none
  deriving DecidableEq, Repr

/-- Whether a step takes no further pass: it has failed, or it is over. -/
def MMAcc.done (a : MMAcc) : Bool := a.err.isSome || a.full.isSome

def accGet (m : List (Nat × BitVec 32)) (k : Nat) : Option (BitVec 32) := (m.find? (fun p => p.1 == k)).map Prod.snd

def accSet (m : List (Nat × BitVec 32)) (k : Nat) (v : BitVec 32) : List (Nat × BitVec 32) :=
  if (accGet m k).isSome then m.map (fun p => if p.1 = k then (k, v) else p) else m ++ [(k, v)]

/-- R37, Table 2.11: INT_INEXACT, for an accumulator of an integer instruction beyond 2^24 in magnitude (log 20). -/
def beyondExact (fmt : Nat) (v : Val) : Nat :=
  if fmtIsInt fmt && (Val.fin false 1 24).lt v.abs then nsIntInexact else 0

/-- R35, R36, R49, R56: one channel of one pass: its pass sums are added to its accumulator in turn. -/
def State.mmChannel (s : State) (u : Nat) (x : MM) (unit off : Nat) (groups : List (List (Val × Val))) (a : MMAcc) :
    MMAcc :=
  groups.foldl (fun a g =>
    let k := 2 ^ 20 * unit + off
    let hi := (accGet a.acc k).getD (s.pmWord u off)
    let ps := g.map (fun p => p.1.mul p.2)
    let v := passExact ps
    let nanIn := g.any (fun p => p.1.isNan || p.2.isNan)
    let r := toF32 v
    let fl := passFlags nanIn ps v r
    if x.pair then
      let lo := (accGet a.acc (k + 4096)).getD (s.pmWord u (off + 4096))
      let w := pairUpdate hi lo v
      { a with acc := accSet (accSet a.acc k w.1.1) (k + 4096) w.1.2, dirty := (k :: (k + 4096) :: a.dirty),
               flags := a.flags ||| fl ||| w.2 ||| beyondExact x.q.fmtA (((valF32 hi).add (valF32 lo)).add v) }
    else
      let w := fadd hi r
      { a with acc := accSet a.acc k w.1, dirty := k :: a.dirty,
               flags := a.flags ||| fl ||| w.2 ||| beyondExact x.q.fmtA ((valF32 hi).add (valF32 r)) }) a

/-- The factors of a channel's pass sums: one group, or in 16-bit mode rows 0 to 15 and 16 to 31 (R56; a quadrant holds
16 rows and has one group). -/
def MM.groups (x : MM) (cells : List Cell) (rowAt : Nat → Nat → Val) : List (List (Val × Val)) :=
  let f := fun (c : Cell) => (rowAt c.pos c.elt, c.w)
  if x.mode = 2 ∧ !x.q.split then
    [(cells.filter (fun c => decide (c.row < 16))).map f, (cells.filter (fun c => decide (16 ≤ c.row))).map f]
  else [cells.map f]

/-- R77: the deviation of the tally check, in units of 2^-320, up to which a pass is let through: 2^-16 * n * P, and 0 in an
integer mode; none where the pass is not compared, having an infinite or NaN product or sum. A pass without a nonzero product
has no P and lets nothing through. -/
def MM.tallyLimit (x : MM) (gs : List (List (Val × Val))) : Option Nat :=
  let ps := gs.map (fun g => g.map (fun p => p.1.mul p.2))
  if ps.any (fun l => !(l.all Val.isFin) || !(valF32 (toF32 (passExact l))).isFin) then none
  else if fmtIsInt x.q.fmtA then some 0
  else
    let top := ps.flatten.filterMap leadExp
    match top with
    | [] => some 0
    | e :: l => some (x.kc * 2 ^ (305 + l.foldl max e).toNat)

/-- The lesser of two limits, of those that there are. -/
def leastOf (a b : Option Nat) : Option Nat :=
  match a, b with
  | some x, some y => some (min x y)
  | none, b => b
  | a, none => a

/-- A finished step: what its passes wrote. Where two quadrants wrote one accumulator, which result stands is open, hi and lo
words of a pair together (R64, log 9). -/
def MM.step (x : MM) (use : Nat) (a : MMAcc) : StepRes :=
  let offs := (a.dirty.map (fun k => k % 2 ^ 20)).eraseDups
  let whose := fun (o : Nat) => (List.range 4).filterMap (fun w =>
    if a.dirty.contains (2 ^ 20 * w + o) then accGet a.acc (2 ^ 20 * w + o) else none)
  let name := fun (o : Nat) => if x.pair then o - o / 4096 % 2 * 4096 else o
  let pm := offs.map (fun o => (o, match whose o with
    | [v] => v
    | l => l.getD (Config.freeOrder use (name o) % l.length) 0#32))
  { pm := pm, flags := a.flags, after := a.full.getD {}, tally := a.tally }

/-- R59, R62, R282: a pass enters hopper 0, or the step is over where it would begin 65,536 cycles after its first. -/
def MM.enterPass (x : MM) (here : WalkPos) (a : MMAcc) : MMAcc :=
  if a.passes ≠ 0 ∧ a.stepAt + 65536 ≤ a.cyc then { a with full := some { here with cyc := a.cyc, tileAt := a.tileAt } }
  else { a with cyc := a.cyc + x.pace, passes := a.passes + 1, stepAt := if a.passes = 0 then a.cyc else a.stepAt }

/-- One pass of every unit into the accumulator row at a PM offset. -/
def State.mmPass (s : State) (u : Nat) (x : MM) (here : WalkPos) (y : Nat) (tiles : List (List (List Cell)))
    (rowAt : Nat → Nat → Nat → Val) (a : MMAcc) : MMAcc :=
  let a := x.enterPass here a
  if a.full.isSome then a
  else (List.range x.units).foldl (fun a k =>
    let base := y + 2048 * (k / 2) + k % 2 * x.nc * 4
    let gs := (List.range x.nc).map (fun n => x.groups ((tiles.getD k []).getD n []) (rowAt k))
    let b := gs.zipIdx.foldl (fun a g => s.mmChannel u x k (base + 4 * g.2) g.1 a) a
    { b with tally := leastOf b.tally (x.tallyLimit gs.flatten) }) a

/-- R127, R147: the accumulator row of a Y point: aligned, and within the usable PM. Its words are read. -/
def State.mmYErr (s : State) (u : Nat) (x : MM) (y : Int) : Option LErr :=
  let al : Nat := if x.mode = 2 then 64 else 128
  if y % (al : Int) ≠ 0 ∨ (x.pair ∧ (y.toNat).testBit 12) then some (.fault 0x4102 (addrNat y))
  else
    let rows : List Int := (if x.q.split then [0, 2048] else [0]).flatMap (fun d => if x.pair then [d, d + 4096] else [d])
    rows.findSome? (fun d => s.locErr .pm u (y + d) al true)

/-- The passes of one tile from its row p0 and their kind k0 on (R52, R65, R73, R147-R150); `tile` counts the stored tiles
before it. -/
def State.mmTilePasses (s : State) (u : Nat) (x : MM) (lt : Latch) (zmap : List (BitVec 8)) (t stored p0 k0 : Nat)
    (tiles tilesLo : List (List (List Cell))) (a : MMAcc) : MMAcc :=
  let abase : Int := lt.a.toNat + descOffset lt.da
  let apt := fun (p : Nat) => walkPoint lt.a.toNat lt.da (t * x.m + p)
  let ypt := fun (p : Nat) => walkPoint lt.y.toNat lt.dy (t * x.m + p)
  let kg := x.kc
  let kb0 := t % x.c0 * kg / 32
  let kb1 := (t % x.c0 * kg + kg - 1) / 32
  let skip := fun (p : Nat) => zmap != [] && (List.range (kb1 + 1 - kb0)).all (fun k =>
    bitOf zmap (p / 8 * x.nkb + kb0 + k))
  let span := if x.win then (x.taps - 1) * x.dil + 1 else 1
  let outs := x.m + 1 - span
  let kinds : List (Nat × Bool) := if x.q.splitOp then [(x.rowA, false), (0, true), (0, false)] else [(0, false)]
  let askew := fun (p n : Nat) => (List.range n).find? (fun d => apt (p + d) % 16 != 0)
  let step := fun (a : MMAcc) (p : Nat) =>
    if a.done || skip p then a
    else match askew p span with
    | some d => { a with err := some (.fault 0x4102 (addrNat (apt (p + d)))) }
    | none => match s.mmYErr u x (ypt p) with
      | some e => { a with err := some e }
      | none => (kinds.zipIdx.drop (if p = p0 then k0 else 0)).foldl (fun a kd =>
        if a.done then a
        else match (List.range span).mapM (fun d => s.mmRow u x abase (apt (p + d)) kd.1.1) with
        | .error e => { a with err := some e }
        | .ok rows =>
          s.mmPass u x { i := (t * x.m + p) * 3 + kd.2, stored := stored } (ypt p).toNat (if kd.1.2 then tilesLo else tiles)
            (fun k d i => ((rows.getD d []).getD k []).getD i .nan) a) a
  let a := if p0 = 0 ∧ k0 = 0 then { a with cyc := if a.cyc = 0 then 0 else max a.cyc (a.tileAt + x.load) } else a
  let a := if p0 = 0 ∧ k0 = 0 then { a with tileAt := a.cyc } else a
  let b := ((List.range outs).drop p0).foldl step a
  if b.done then b
  else if outs = 0 then (match askew 0 x.m with
    | some d => { b with err := some (.fault 0x4102 (addrNat (apt d))) }
    | none => { b with cyc := b.cyc + x.m * x.pace })
  else { b with cyc := b.cyc + (x.m - outs) * x.pace }

/-- The tiles of the units at a WM offset. -/
def State.mmTiles (s : State) (u : Nat) (x : MM) (bmap : List (BitVec 8)) (t : Nat) (off : Int) :
    Except LErr (List (List (List Cell))) :=
  (List.range x.units).mapM (fun k => s.mmTile u x bmap t (off + (k * x.tileBytes : Nat)))

/-- One tile of the grid: absent tiles are consumed without passes (R71, R149). The second component counts the stored
tiles met so far. -/
def State.mmGridTile (s : State) (u : Nat) (x : MM) (lt : Latch) (bmap zmap : List (BitVec 8)) (pos : WalkPos)
    (st : MMAcc × Nat) (t : Nat) : MMAcc × Nat :=
  let kg := if x.win then 32 else x.kc
  let gone := x.q.tileMap && (List.range ((kg + 31) / 32)).all (fun b => x.absent bmap t (32 * b))
  if st.1.done then st
  else if gone then st
  else
    let off := if x.q.tileMap then (lt.b.toNat : Int) + descOffset lt.db + (st.2 : Int) * descStride lt.db 0
      else walkPoint lt.b.toNat lt.db t
    let here := pos.i / 3 / x.m == t
    if off % 128 ≠ 0 then ({ st.1 with err := some (.fault 0x4102 (addrNat off)) }, st.2 + 1)
    else match s.mmTiles u x bmap t off, (if x.q.splitOp then s.mmTiles u x bmap t (off + 1024) else .ok []) with
      | .ok hi, .ok lo =>
        (s.mmTilePasses u x lt zmap t st.2 (if here then pos.i / 3 % x.m else 0) (if here then pos.i % 3 else 0) hi lo st.1,
          st.2 + 1)
      | .error e, _ => ({ st.1 with err := some e }, st.2 + 1)
      | _, .error e => ({ st.1 with err := some e }, st.2 + 1)

/-- R147-R150: the maps of a MATMUL: tile bitmap and zero-block map, each read from its base as it is given (DESIGN CHOICE, log
20: R72 states nothing for a base that is not 8-byte aligned). -/
def State.mmMaps (s : State) (u : Nat) (x : MM) (db : List Word) : Except LErr (List (BitVec 8) × List (BitVec 8)) := do
  let nnb := (descCount db 1 * x.nc + 31) / 32
  let bmap ← if x.q.tileMap then s.locRead .wm u x.q.tileMapBase ((nnb * x.nkb + 7) / 8) else pure []
  let zmap ← if x.q.zmapIn && !x.win then s.locRead .am u x.q.zinBase (((x.m + 7) / 8 * x.nkb + 7) / 8) else pure []
  pure (bmap, zmap)

/-- R147-R150: what is wrong with a MATMUL at issue. -/
def matmulCheck (lt : Latch) : Option (Nat × Nat) :=
  let q := quadOf lt.quad
  let x := mmOf q lt.da lt.db
  let n := walkCount lt.db
  if lt.quad = [] ∨ mmIllegal q (lSub lt.w0) ∨ lt.level < mmLevel q then some (0x4101, 0)
  else if longEmpty 0x20 lt then none
  else if walkCount lt.da ≠ n * x.m ∨ walkCount lt.dy ≠ n * x.m ∨ (q.tileMap ∧ descLevels lt.db ≠ 2) ∨
      (q.zmapIn ∧ !x.win ∧ 2 < descLevels lt.db) then some (0x4104, 0)
  else none

/-- The passes of a step of a MATMUL from where its walks stand. -/
def State.mmRun (s : State) (u : Nat) (x : MM) (lt : Latch) (pos : WalkPos) : MMAcc :=
  match s.mmMaps u x lt.db with
  | .error e => { err := some e }
  | .ok (bmap, zmap) =>
    (((List.range (walkCount lt.db)).drop (pos.i / 3 / x.m)).foldl (s.mmGridTile u x lt bmap zmap pos)
      ({ cyc := pos.cyc, tileAt := pos.tileAt }, pos.stored)).1

/-- R147-R150, R282: one step of a MATMUL. -/
def State.matmulStep (s : State) (u : Nat) (lt : Latch) (pos : WalkPos) : LStep × State :=
  let q := quadOf lt.quad
  let x := mmOf q lt.da lt.db
  let (use, s) := if q.split then s.draw else (0, s)
  let a := s.mmRun u x lt pos
  match a.err with
  | some e => ({ err := some e }, s)
  | none => ({ res := if a.passes = 0 then none else some (x.step use a), next := a.full }, s)

/-- Table 3.10: the engine shows the MATMUL whose pass entered last. -/
def State.showEngine (s : State) (u : Nat) (q : Quad) : State :=
  (((s.put fCO_ME_STATUS_MODE u 0 (mmMode q)).put fCO_ME_STATUS_SPARSE u 0 q.sparse).put fCO_ME_STATUS_SPLIT u 0
    q.split.toNat).put fCO_ME_STATUS_WINDOW u 0 (decide (q.taps ≠ 0)).toNat

def State.idleEngine (s : State) (u : Nat) : State :=
  (((s.put fCO_ME_STATUS_MODE u 0 3).put fCO_ME_STATUS_SPARSE u 0 0).put fCO_ME_STATUS_SPLIT u 0 0).put
    fCO_ME_STATUS_WINDOW u 0 0

/-- R152: what is wrong with a PMCLR at issue. SUB[3:1] nonzero is an illegal instruction (DESIGN CHOICE, log 20: R152 states
nothing of it). -/
def pmclrCheck (lt : Latch) : Option (Nat × Nat) :=
  if 1 < lSub lt.w0 ∨ (lt.quad ≠ [] ∧ (quadOf lt.quad).pair ∧ lt.level < 3) then some (0x4101, 0) else none

/-- R152: one step of PMCLR: every walked row becomes +0 when it commits, one row a cycle. -/
def State.pmclrStep (s : State) (u : Nat) (lt : Latch) (pos : WalkPos) : LStep :=
  let q := quadOf lt.quad
  let n := if lSub lt.w0 = 1 then 16 else 32
  let total := walkCount lt.dy
  let stop := min total (pos.i + stepPoints 1 1)
  let pts := ((List.range stop).drop pos.i).map (fun i => walkPoint lt.y.toNat lt.dy i)
  let bad := pts.findSome? (fun (y : Int) =>
    if y % (4 * n : Nat) ≠ 0 then some (LErr.fault 0x4102 (addrNat y))
    else s.locErr .pm u y (4 * n + (if q.pair then 4096 else 0)) false)
  match bad with
  | some e => { err := some e }
  | none =>
    let row := fun (y : Nat) => (List.range n).map (fun j => (y + 4 * j, 0#32))
    let pm := pts.flatMap (fun y => row y.toNat ++ (if q.pair then row (y.toNat + 4096) else []))
    { res := some { pm := pm, flags := 0, after := { i := stop } }, next := if stop < total then some { i := stop } else none }

/-- R40: the per-tensor scale: fl32(scale_a * scale_b), an absent scale counting as 1.0. -/
def tensorScale (q : Quad) : BitVec 32 × Nat :=
  let one : BitVec 32 := 0x3F800000#32
  fmul (if q.scaleA then q.scaleAVal else one) (if q.scaleB then q.scaleBVal else one)

/-- R40: the value of an accumulator after the scales, before rounding to the destination. -/
def scaledAcc (t : BitVec 32) (c : Option (BitVec 32)) (acc : BitVec 32) : BitVec 32 × Nat :=
  let y := fmul acc t
  match c with
  | none => y
  | some k =>
    let z := fmul y.1 k
    (z.1, y.2 ||| z.2)

/-- Table 5.18, R151: what is illegal in a PMOUT. -/
def pmoutIllegal (q : Quad) (lt : Latch) : Bool :=
  let sub := lSub lt.w0
  sub.testBit 3 || (sub.testBit 1 && (!q.pair || q.fmtD != 9 || lt.level < 3)) || (fmtIsMx q.fmtD && sub.testBit 0) ||
    (fmtIsMx q.fmtD && lt.quad == []) || decide (lt.level < fmtLevel q.fmtD) ||
    ((q.pair || q.zmapOut) && decide (lt.level < 3))

/-- One converted row: the bytes written, the MX scale byte if any, the status bits, whether every element is zero. -/
structure OutRow where
  bytes : List (BitVec 8)
  lo : List (BitVec 8)
  scale : Option (BitVec 8)
  flags : Nat
  zero : Bool
  deriving DecidableEq, Repr

/-- R40, R42: a row of y values converted to the destination format. Rows draw one after the other (DESIGN CHOICE, log 9: R47
leaves the order of an instruction's elements open). -/
def State.convertRow (s : State) (u : Nat) (q : Quad) (ys : List (BitVec 32)) : OutRow × State :=
  let vs := ys.map valF32
  let n := rowBytes q.fmtD ys.length
  if fmtIsMx q.fmtD then
    let (bs, s) := s.cvtBlocks u q.fmtD q.sat q.sr q.ftz [vs]
    let b := bs.headD (0, [], 0)
    let z := b.1 != 0xFF && b.2.1.all (fun c => (decodeElt q.fmtD c).isZero)
    (⟨leBytes n (packElts (fmtBits q.fmtD) b.2.1), [], some (BitVec.ofNat 8 b.1), b.2.2, z⟩, s)
  else
    let (r, s) := s.cvtList u q.fmtD q.sat q.sr q.ftz vs
    (⟨leBytes n (packElts (fmtBits q.fmtD) r.1), [], none, r.2, r.1.all (fun c => (decodeElt q.fmtD c).isZero)⟩, s)

/-- R40, R50, R151: the accumulator row at a PM offset through the output stage. -/
def State.outRow (s : State) (u : Nat) (q : Quad) (lt : Latch) (a : Nat) (chan : List (BitVec 32)) : OutRow × State :=
  let n := if (lSub lt.w0).testBit 0 then 16 else 32
  let t := tensorScale q
  let c := fun (j : Nat) => if lSB lt.w0 = 0 then none else chan[j]?
  let hi := (List.range n).map (fun j => s.pmWord u (a + 4 * j))
  let lo := (List.range n).map (fun j => s.pmWord u (a + 4096 + 4 * j))
  if (lSub lt.w0).testBit 1 then
    let yh := (List.range n).map (fun j => scaledAcc t.1 (c j) (hi.getD j 0#32))
    let yl := (List.range n).map (fun j => scaledAcc t.1 (c j) (lo.getD j 0#32))
    let (h, s) := s.convertRow u q (yh.map Prod.fst)
    let (l, s) := s.convertRow u q (yl.map Prod.fst)
    (⟨h.bytes, l.bytes, none, h.flags ||| l.flags ||| orFlags (yh.map Prod.snd) ||| orFlags (yl.map Prod.snd) ||| t.2,
      h.zero && l.zero⟩, s)
  else
    let acc := (List.range n).map (fun j =>
      if q.pair then fadd (hi.getD j 0#32) (lo.getD j 0#32) else (hi.getD j 0#32, 0))
    let ys := (List.range n).map (fun j => scaledAcc t.1 (c j) (acc.getD j (0#32, 0)).1)
    let (r, s) := s.convertRow u q (ys.map Prod.fst)
    ({ r with flags := r.flags ||| orFlags (acc.map Prod.snd) ||| orFlags (ys.map Prod.snd) ||| t.2 }, s)

/-- R126, R127, R151: why a row of a PMOUT cannot be taken: A point, B point, destination. Its words are read. -/
def State.pmoutRowErr (s : State) (u : Nat) (q : Quad) (lt : Latch) (i : Nat) : Option LErr :=
  let n := if (lSub lt.w0).testBit 0 then 16 else 32
  let a := walkPoint lt.a.toNat lt.da i
  let b := walkPoint lt.b.toNat lt.db i
  let y := walkPoint lt.y.toNat lt.dy i
  if a % (4 * n : Nat) ≠ 0 then some (.fault 0x4102 (addrNat a))
  else if y < 0 ∨ 2 ≤ addrForm (addrNat y) then some (.fault 0x4103 (addrNat y))
  else if lSB lt.w0 ≠ 0 ∧ b % 128 ≠ 0 then some (.fault 0x4102 (addrNat b))
  else
    let rows := if q.pair then [a, a + 4096] else [a]
    match rows.findSome? (fun r => s.locErr .pm u r (4 * n) true) with
    | some e => some e
    | none => if lSB lt.w0 ≠ 0 then s.locErr .am u b (4 * n) true else none

/-- R86, R91: who makes the request of an output: the output stage inside the core's own memories, the DMA unit outside. -/
def State.outRq (s : State) (u : Nat) (lt : Latch) (a : Nat) : Rq :=
  if s.ownAccess (.part u 1 lt.org) a then .part u 1 lt.org else .coreDma u lt.org

/-- What the rows of a PMOUT have done so far. -/
structure OutAcc where
  pm : List (Nat × BitVec 32) := []
  flags : Nat := 0
  zeros : List Bool := []
  fault : Option (Nat × Nat) := none
  err : Option LErr := none
  writes : Nat := 0
  held : Bool := false
  deriving DecidableEq, Repr

def OutAcc.done (o : OutAcc) : Bool := o.fault.isSome || o.err.isSome || o.held

/-- A write of an output instruction; an error response is fault 0x4106 (R158). One that leaves the core awaits its
acknowledgement. -/
def State.outWrite (s : State) (u : Nat) (lt : Latch) (a : Nat) (bs : List (BitVec 8)) (o : OutAcc) : OutAcc × State :=
  if bs = [] ∨ o.done then (o, s)
  else
    let rq := s.outRq u lt a
    match s.writeAll rq a bs with
    | (.ok _, t) => ({ o with writes := o.writes + (if s.ownAccess rq a then 0 else (bs.length + 63) / 64) }, t)
    | (.err _, t) => ({ o with fault := some (0x4106, a) }, t)
    | (.held, t) => ({ o with held := true }, t)

/-- A local write of maps and scales to AM. -/
def State.amWrite (s : State) (u : Nat) (off : Nat) (bs : List (BitVec 8)) (o : OutAcc) : OutAcc × State :=
  if bs = [] ∨ o.done then (o, s)
  else match s.locErr .am u off bs.length false with
    | some e => ({ o with err := some e }, s)
    | none => (o, s.storeBytes (amBase u + off) (bs.map some))

def State.pmoutRow (u : Nat) (q : Quad) (lt : Latch) (st : OutAcc × State) (i : Nat) : OutAcc × State :=
  let (o, s) := st
  if o.done then (o, s)
  else match s.pmoutRowErr u q lt i with
    | some e => ({ o with err := some e }, s)
    | none =>
      let n := if (lSub lt.w0).testBit 0 then 16 else 32
      let a := (walkPoint lt.a.toNat lt.da i).toNat
      let y := (walkPoint lt.y.toNat lt.dy i).toNat
      let chan := if lSB lt.w0 = 0 then [] else
        (List.range n).map (fun j => BitVec.ofNat 32
          (s.physNat (amBase u + (walkPoint lt.b.toNat lt.db i).toNat + 4 * j) 4))
      let (r, s) := s.outRow u q lt a chan
      let (o, s) := s.outWrite u lt y r.bytes { o with flags := o.flags ||| r.flags, zeros := o.zeros ++ [r.zero] }
      let (o, s) := s.outWrite u lt (y + 4096) r.lo o
      let (o, s) := s.amWrite u (q.scaleABase + i) (r.scale.toList) o
      let clear := fun (b : Nat) => (List.range n).map (fun j => (b + 4 * j, 0#32))
      let cl := if (lSub lt.w0).testBit 2 then clear a ++ (if q.pair then clear (a + 4096) else []) else []
      ({ o with pm := o.pm ++ cl }, s)

/-- Bits packed from bit 0 of the first byte. -/
def packBits (bs : List Bool) : List (BitVec 8) :=
  leBytes ((bs.length + 7) / 8) (bs.foldr (fun b a => b.toNat + 2 * a) 0)

/-- R72, R151, R153: the zero-block map of rows (level 0 counts `inner`): bit (m div 8) * width + kb. -/
def zeroMap (rows width : Nat) (isZero : Nat → Nat → Bool) : List (BitVec 8) :=
  packBits ((List.range ((rows + 7) / 8 * width)).map (fun b =>
    (List.range 8).all (fun r => let m := b / width * 8 + r
                                 decide (rows ≤ m) || isZero m (b % width))))

/-- R151: what is wrong with a PMOUT at issue. -/
def pmoutCheck (lt : Latch) : Option (Nat × Nat) :=
  let q := quadOf lt.quad
  if pmoutIllegal q lt then some (0x4101, 0)
  else if longEmpty 0x21 lt then none
  else if walkCount lt.da ≠ walkCount lt.dy ∨ (lSB lt.w0 ≠ 0 ∧ walkCount lt.da ≠ walkCount lt.db) ∨
      (q.zmapOut ∧ descLevels lt.da ≠ 2) then some (0x4104, 0)
  else none

/-- R151: the destination bytes that one accumulator row produces. -/
def pmoutBytes (q : Quad) (lt : Latch) : Nat :=
  rowBytes q.fmtD (if (lSub lt.w0).testBit 0 then 16 else 32) * (if (lSub lt.w0).testBit 1 then 2 else 1)

/-- R40-R43, R50, R151: one step of PMOUT, its writes performed; the last one writes the zero-block map, at its base as it is given
(DESIGN CHOICE, log 20). -/
def State.pmoutStep (s : State) (u : Nat) (lt : Latch) (pos : WalkPos) : LStep × State :=
  let q := quadOf lt.quad
  let total := walkCount lt.da
  let stop := min total (pos.i + stepPoints ((pmoutBytes q lt + 63) / 64) 1)
  let (o, t) := ((List.range stop).drop pos.i).foldl (State.pmoutRow u q lt) ({ zeros := pos.zeros }, s)
  let rows := descCount lt.da 0
  let map := if q.zmapOut ∧ stop = total then
      zeroMap rows (descCount lt.da 1) (fun m b => o.zeros.getD (b * rows + m) false) else []
  let (o, t) := t.amWrite u q.zoutBase map o
  let after : WalkPos := { i := stop, zeros := o.zeros }
  if o.done then ({ fault := o.fault, err := o.err, held := o.held }, t)
  else ({ res := some { pm := o.pm, flags := o.flags, after := after }, next := if stop < total then some after else none,
          writes := o.writes }, t)

end Sys2Proof.Machine
end

