-- ==== Sys2Proof/Machine/Dma.lean ====
section
/-! DEFINITION. The DMA unit, REDUCE and ZMAP (04_core_and_cluster_memories.md R95, R96; 05_qn_instruction_set.md R153-R155;
07_conditional_computation.md R207-R209; 08_on_die_network.md R247). A transfer serves both the DMA unit of a core and
the DMA engine of a sequencer. -/

namespace Sys2Proof.Machine

/-- Why a transfer stops: a fault of the instruction, a local access that failed, an error response at an address, a dispatch list
that is not ready, a list header that cannot be read, or a request that is held. -/
inductive DErr where
  | fault (event addr : Nat)
  | loc (e : LErr)
  | resp (addr : Nat)
  | list (addr : Nat)
  | header (addr : Nat)
  | held
  deriving DecidableEq, Repr

/-- What a transfer comes to: none when every run has been performed. -/
abbrev DRes := Option DErr × State

/-- R126, R174: n bytes from an address lie in one of the two forms a transfer may name. -/
def formOk (a : Int) (n : Nat) : Bool :=
  decide (0 ≤ a) && decide (addrForm a.toNat < 2) && addrForm (a.toNat + (n - 1)) == addrForm a.toNat

/-- One run: n bytes read at src and written at dst. -/
def State.moveRun (s : State) (rq : Rq) (n : Nat) (src dst : Int) : DRes :=
  if !formOk src n then (some (.fault 0x4103 (addrNat src)), s)
  else if !formOk dst n then (some (.fault 0x4103 (addrNat dst)), s)
  else match s.readMem rq src.toNat n with
    | (.err _, t) => (some (.resp src.toNat), t)
    | (.held, _) => (some .held, s)
    | (.ok bs, t) => match t.writeAll rq dst.toNat bs with
      | (.ok _, t) => (none, t)
      | (.err _, t) => (some (.resp dst.toNat), t)
      | (.held, _) => (some .held, s)

/-- Runs started in walk order until one stops the transfer (R154). -/
def runAll {A : Type} (f : State → A → DRes) : State → List A → DRes
  | s, [] => (none, s)
  | s, x :: l => match f s x with
    | (none, t) => runAll f t l
    | r => r

/-- A transfer: who makes it, SUB, sA, sY, sB, the list address (SUB 6 and 7) and the descriptor of the walked side. -/
structure DmaJob where
  rq : Rq
  sub : Nat
  a : Nat
  y : Nat
  b : Nat
  list : Nat
  d : List Word
  deriving DecidableEq, Repr

def DmaJob.len (j : DmaJob) : Nat := fieldOf 0 32 j.b

/-- R95: the element width of a transposing copy. -/
def DmaJob.width (j : DmaJob) : Nat := 4 * 2 ^ (j.sub - 2)

/-- Walk points of the walked side from its base. -/
def DmaJob.point (j : DmaJob) (base i : Nat) : Int := walkPoint (base : Int) j.d i

/-- R85, R95: whether an address lies in the AM of a core or in CM: the memories with a transposing path. -/
def transposes (a : Nat) : Bool :=
  decide (0x010000000000 ≤ a) && decide (a < 0x010300000000) &&
    (let o := a % 0x10000000
     decide (o < 0x01800000) ||
       (((decide (0x02000000 ≤ o) && decide (o < 0x05800000)) || (decide (0x08000000 ≤ o) && decide (o < 0x0B000000))) &&
         decide (0x100000 ≤ o % 0x200000) && decide (o % 0x200000 < 0x1C0000)))

/-- R96: a refused transposing write: event 0x2005 at the destination. -/
def State.transposeRefuse (s : State) (rq : Rq) (dst : Nat) : State :=
  match s.locate rq dst with
  | .ok p => s.refuse rq 0x2005 (placeUnit p) p.slot? p.cluster dst
  | .bad e unit slot c => s.refuse rq e unit slot c dst
  | .held => s.refuse rq 0x2005 (unitCl (clusterAt dst) 0) none
      (clusterAt dst) dst

/-- R95: the transposing path at a destination, as a unit and an index of an ostler of kind 2: that of a cluster's CM, or of a
slot's AM. -/
def State.pathAt (s : State) (rq : Rq) (dst : Nat) : Nat × Nat :=
  match s.locate rq dst with
  | .ok p => (p.cluster, match p.slot? with
    | some u => 1 + u % 28
    | none => 0)
  | _ => (clusterAt dst, 0)

/-- Whether a grant of a path is held by one and the same writer's tile. -/
def Holding.isFor (h : Holding) (rq : Rq) (dst : Nat) : Bool := h.rq == rq && h.addr == dst

/-- R95, R241: whether a writer is not granted a path: its ostler is frozen, or both tile buffers are held by others. -/
def State.pathBusy (s : State) (rq : Rq) (dst : Nat) : Bool :=
  let p := s.pathAt rq dst
  s.frozen 2 p.1 p.2 (s.lodgingOf rq) ||
    decide (holdLimit 2 ≤ ((s.ostler (ostlerAt 2 p.1 p.2)).holds.filter (fun h => !h.isFor rq dst)).length)

/-- R237: the grant of a path, unless the writer holds one already; it is released with the end of the write. -/
def State.pathGrant (s : State) (rq : Rq) (dst : Nat) : State :=
  let p := s.pathAt rq dst
  let k := ostlerAt 2 p.1 p.2
  match s.holder? k (fun h => h.isFor rq dst) with
  | some h => s.letGo k h
  | none => s.served 2 p.1 p.2 ⟨0, 0, rq.unit, s.lodgingOf rq, 0⟩

/-- R95: destination row c of a tile: element r is element c of source row r. -/
def tileRow (w : Nat) (rows : List Nat) (c : Nat) : List (BitVec 8) :=
  leBytes (4 * w) (packElts w (rows.map (fun r => eltOf w r c)))

/-- Rows stored at physical addresses. -/
def State.storeRows (s : State) : List (Nat × List (BitVec 8)) → State
  | [] => s
  | (a, bs) :: l => (s.storeBytes a (bs.map some)).storeRows l

/-- R96: what a transposing write is refused for, whatever the state of its destination: a tile that has stopped short, an
element width or an MX format, a base or a pitch. A destination without a path is refused the same way (DESIGN CHOICE, log 51). -/
def tileBad (w dst pitch : Nat) (mx : Bool) (rows : List Nat) : Bool :=
  rows.length != 32 || !(w == 4 || w == 8 || w == 16) || mx || dst % 16 != 0 || pitch % 16 != 0 || decide (pitch < 4 * w) ||
    !transposes dst

/-- R95, R96: a transposing write of one tile: refused whole with event 0x2005, or refused by a row's place, or
performed whole. The rows are the packed source rows delivered. -/
def State.transposeTile (s : State) (rq : Rq) (w dst pitch : Nat) (mx : Bool) (rows : List Nat) : Got Unit × State :=
  if s.pathBusy rq dst then (.held, s)
  else if tileBad w dst pitch mx rows then (.err 0x2005, (s.pathGrant rq dst).transposeRefuse rq dst)
  else
    let look := (List.range 32).map (fun c => (c, s.request rq (dst + c * pitch) (4 * w) false true false))
    match look.find? (fun p => match p.2.1 with
        | .ok _ => false
        | _ => true) with
    | some (_, .err e, t) => (.err e, t.pathGrant rq dst)
    | some _ => (.held, s)
    | none => (.ok (), (s.pathGrant rq dst).storeRows (look.filterMap (fun p => match p.2.1 with
        | .ok pa => some (pa, tileRow w rows p.1)
        | _ => none)))

/-- The destination of tile k of a transposing copy, and its pitch. -/
def DmaJob.tileAt (j : DmaJob) (k : Nat) : Nat := j.y + k * (fieldOf 48 16 j.b) * 16
def DmaJob.pitch (j : DmaJob) : Nat := fieldOf 32 16 j.b * 16

/-- The source rows of a tile, run by run. -/
def State.tileRows (j : DmaJob) (s : State) (pts : List Int) : Except DErr (List Nat) × State :=
  pts.foldl (fun (acc : Except DErr (List Nat) × State) p => match acc with
    | (.error e, t) => (.error e, t)
    | (.ok l, t) => match t.readMem j.rq p.toNat j.len with
      | (.ok bs, t) => (.ok (l ++ [leNat bs]), t)
      | (.err _, t) => (.error (.resp p.toNat), t)
      | (.held, t) => (.error .held, t)) (.ok [], s)

/-- A tile of a transposing copy: 32 runs read as source rows, then the tile written. A source that fails stops short of row 31,
and its tile is refused at the destination (R96). -/
def State.dmaTile (j : DmaJob) (s : State) (k : Nat) : DRes :=
  let pts := (List.range 32).map (fun r => j.point j.a (32 * k + r))
  let dst := j.tileAt k
  match pts.find? (fun (p : Int) => !formOk p j.len) with
  | some p => (some (.fault 0x4103 (addrNat p)), s)
  | none => match State.tileRows j s pts with
    | (.error .held, _) => (some .held, s)
    | (.error e, t) => (some e, t.transposeRefuse j.rq dst)
    | (.ok rows, t) => match t.transposeTile j.rq j.width dst j.pitch false rows with
      | (.ok _, t) => (none, t)
      | (.err _, t) => (some (.resp dst), t)
      | (.held, _) => (some .held, s)

/-- A filled run (SUB 5). -/
def State.fillRun (j : DmaJob) (s : State) (i : Nat) : DRes :=
  let p := j.point j.y i
  if !formOk p j.len then (some (.fault 0x4103 (addrNat p)), s)
  else match s.writeAll j.rq p.toNat (List.replicate j.len (BitVec.ofNat 8 j.a)) with
    | (.ok _, t) => (none, t)
    | (.err _, t) => (some (.resp p.toNat), t)
    | (.held, _) => (some .held, s)

/-- R205: fields of a dispatch list header. -/
def listField (h : List (BitVec 8)) (o n : Nat) : Nat := leNat ((h.drop o).take n)

/-- R208, R209: the walk index that an entry of a dispatch list names; `start` is the first entry of the range and `k` the
slots of a token. -/
def State.entryIx (j : DmaJob) (start k : Nat) (s : State) (i : Nat) : Except DErr Nat × State :=
  match s.readMem j.rq (j.list + 2112 + 8 * (start + i)) 8 with
  | (.err _, t) => (.error (.resp (j.list + 2112 + 8 * (start + i))), t)
  | (.held, _) => (.error .held, s)
  | (.ok bs, t) =>
    let e := leNat bs
    let ix := if j.sub = 6 then fieldOf 32 16 e else fieldOf 32 16 e * k + fieldOf 56 3 e
    if walkCount j.d ≤ ix then (.error (.fault 0x4104 j.list), t) else (.ok ix, t)

/-- R209: the two addresses of a listed run, by its entry's place in the range and its walk index. -/
def DmaJob.listedRun (j : DmaJob) (i ix : Nat) : Int × Int :=
  if j.sub = 6 then (j.point j.a ix, (j.y : Int) + (i * j.len : Nat)) else ((j.a : Int) + (i * j.len : Nat), j.point j.y ix)

/-- R208, R209: one entry of a dispatch list moved. -/
def State.entryRun (j : DmaJob) (start k : Nat) (s : State) (i : Nat) : DRes :=
  match State.entryIx j start k s i with
  | (.error e, t) => (some e, t)
  | (.ok ix, t) => t.moveRun j.rq j.len (j.listedRun i ix).1 (j.listedRun i ix).2

/-- R208: what the header of a dispatch list, read once when the DMA starts, comes to: its first entry, the slots of a token, and
the number of entries. -/
def State.listHeader (s : State) (j : DmaJob) : Except DErr (List Nat) × State :=
  if !formOk j.list 2112 then (.error (.fault 0x4103 j.list), s)
  else match s.readMem j.rq j.list 2112 with
    | (.err _, t) => (.error (.header j.list), t)
    | (.held, _) => (.error .held, s)
    | (.ok h, t) =>
      let first := fieldOf 32 8 j.b
      let last := fieldOf 40 8 j.b
      if listField h 0 4 ≠ 1 ∨ last < first ∨ listField h 20 2 ≤ last then (.error (.list j.list), t)
      else
        let st := listField h (1088 + 4 * first) 4
        let n := listField h (1088 + 4 * last) 4 + listField h (64 + 4 * last) 4 - st
        (.ok [st, listField h 22 1, n], t)

/-- R248: the destination of a REDUCE_ADD lies in the CM or the AM of a core (R247). -/
def reduceDest (a : Nat) : Bool := transposes a

/-- R247: a flit of 16 values leaves for its destination, or the destination is refused with event 0x300D. -/
def State.sendFlit (s : State) (rq : Rq) (op src dst : Nat) (lanes : List (BitVec 32)) : DRes :=
  let l := (s.lodgingOf rq).getD 0xFF
  let c := clusterAt dst
  if !reduceDest dst || s.ownerOf c != some l then
    let o := s.originRq rq
    let ev : Ev := { event := 0x300D, unit := rq.unit, outcome := 4, waybill := o.way, stream := o.stream, tag := o.tag,
                     lodging := some l, detail := leBytes 8 dst ++ leBytes 4 rq.unit }
    (some (.resp dst), (s.record ev).emit .errorResponse rq.unit 0x300D [dst])
  else
    let f : RedFlit := { rq := rq, op := op, addr := dst, lodging := l, lanes := lanes, merge := true, src := src, issued := s.now,
                         entry := none, reread := false }
    (none, { s with net := { s.net with flits := s.net.flits ++ [f] } })

/-- Sixteen lanes of 64 bytes. -/
def lanes16 (bs : List (BitVec 8)) : List (BitVec 32) :=
  (List.range 16).map (fun k => BitVec.ofNat 32 (leNat ((bs.drop (4 * k)).take 4)))

/-- R247: one run stored with in-network reduction, 64 bytes a flit. -/
def State.reduceRun (j : DmaJob) (op : Nat) (s : State) (i : Nat) : DRes :=
  let src : Nat := j.a + i * j.len
  let dst := j.point j.y i
  if !formOk src j.len then (some (.fault 0x4103 src), s)
  else if !formOk dst j.len then (some (.fault 0x4103 (addrNat dst)), s)
  else if dst % 64 ≠ 0 then (some (.fault 0x4102 (addrNat dst)), s)
  else match s.readMem j.rq src j.len with
    | (.err _, t) => (some (.resp src), t)
    | (.held, _) => (some .held, s)
    | (.ok bs, t) =>
      runAll (fun s k => s.sendFlit j.rq op (src + 64 * k) (dst.toNat + 64 * k) (lanes16 (bs.drop (64 * k)))) t
        (List.range (j.len / 64))

/-- R95, R154, R207, R247: what is wrong with a transfer before its first run. -/
def dmaCheck (j : DmaJob) : Option (Nat × Nat) :=
  let n := walkCount j.d
  if 8 < j.sub then some (0x4101, 0)
  else if (j.sub = 6 ∨ j.sub = 7) ∧ fieldOf 48 16 j.b ≠ 0 then some (0x4101, 0)
  else if j.len = 0 ∨ 1048576 < j.len then some (0x4104, 0)
  else if j.sub = 2 ∨ j.sub = 3 ∨ j.sub = 4 then
    if !transposes j.y then some (0x4101, j.y)
    else if j.len ≠ 4 * j.width ∨ n % 32 ≠ 0 then some (0x4104, 0) else none
  else if j.sub = 8 ∧ j.len % 64 ≠ 0 then some (0x4102, 0)
  else none

/-- R154, R207: whether a transfer follows a dispatch list, and the units it moves: runs, tiles of 32 runs, or entries. -/
def DmaJob.listed (j : DmaJob) : Bool := j.sub == 6 || j.sub == 7

def DmaJob.units (j : DmaJob) (header : List Nat) : Nat :=
  if j.listed then header.getD 2 0
  else if j.sub = 2 ∨ j.sub = 3 ∨ j.sub = 4 then walkCount j.d / 32
  else walkCount j.d

/-- R154: one unit of a transfer. `op` names the instruction its flits belong to. -/
def State.dmaUnit (j : DmaJob) (op : Nat) (header : List Nat) (s : State) (i : Nat) : DRes :=
  match j.sub with
  | 0 => s.moveRun j.rq j.len (j.point j.a i) ((j.y : Int) + (i * j.len : Nat))
  | 1 => s.moveRun j.rq j.len ((j.a : Int) + (i * j.len : Nat)) (j.point j.y i)
  | 5 => State.fillRun j s i
  | 8 => State.reduceRun j op s i
  | 6 => State.entryRun j (header.getD 0 0) (header.getD 1 0) s i
  | 7 => State.entryRun j (header.getD 0 0) (header.getD 1 0) s i
  | _ => State.dmaTile j s i

/-- The header of a transfer that follows a list; empty for the others. -/
def State.dmaHeader (s : State) (j : DmaJob) : Except DErr (List Nat) × State :=
  if j.listed then s.listHeader j else (.ok [], s)

/-- Flits of an instruction on their way: its writes not yet performed. -/
def State.flitsOf (s : State) (op : Nat) : Nat := (s.net.flits.filter (fun f => f.op == op)).length

/-- The transfer a latched DMA of a core asks for. -/
def dmaJobOf (u : Nat) (lt : Latch) : DmaJob :=
  let sub := lSub lt.w0
  { rq := .coreDma u lt.org, sub := sub, a := lt.a.toNat, y := lt.y.toNat, b := lt.b.toNat, list := lt.b1.toNat,
    d := if sub = 1 ∨ sub = 5 ∨ sub = 7 ∨ sub = 8 then lt.dy else lt.da }

/-- R25, R207, Table 5.18: DMA operations that are illegal in their form or at the contract level. -/
def dmaIllegal (lt : Latch) : Bool :=
  let sub := lSub lt.w0
  decide (8 < sub) || (sub == 8 && decide (3 ≤ lt.level)) ||
    ((sub == 6 || sub == 7) && (decide (lt.level < 3) || lSB lt.w0 % 2 != 0 || lSB lt.w0 == 0))

/-- What a stopped transfer or element access makes of a step. -/
def derrStep : DErr → LStep
  | .fault e a => lFault e a
  | .loc e => { err := some e }
  | .resp a => lFault 0x4106 a
  | .list a => lFault 0x4104 a
  | .header a => lFault 0x4106 a
  | .held => { held := true }

/-- R95, R154, R207: what is wrong with a DMA of a core at issue. -/
def dmaFault (u : Nat) (lt : Latch) : Option (Nat × Nat) := if dmaIllegal lt then some (0x4101, 0) else dmaCheck (dmaJobOf u lt)

/-- R282: the units of a transfer that begin within a step: 64 bytes a cycle, and a run of up to 64 bytes or a row of a tile takes a
cycle. -/
def DmaJob.stepUnits (j : DmaJob) : Nat :=
  stepPoints ((j.len + 63) / 64 * (if j.sub = 2 ∨ j.sub = 3 ∨ j.sub = 4 then 32 else 1)) 1

/-- Where unit i of a transfer is written; for a scatter by a list, where its walk begins. -/
def DmaJob.target (j : DmaJob) (i : Nat) : Int :=
  match j.sub with
  | 1 => j.point j.y i
  | 5 => j.point j.y i
  | 7 => j.point j.y 0
  | 0 => (j.y : Int) + (i * j.len : Nat)
  | 6 => (j.y : Int) + (i * j.len : Nat)
  | _ => (j.tileAt i : Int)

/-- R86, R146: the requests by which units of a transfer leave the core. -/
def State.leaving (s : State) (j : DmaJob) (l : List Nat) : Nat :=
  (l.filter (fun i => !s.ownAccess j.rq (j.target i).toNat)).length * ((j.len + 63) / 64)

/-- R154, R282: one step of a DMA of a core: the units that begin in it, performed. -/
def State.dmaStep (s : State) (u op : Nat) (lt : Latch) (pos : WalkPos) : LStep × State :=
  let j := dmaJobOf u lt
  let hd := if pos.i = 0 then s.dmaHeader j else (.ok pos.header, s)
  match hd with
  | (.error e, t) => (derrStep e, t)
  | (.ok h, t) =>
    let total := j.units h
    let stop := min total (pos.i + j.stepUnits)
    let l := (List.range stop).drop pos.i
    if total = 0 then ({}, t)
    else match runAll (State.dmaUnit j op h) t l with
      | (some e, t) => (derrStep e, t)
      | (none, t) =>
        let after : WalkPos := { i := stop, header := h }
        ({ res := some { pm := [], flags := 0, after := after }, next := if stop < total then some after else none,
           writes := if j.sub = 8 then l.length * (j.len / 64) else t.leaving j l }, t)

/-- R155: the byte address and the bit within it of element point p: packed formats count elements from sA. -/
def eltPlace (fmt : Nat) (a : Nat) (p : Int) : Int × Nat :=
  let b := fmtBits fmt
  if b < 8 then
    let bit := (p - a) * b
    ((a : Int) + bit / 8, (bit % 8).toNat)
  else (p, 0)

/-- One element read and converted to FP32, with its status bits. -/
def State.reduceElt (s : State) (u : Nat) (q : Quad) (lt : Latch) (i : Nat) : Except DErr (BitVec 32 × Nat) × State :=
  let fmt := q.fmtA
  let pl := eltPlace fmt lt.a.toNat (walkPoint lt.a.toNat lt.da i)
  let n := if pl.2 + fmtBits fmt ≤ 8 then 1 else if fmtBits fmt < 8 then 2 else fmtBits fmt / 8
  let sc : Except LErr (List (BitVec 8)) :=
    if fmtIsMx fmt then s.locRead .am u ((q.scaleABase : Int) + (i / 32 : Nat)) 1 else .ok []
  if !formOk pl.1 n then (.error (.fault 0x4103 (addrNat pl.1)), s)
  else match sc with
    | .error e => (.error (.loc e), s)
    | .ok scale => match s.readMem (.coreDma u lt.org) pl.1.toNat n with
      | (.ok bs, t) => (.ok (cvtToF32 fmt (scale.headD 0#8).toNat (fieldOf pl.2 (fmtBits fmt) (leNat bs))), t)
      | (.err _, t) => (.error (.resp pl.1.toNat), t)
      | (.held, t) => (.error .held, t)

/-- Elements of a REDUCE, by their walk indices. -/
def State.reduceElts (s : State) (u : Nat) (q : Quad) (lt : Latch) (l : List Nat) :
    Except DErr (List (BitVec 32 × Nat)) × State :=
  l.foldl (fun acc i => match acc with
    | (.error e, t) => (.error e, t)
    | (.ok l, t) => match t.reduceElt u q lt i with
      | (.ok x, t) => (.ok (l ++ [x]), t)
      | (.error e, t) => (.error e, t)) (.ok [], s)

/-- R155: what is wrong with a REDUCE at issue. -/
def reduceCheck (lt : Latch) : Option (Nat × Nat) :=
  if lDY lt.w1 ≠ 0 ∨ 4 < lSub lt.w0 % 8 ∨ lt.level < fmtLevel (quadOf lt.quad).fmtA then some (0x4101, 0) else none

/-- R155: the value and status bits that elements reduce to, in walk order, with the order of additions drawn. -/
def State.reduceAll (s : State) (lt : Latch) (vals : List (BitVec 32)) : (Word × Nat) × State :=
  let (c, t) := s.draw
  let ys := vals.zipIdx.map (fun x => (x.2, x.1))
  ((reduceVals c (lSub lt.w0 % 8) ((lSub lt.w0).testBit 3) ys).getD (0#64, 0), t)

/-- R155, R282: the elements of a REDUCE that begin within a step: 64 bytes a cycle where they lie side by side, else one a
cycle. -/
def reduceStepElts (q : Quad) (lt : Latch) : Nat :=
  let b := fmtBits q.fmtA
  let side : Int := if b < 8 then 1 else b / 8
  if descLevels lt.da ≠ 0 ∧ descStride lt.da 0 = side then stepPoints b 512 else stepPoints 1 1

/-- R155: one step of a REDUCE; the last one gives the result, over the elements of all. -/
def State.reduceStep (s : State) (u : Nat) (lt : Latch) (pos : WalkPos) : LStep × State :=
  let q := quadOf lt.quad
  let total := walkCount lt.da
  let stop := min total (pos.i + reduceStepElts q lt)
  match s.reduceElts u q lt ((List.range stop).drop pos.i) with
  | (.error e, t) => (derrStep e, t)
  | (.ok xs, t) =>
    let fl := orFlags (xs.map Prod.snd)
    let after : WalkPos := { i := stop, vals := pos.vals ++ xs.map Prod.fst }
    if stop < total then ({ res := some { pm := [], flags := fl, after := after }, next := some after }, t)
    else
      let (r, t) := t.reduceAll lt after.vals
      ({ res := some { pm := [], flags := fl ||| r.2, after := after }, sreg := some (lSY lt.w1, r.1) }, t)

/-- R153: whether the run with walk index r is all zero. -/
def State.zmapRun (s : State) (u : Nat) (q : Quad) (lt : Latch) (r : Nat) : Except DErr Bool × State :=
  let p := walkPoint lt.a.toNat lt.da r
  let n := rowBytes q.fmtA 32
  let sc : Except LErr (List (BitVec 8)) :=
    if fmtIsMx q.fmtA then s.locRead .am u ((q.scaleABase : Int) + r) 1 else .ok []
  if !formOk p n then (.error (.fault 0x4103 (addrNat p)), s)
  else match sc with
    | .error e => (.error (.loc e), s)
    | .ok scale => match s.readMem (.coreDma u lt.org) p.toNat n with
      | (.ok bs, t) =>
        (.ok ((rowElts q.fmtA 32 bs).all (fun c => (decodeElt q.fmtA c).isZero) && scale != [0xFF#8]), t)
      | (.err _, t) => (.error (.resp p.toNat), t)
      | (.held, t) => (.error .held, t)

def State.zmapRuns (s : State) (u : Nat) (q : Quad) (lt : Latch) (l : List Nat) : Except DErr (List Bool) × State :=
  l.foldl (fun acc i => match acc with
    | (.error e, t) => (.error e, t)
    | (.ok l, t) => match t.zmapRun u q lt i with
      | (.ok x, t) => (.ok (l ++ [x]), t)
      | (.error e, t) => (.error e, t)) (.ok [], s)

/-- R153: what is wrong with a ZMAP at issue. -/
def zmapCheck (lt : Latch) : Option (Nat × Nat) := if lt.quad = [] ∨ lt.level < 3 then some (0x4101, 0) else none

/-- R153: one step of a ZMAP; the last one writes the map: level 0 counts the blocks along K, the higher levels rows. -/
def State.zmapStep (s : State) (u : Nat) (lt : Latch) (pos : WalkPos) : LStep × State :=
  let q := quadOf lt.quad
  let total := walkCount lt.da
  let stop := min total (pos.i + stepPoints (rowBytes q.fmtA 32) 64)
  match s.zmapRuns u q lt ((List.range stop).drop pos.i) with
  | (.error e, t) => (derrStep e, t)
  | (.ok l, t) =>
    let zs := pos.zeros ++ l
    let after : WalkPos := { i := stop, zeros := zs }
    let width := if descLevels lt.da = 0 then 1 else descCount lt.da 0
    let map := if stop = total then zeroMap (zs.length / width) width (fun m b => zs.getD (m * width + b) false) else []
    let (o, t) := t.amWrite u q.zoutBase map {}
    if o.done then ({ err := o.err }, t)
    else ({ res := some { pm := [], flags := 0, after := after }, next := if stop < total then some after else none }, t)

/-- R131-R155: what is wrong with a long instruction at issue, by opcode. -/
def longCheck (u opc : Nat) (lt : Latch) : Option (Nat × Nat) :=
  if longIllegal lt then some (0x4101, 0)
  else if opc = 0x20 then matmulCheck lt
  else if opc = 0x21 then pmoutCheck lt
  else if opc = 0x22 then pmclrCheck lt
  else if opc = 0x23 then dmaFault u lt
  else if opc = 0x24 then reduceCheck lt
  else zmapCheck lt

/-- One step of a long instruction, by opcode, from where its walks stand. -/
def State.longStep (s : State) (u op opc : Nat) (lt : Latch) (pos : WalkPos) : LStep × State :=
  if opc = 0x20 then s.matmulStep u lt pos
  else if opc = 0x21 then s.pmoutStep u lt pos
  else if opc = 0x22 then (s.pmclrStep u lt pos, s)
  else if opc = 0x23 then s.dmaStep u op lt pos
  else if opc = 0x24 then s.reduceStep u lt pos
  else s.zmapStep u lt pos

end Sys2Proof.Machine
end

