-- ==== Sys2Proof/Machine/Issue.lean ====
section
/-! DEFINITION. Long instructions in flight (05_qn_instruction_set.md R140-R146, R157, 06_command_streams.md R175,
10_result_integrity.md R282-R285): the generators they take, the steps they carry out, their completion and their faults, and
the issue of each. -/

namespace Sys2Proof.Machine

def State.setOp (s : State) (o : LongOp) : State :=
  { s with core := { s.core with ops := s.core.ops.map (fun x => if x.id = o.id then o else x) } }

def State.opAt (s : State) (id : Nat) : Option LongOp := s.core.ops.find? (fun o => o.id == id)

/-! ### Generators (R144) -/

/-- Walks of an instruction begun, each with the lowest-numbered free generator; the first argument bounds their number. -/
def State.claim : Nat → State → LongOp → LongOp × State
  | 0, s, o => (o, s)
  | k + 1, s, o => match s.freeGens o.u with
    | [] => (o, s)
    | g :: _ =>
      let y := o.opc == 0x20 && o.walks != 0
      let o' := { o with walks := o.walks + 1, gens := if y then o.gens else o.gens + 2 ^ g,
                         gensY := if y then o.gensY + 2 ^ g else o.gensY }
      State.claim k (s.put fCO_CORE_STATUS_AG_BUSY o.u 0 (s.fld fCO_CORE_STATUS_AG_BUSY o.u + 2 ^ g)) o'

/-- Generators of an instruction released. -/
def State.freeB (s : State) (o : LongOp) : State := (s.dropGens o.u o.gens).setOp { o with gens := 0 }
def State.freeY (s : State) (o : LongOp) : State := (s.dropGens o.u o.gensY).setOp { o with gensY := 0 }
def State.freeWalks (s : State) (o : LongOp) : State :=
  (s.dropGens o.u (o.gens + o.gensY)).setOp { o with gens := 0, gensY := 0 }

/-- The B walks that have ended give up their generators before the next MATMUL's begins. -/
def State.endB (s : State) (u : Nat) : State := s.forEach ((s.matrixPending u).filter bEnded) (fun o s => s.freeB o)

/-- The A and Y walks of the MATMULs before an instruction end as its own begin (R61). -/
def State.endY (s : State) (u id : Nat) : State :=
  s.forEach ((s.matrixPending u).filter (fun o => o.gensY != 0 && decide (o.id < id))) (fun o s => s.freeY o)

/-! ### Leaving -/

/-- A long instruction leaves its entry: its generators and DMA queue place are free. -/
def State.dropOp (s : State) (o : LongOp) : State :=
  let s := (s.dropGens o.u (o.gens + o.gensY)).when (o.opc == 0x23) (fun s =>
    s.put fCO_CORE_STATUS_DMA_QUEUE o.u 0 (s.fld fCO_CORE_STATUS_DMA_QUEUE o.u - 1))
  { s with core := { s.core with ops := s.core.ops.filter (fun x => x.id != o.id) } }

/-- Table 3.10: with no pass of a MATMUL in the array the engine is idle: none of a step that has not committed. -/
def State.idleCheck (s : State) (u : Nat) : State :=
  if s.core.ops.any (fun o => o.u == u && o.opc == 0x20 && o.steps != []) then s else s.idleEngine u

/-- R157: a long instruction in flight faults: its committed steps stand, nothing of it follows. -/
def State.opFault (s : State) (o : LongOp) (event a : Nat) : State :=
  let s := ((s.dropOp o).idleCheck o.u).sendHeld o.u o.id
  let s := s.longFault o.u o.latch o.group event a
  (s.fenceCheck o.u)

/-- R104, R146: a long instruction completes: its signal-at-commit goes out. -/
def State.completeOp (s : State) (o : LongOp) : State :=
  let q := quadOf o.latch.quad
  let s := (s.dropOp o).idleCheck o.u
  let s := s.when q.sig (fun s => s.sendSignal q.sigSem q.sigAmount o.latch.waybill (unitIssue o.u)
    ((s.ownerOf (o.u / 28)).getD 0xFF) o.latch.stream 0 o.latch.tag o.latch.bcast o.latch.pc)
  let s := (s.sendHeld o.u o.id).when o.latch.bcast (fun s => s.coreDone o.group (s.logicalOf o.u))
  s.fenceCheck o.u

/-! ### Steps (R282, R283) -/

/-- R280, R281: what a failed local access makes of a step of an instruction: a word whose re-read passes is read again, one whose
re-read fails loses its row, and any other is refused. None where the step is to be carried out again. -/
def State.stepErr (s t : State) (o : LongOp) (e : LErr) : Option ((Nat × Nat) × State) × State :=
  let rq := Rq.part o.u (localClass o.opc) o.latch.org
  match e with
  | .place k off 0x2001 =>
    let p : Place := ⟨k, o.u, off⟩
    match s.upsetIn p.addr 1 with
    | some (a, false) => (none, (s.dropUpset a).parityEvent rq p 1)
    | some (a, true) => (some ((0x4106, off), (t.dropUpset a).poisonRow rq p), s)
    | none => (some (t.locFault o.u rq e), s)
  | e => (some (t.locFault o.u rq e), s)

/-- The next step of an instruction, from where its walks stand. The first argument bounds the words read again. -/
def State.stepGo : Nat → State → LongOp → WalkPos → LStep × State
  | 0, s, o, pos => s.longStep o.u o.id o.opc o.latch pos
  | n + 1, s, o, pos =>
    let (r, t) := s.longStep o.u o.id o.opc o.latch pos
    match r.err with
    | none => (r, t)
    | some e => match s.stepErr t o e with
      | (some (f, t), _) => (lFault f.1 f.2, t)
      | (none, s) => State.stepGo n s o pos

/-- R222, R249: the writes of a step that leave the core hold entries until they are acknowledged; flits are acknowledged one by
one. -/
def State.awaitStep (s : State) (o : LongOp) (n : Nat) : Nat × State :=
  if n = 0 then (0, s)
  else if o.opc = 0x23 ∧ lSub o.latch.w0 = 8 then (n, s)
  else (1, s.awaitAck (.coreDma o.u) o.id o.latch.pc (min n (s.tableFree (.coreDma o.u))))

/-- One step carried out, with what the engine shows of a MATMUL's passes; none while an access of it is held. -/
def State.carry (s : State) (o : LongOp) (pos : WalkPos) : Option State :=
  let (r, t) := State.stepGo (s.ms.upsets.length + 1) s o pos
  if r.held then none
  else
    let (n, t) := t.awaitStep o r.writes
    let o' := { o with steps := o.steps ++ r.res.toList, next := r.next, fault := r.fault, sreg := r.sreg.or o.sreg,
                       writes := o.writes + n }
    let t := t.setOp o'
    some (t.when (o.opc == 0x20 && r.res.isSome) (fun t => t.showEngine o.u (quadOf o.latch.quad)))

/-- An instruction none of whose work is left to commit holds no generator (R144). -/
def State.settle (s : State) (o : LongOp) : State :=
  match s.opAt o.id with
  | some x => if opPending x then s else s.freeWalks x
  | none => s

/-- R145, R283: whether an instruction of the matrix path may carry out its next step: at most two of the path are uncommitted,
MATMULs follow one another, and any other waits until those before it have committed. -/
def State.mayStep (s : State) (o : LongOp) : Bool :=
  let l := s.matrixPending o.u
  let before := l.filter (fun x => decide (x.id < o.id))
  decide ((l.map (fun x => x.steps.length)).sum < 2) && before.all (fun x => x.opc == 0x20 && o.opc == 0x20)

/-- R144, R145: the walks an instruction of the matrix path has yet to begin; those of the MATMULs before it end. -/
def State.beginWalks (s : State) (o : LongOp) : LongOp × State :=
  let s := s.when (o.opc == 0x20 && decide (o.walks ≤ 1)) (fun s => s.endY o.u o.id)
  let (o, s) := State.claim (walksOf o.opc o.latch - o.walks) s o
  (o, s.setOp o)

/-- R144, R157: the instruction at the head of the matrix path that has nothing left but its fault. -/
def State.pathFault (s : State) (u : Nat) : Option (LongOp × (Nat × Nat)) :=
  match s.matrixPending u with
  | o :: _ => if o.steps = [] then o.fault.map (fun f => (o, f)) else none
  | [] => none

/-- R142: the first instruction without walk points that no pending one of its path stands before. -/
def State.emptyDue (s : State) (u : Nat) : Option LongOp :=
  s.core.ops.find? (fun o => o.u == u && matrixOpc o.opc && o.walks == 0 && !opPending o &&
    (s.matrixPending u).all (fun x => decide (o.id < x.id)))

/-- The matrix path of a core goes on as far as it can: faults that are due, empty instructions, steps. The first argument bounds
what it does. -/
def State.pathGo : Nat → State → Nat → State
  | 0, s, _ => s
  | n + 1, s, u =>
    match s.pathFault u with
    | some (o, f) => State.pathGo n (s.opFault o f.1 f.2) u
    | none => match s.emptyDue u with
      | some o => State.pathGo n (s.completeOp o) u
      | none => match (s.matrixPending u).find? (fun o => o.next.isSome) with
        | none => s
        | some o =>
          if !s.mayStep o then s
          else
            let (o, t) := s.beginWalks o
            if o.walks < walksOf o.opc o.latch then t
            else match t.carry o (o.next.getD {}) with
              | none => t
              | some t => State.pathGo n (t.settle o) u

/-- R144: the B walks of MATMULs that have issued and hold no generator after a replay. -/
def State.retakeB (s : State) (u : Nat) : State :=
  s.forEach ((s.matrixPending u).filter (fun o => o.opc == 0x20 && o.walks == 0)) (fun o s =>
    let (o, s) := State.claim 1 s o
    s.setOp o)

/-- The steps of one DMA, REDUCE or ZMAP, once its walk has a generator; none while an access of it is held. -/
def State.unitStep (s : State) (o : LongOp) : State :=
  if o.steps ≠ [] ∨ o.fault.isSome ∨ s.tableFree (.coreDma o.u) = 0 then s
  else match o.next with
    | none => s
    | some pos => match s.carry o pos with
      | none => s
      | some t => match t.opAt o.id with
        | some x => match x.steps, x.fault with
          | [], some f => t.opFault x f.1 f.2
          | _, _ => t.settle x
        | none => t

/-- R142, R144: the DMAs of a core in program order: each begins once those before it have begun and a generator is free, and an
empty one completes at the head. -/
def State.dmaGo : List LongOp → State → State
  | [], s => s
  | o :: l, s =>
    if o.walks = 0 ∧ !opPending o then State.dmaGo l (s.completeOp o)
    else
      let (o, s) := if o.walks = 0 then State.claim 1 s o else (o, s)
      if o.walks = 0 then s else State.dmaGo l ((s.setOp o).unitStep o)

/-- Whether a core's units work: nothing holds it, it is not fenced, its clock runs. -/
def State.commits (s : State) (u : Nat) : Bool :=
  !s.slotHeld u && s.fld fCO_CORE_STATUS_STATE u != 5 && !s.clockStopped (u / 28)

/-- The long instructions of a core go on as far as they can. -/
def State.feed (s : State) (u : Nat) : State :=
  if !s.commits u || s.coreHalted u then s
  else
    let s := (State.pathGo (4 * s.core.ops.length + 4) s u).retakeB u
    let s := State.dmaGo (s.core.ops.filter (fun o => o.u == u && o.opc == 0x23)) s
    s.forEach (s.core.ops.filter (fun o => o.u == u && decide (0x23 < o.opc))) (fun o s =>
      let (o, s) := if o.walks = 0 then State.claim 1 s o else (o, s)
      if o.walks = 0 then s else (s.setOp o).unitStep o)

/-! ### Issue -/

/-- A broadcast taken from its queue. -/
def State.bqPop (s : State) (u : Nat) : State :=
  match s.bqHead u with
  | some e => { s with core := { s.core with bq := s.core.bq.erase e } }
  | none => s

/-- R142, R155: a REDUCE without points gives its result for no elements. -/
def State.emptyResult (s : State) (u opc : Nat) (lt : Latch) : State :=
  if opc = 0x24 then
    let (r, s) := s.reduceAll lt []
    s.setS u (lSY lt.w1) r.1
  else s

/-- The entry of an instruction that issues. -/
def newOp (id u opc : Nat) (lt : Latch) (empty : Bool) (group : Nat) : LongOp :=
  { id := id, u := u, opc := opc, latch := lt, steps := [], done := 0, fault := none, sreg := none, writes := 0, gens := 0,
    group := group, next := if empty then none else some {} }

/-- R142, R144: an instruction taken by its unit: a REDUCE or ZMAP without points completes at once; any other enters, with the
generators of the walks that begin at issue. -/
def State.enter (s : State) (u opc : Nat) (lt : Latch) (empty : Bool) (group : Nat) : State :=
  let o := newOp s.core.nextOp u opc lt empty group
  let s := { s with core := { s.core with nextOp := s.core.nextOp + 1 } }
  if empty && decide (0x23 < opc) then s.completeOp o
  else
    let s := s.when (opc == 0x20) (fun s => s.endB u)
    let (o, s) := if empty ∨ opc = 0x23 then (o, s) else State.claim (if opc = 0x20 then 1 else walksOf opc lt) s o
    let s := s.when (opc == 0x23) (fun s => s.wrap fCO_CORE_STATUS_DMA_QUEUE u 0 1)
    { s with core := { s.core with ops := s.core.ops ++ [o] } }

/-- A latched instruction issues: it faults at once, or its unit takes it; `next` goes on to the instruction behind it. -/
def State.launchLong (s : State) (u opc : Nat) (lt : Latch) (group : Nat) (next : State → State) : State :=
  match longCheck u opc lt with
  | some f => s.longFault u lt group f.1 f.2
  | none =>
    let empty := longEmpty opc lt
    (next (((s.when empty (fun s => s.emptyResult u opc lt)).enter u opc lt empty group))).feed u

/-- A long instruction of the core's own program. One whose predicate is false does nothing and counts as one with zero
iterations (R133). -/
def State.issueProg (s : State) (u opc : Nat) (w : LPayload) : State :=
  let w0 := lWord0 opc w
  let lt := s.latchProg u w0 (lWord1 w)
  let g := nget s.core.group u
  if !s.predOk u (lPred w0) (lNeg w0) then ((s.enter u opc lt true g).advance u 8).feed u
  else if s.pc u % 8 ≠ 0 then s.longFault u lt g 0x4101 0
  else s.launchLong u opc lt g (fun s => s.advance u 8)

/-- A broadcast instruction at the head of the core's queue. -/
def State.issueBcast (s : State) (u opc : Nat) (e : BQEntry) : State :=
  (s.bqPop u).launchLong u opc (s.latchBcast u e) e.group (fun s => s)

/-- R142: whether a long instruction of the program will have no points when it issues. -/
def State.progEmpty (s : State) (u opc : Nat) (w : LPayload) : Bool :=
  !s.predOk u (lPred (lWord0 opc w)) (lNeg (lWord0 opc w)) || longEmpty opc (s.latchProg u (lWord0 opc w) (lWord1 w))

/-- The issue of a long instruction, by the program or from the broadcast queue, when its unit accepts it. -/
def State.issueLong (s : State) (u opc : Nat) (bcast : Bool) (w : LPayload) : Outcome :=
  if bcast then
    match s.bqHead u with
    | none => .next s
    | some e =>
      let same := recWord e.record 2 == (lWord0 opc w).toNat + 2 ^ 32 * (lWord1 w).toNat
      s.guard (same && s.bqReady u e) (fun s => s.issueBcast u opc e)
  else
    s.guard (s.issues u (lRegs (lWord0 opc w) (lWord1 w)) && s.unitTakes u opc (s.progEmpty u opc w))
      (fun s => s.issueProg u opc w)

def execMatmul (u : Nat) (bcast : Bool) (w : LPayload) (s : State) : Outcome := s.issueLong u 0x20 bcast w

def execPmout (u : Nat) (bcast : Bool) (w : LPayload) (s : State) : Outcome := s.issueLong u 0x21 bcast w

def execPmclr (u : Nat) (bcast : Bool) (w : LPayload) (s : State) : Outcome := s.issueLong u 0x22 bcast w

/-- A DMA whose SUB its constructor names; a word with another SUB is not this command (log 4). -/
def State.issueDma (s : State) (u : Nat) (bcast : Bool) (w : LPayload) (subs : List Nat) : Outcome :=
  if subs.contains (lSub (lWord0 0x23 w)) then s.issueLong u 0x23 bcast w else .next s

/-- A DMA with a reserved SUB, 9 to 15, has no row of its own: it is issued here and faults with 0x4101 (R154). -/
def execDmaGather (u : Nat) (bcast : Bool) (w : LPayload) (s : State) : Outcome :=
  s.issueDma u bcast w [0, 9, 10, 11, 12, 13, 14, 15]

def execDmaScatter (u : Nat) (bcast : Bool) (w : LPayload) (s : State) : Outcome :=
  s.issueDma u bcast w [1]

def execDmaTranspose (u : Nat) (bcast : Bool) (w : LPayload) (s : State) : Outcome := s.issueDma u bcast w [2, 3, 4]

def execDmaFill (u : Nat) (bcast : Bool) (w : LPayload) (s : State) : Outcome := s.issueDma u bcast w [5]

def execDmaDispatchGather (u : Nat) (bcast : Bool) (w : LPayload) (s : State) : Outcome := s.issueDma u bcast w [6]

def execDmaDispatchScatter (u : Nat) (bcast : Bool) (w : LPayload) (s : State) : Outcome := s.issueDma u bcast w [7]

def execDmaReduceStore (u : Nat) (bcast : Bool) (w : LPayload) (s : State) : Outcome := s.issueDma u bcast w [8]

def execReduce (u : Nat) (bcast : Bool) (w : LPayload) (s : State) : Outcome := s.issueLong u 0x24 bcast w

def execZmap (u : Nat) (bcast : Bool) (w : LPayload) (s : State) : Outcome := s.issueLong u 0x25 bcast w

end Sys2Proof.Machine
end

