-- ==== Sys2Proof/Machine/MemRows.lean ====
section
/-! DEFINITION. Commands of the core and cluster memories (04_core_and_cluster_memories.md R86-R122): reads and writes that
reach a memory, transposing writes, power-down and power-up of parts, and the semaphores. -/

namespace Sys2Proof.Machine

/-- The instruction in flight for which a sub-unit of a core makes a request. -/
def State.opFor (s : State) (u : Nat) (p : LongOp → Bool) : Option LongOp :=
  s.core.ops.find? (fun o => o.u == u && opPending o && p o)

/-- R280: a step of a core that read a row which is lost fails, and the core faults with it. -/
def State.parityFault (s : State) (rq : Rq) (a : Nat) : State :=
  let drop := fun (u : Nat) (o : Option LongOp) => match o with
    | some o => s.opFault o 0x4106 a |> fun t => t.feed u
    | none => s
  match rq with
  | .core u _ => if s.fld fCO_CORE_STATUS_STATE u = 1 then s.progFault u 0x4106 a else s
  | .coreDma u _ => drop u (s.opFor u (fun o => o.opc == 0x23))
  | .part u cls _ => drop u (s.opFor u (fun o => localClass o.opc == cls && o.opc != 0x23))
  | _ => s

/-- R89, R122: the cycles that a remote request waited at a port of a slot. -/
def State.stalled (s : State) (rq : Rq) (p : Place) (n : Nat) : State :=
  match p.slot? with
  | some u => if rq.slot = some u then s else s.sat fCO_REMOTE_STALL_CYCLES u 0 n
  | none => s

/-- R89-R91, R109, R280, R281: a request that has reached the memory of a place: what `f` does at the physical address it is
served at, or its refusal. `parity` says what befalls the first word concerned: 1 and 2 a stored bit of it has flipped, 3 and 4 one
flips afterwards; in 2 and 4 the re-read will fail too. A remote request has waited `stall` cycles. -/
def State.sramServe (s : State) (rq : Rq) (a n : Nat) (rd : Bool) (parity stall : Nat) (f : State → Nat → State) : State :=
  match s.locate rq a with
  | .ok p =>
    let w := p.addr / 4 * 4
    let s := (s.stalled rq p stall).when (parity == 1 || parity == 2) (fun s => s.upset w (parity == 2))
    match s.atPlace rq a n rd with
    | (.ok pa, t) =>
      (f (t.bankGrant rq (rq.number == p.cluster) pa) pa).when (parity == 3 || parity == 4) (fun s => s.upset w (parity == 4))
    | (.err e, t) => t.when (e == 0x2001) (fun t => t.parityFault rq a)
    | (.held, _) => s
  | _ => (s.atPlace rq a n rd).2

/-- A read of n bytes served. A read crosses no 64-byte boundary of a part. -/
def execSramRead (rq : Rq) (a n parity stall : Nat) (s : State) : Outcome :=
  s.guard (decide (0x010000000000 ≤ a) && decide (a + n ≤ 0x010300000000)) (fun s =>
    s.sramServe rq a n true parity stall (fun s pa => s.emit .response rq.unit a ((s.physRead pa n).map BitVec.toNat)))

/-- R88, R94, R109, R116, R281: a write performed, or refused. -/
def execSramWrite (rq : Rq) (a : Nat) (bs : List (BitVec 8)) (parity stall : Nat) (s : State) : Outcome :=
  s.guard (decide (0x010000000000 ≤ a) && decide (a + bs.length ≤ 0x010300000000)) (fun s =>
    s.sramServe rq a bs.length false parity stall (fun s pa => (s.storeBytes pa (bs.map some)).emit .response rq.unit a []))

/-- R95, R96: `rows` are the packed source rows the writer delivered, fewer than 32 when the source stopped; `mx` for a request
with an MX format. A writer that stalls holds its grant and its tile buffer until it delivers the rest, in a command of its own, or
the hold watchdog fires (R242). -/
def State.tileCommand (s : State) (rq : Rq) (width dst pitch : Nat) (mx : Bool) (rows : List Nat) (stall : Bool) : State :=
  if !stall then (s.transposeTile rq width dst pitch mx rows).2
  else
    let p := s.pathAt rq dst
    let k := ostlerAt 2 p.1 p.2
    if s.pathBusy rq dst ∨ (s.holder? k (fun h => h.isFor rq dst)).isSome then s
    else
      let o := s.originRq rq
      let h : Holding := { rq := rq, op := 0, way := o.way, addr := dst, since := s.now }
      (s.pathGrant rq dst).hold k h

def execTransposingWrite (rq : Rq) (width dst pitch : Nat) (mx : Bool) (rows : List Nat) (stall : Bool) (s : State) : Outcome :=
  s.guard (decide (0x010000000000 ≤ dst) && decide (dst < 0x010300000000))
    (fun s => s.tileCommand rq width dst pitch mx rows stall)

/-- R115: the physical-view range of a power part. -/
def partRange (k : Nat) : Nat × Nat :=
  if k < 0x10000 then
    match k % 4 with
    | 0 => (wmBase (k / 4), 0x80000)
    | 1 => (wmBase (k / 4) + 0x80000, 0x80000)
    | 2 => (amBase (k / 4), 0x60000)
    | _ => (amBase (k / 4) + 0x60000, 0x60000)
  else (clWindow (k / 32 - 2048) + 0xC0000 * (k % 32), 0xC0000)

/-- The keys of the parts: half q of slot u, bank b of cluster c. -/
def halfPart (u q : Nat) : Nat := 4 * u + q
def bankPart (c b : Nat) : Nat := 0x10000 + 32 * c + b

/-- STATE and PENDING bits of a part written. -/
def State.setPart (s : State) (k : Nat) (on pend : Bool) : State :=
  if k < 0x10000 then
    (s.putBit fCO_MEM_POWER_STATE (k / 4) 0 (k % 4) on).putBit fCO_MEM_POWER_PENDING (k / 4) 0 (k % 4) pend
  else
    let c := k / 32 - 2048
    let b := k % 32
    (s.putBit fCL_CM_POWER_STATE_STATE c 0 b on).putBit fCL_CM_POWER_STATE_PENDING c 0 b pend

def State.partOn (s : State) (k : Nat) : Bool :=
  if k < 0x10000 then (s.fld fCO_MEM_POWER_STATE (k / 4)).testBit (k % 4)
  else (s.fld fCL_CM_POWER_STATE_STATE (k / 32 - 2048)).testBit (k % 32)

def State.partPending (s : State) (k : Nat) : Bool :=
  if k < 0x10000 then (s.fld fCO_MEM_POWER_PENDING (k / 4)).testBit (k % 4)
  else (s.fld fCL_CM_POWER_STATE_PENDING (k / 32 - 2048)).testBit (k % 32)

/-- A power change begins: 1 down, 2 up. -/
def State.startPower (s : State) (k dir : Nat) : State :=
  { s.setPart k (s.partOn k) true with ms := { s.ms with powerDir := nput s.ms.powerDir k dir } }

/-- R116-R118: a request to turn a part off (dir 1) or on (dir 2): started, queued behind the opposite change under way,
or without effect. -/
def State.powerRequest (s : State) (k dir : Nat) : State :=
  if s.partPending k then
    if nget s.ms.powerDir k = dir ∨ s.ms.powerQueue.any (fun p => p.1 == k) then s
    else { s with ms := { s.ms with powerQueue := s.ms.powerQueue ++ [(k, dir)] } }
  else if s.partOn k == (dir == 2) then s
  else s.startPower k dir

/-- R118: the request queued behind a completed change begins. -/
def State.nextPower (s : State) (k : Nat) : State :=
  match s.ms.powerQueue.find? (fun p => p.1 == k) with
  | none => s
  | some p => ({ s with ms := { s.ms with powerQueue := s.ms.powerQueue.erase p } }).powerRequest k p.2

/-- The keys of a range of physical-view memory dropped: every byte of it reads 0. -/
def State.clearRange (s : State) (lo n : Nat) : State :=
  { s with mem := s.mem.filter (fun c => !(decide (lo ≤ c.1) && decide (c.1 < lo + n))) }

/-- R109, R281: rows in a range poisoned no longer, and their words without a flipped bit. -/
def State.cleanRange (s : State) (lo n : Nat) : State :=
  let out := fun (a : Nat) => !(decide (lo ≤ a) && decide (a < lo + n))
  { s with ms := { s.ms with poison := s.ms.poison.filter (fun r => out r.1), upsets := s.ms.upsets.filter (fun x => out x.1) } }

def execMemPowerOff (rq : Rq) (u q : Nat) (s : State) : Outcome :=
  .next (s.regAct rq (u / 28) (coAddr u 0x618) (fun s => s.powerRequest (halfPart u q) 1))

def execMemPowerOn (rq : Rq) (u q : Nat) (s : State) : Outcome :=
  .next (s.regAct rq (u / 28) (coAddr u 0x618) (fun s => s.powerRequest (halfPart u q) 2))

def execCmPowerOff (rq : Rq) (c b : Nat) (s : State) : Outcome :=
  .next (s.regAct rq c (clAddr c 0x1028) (fun s => s.powerRequest (bankPart c b) 1))

def execCmPowerOn (rq : Rq) (c b : Nat) (s : State) : Outcome :=
  .next (s.regAct rq c (clAddr c 0x1028) (fun s => s.powerRequest (bankPart c b) 2))

/-- R116: power removed: the contents are lost, STATE and PENDING clear. -/
def State.powerDown (s : State) (k : Nat) : State :=
  ((s.clearRange (partRange k).1 (partRange k).2).setPart k false false).nextPower k

def execPowerDownComplete (k : Nat) (s : State) : Outcome :=
  s.guard (s.partPending k && nget s.ms.powerDir k == 1) (fun s => s.powerDown k)

/-- R117, R281: the part has been cleared to zero with valid parity: STATE sets, PENDING clears. -/
def State.powerUp (s : State) (k : Nat) : State :=
  let r := partRange k
  (((s.clearRange r.1 r.2).cleanRange r.1 r.2).setPart k true false).nextPower k

def execPowerUpComplete (k : Nat) (s : State) : Outcome :=
  s.guard (s.partPending k && nget s.ms.powerDir k == 2) (fun s => s.powerUp k)

/-- R107: CL_SEM_WRITE: the count set, added to, or subtracted from; then the wait queue is examined. -/
def State.semWrite (s : State) (rq : Rq) (op c k v : Nat) : State :=
  match op with
  | 0 => (s.put fCL_SEM_COUNT c k v).semServe c k
  | 1 => (s.semAdd c k v rq.unit (s.originRq rq)).semServe c k
  | 2 => (s.put fCL_SEM_COUNT c k (s.fld fCL_SEM_COUNT c k - v)).semServe c k
  | _ => s

def execSemWriteSet (rq : Rq) (c k v : Nat) (s : State) : Outcome :=
  .next (s.regAct rq c (clAddr c 0x1800) (fun s => s.semWrite rq 0 c k v))

def execSemWriteAdd (rq : Rq) (c k v : Nat) (s : State) : Outcome :=
  .next (s.regAct rq c (clAddr c 0x1800) (fun s => s.semWrite rq 1 c k v))

def execSemWriteSubtract (rq : Rq) (c k v : Nat) (s : State) : Outcome :=
  .next (s.regAct rq c (clAddr c 0x1800) (fun s => s.semWrite rq 2 c k v))

/-- A semaphore message that has been refused: who sent it and for which command, and whether a long instruction did. -/
structure SemFrom where
  unit : Nat
  lodging : Nat
  sem : Nat
  org : Origin
  opc : Nat
  bcast : Bool := false
  pc : Nat := 0

/-- R106, R158, R180, R193, R215: an error response to a semaphore message of a unit: a core faults at the instruction that sent
it, a stream faults with 0x4009, a router unit shows it. -/
def State.semRefused (s : State) (g : SemFrom) : State :=
  let a := clAddr (g.sem / 256) (0x2000 + 8 * (g.sem % 256))
  match unitKind g.unit with
  | 0 =>
    let u := 28 * unitCluster g.unit + unitSlot g.unit
    if 5 ≤ s.fld fCO_CORE_STATUS_STATE u then s
    else if g.pc = 0 ∧ !g.bcast then s.progFault u 0x4106 a
    else s.coreFault u 0x4106 g.org.tag g.bcast g.org.way g.org.stream g.pc a 0
  | 1 => if s.fld fGL_STREAM7_STATE 0 g.org.stream = 3 then s.streamFault g.org.stream 0x4009 g.org.way [] g.opc else s
  | 2 => s.stick fCL_ROUTE_STATUS_ERROR_RESP (unitCluster g.unit)
  | _ => s

/-- R106, R388: the refusal of a semaphore message at a cluster its lodging does not own. -/
def State.semRefuse (s : State) (g : SemFrom) : State :=
  let a := clAddr (g.sem / 256) (0x2000 + 8 * (g.sem % 256))
  let ev : Ev := { event := 0x7001, unit := unitCl (g.sem / 256 % 64) 0, outcome := 4, waybill := g.org.way, stream := g.org.stream,
                   tag := g.org.tag, lodging := some g.lodging, detail := BitVec.ofNat 8 g.lodging :: leBytes 8 a }
  ((s.secRefused.record ev).emit .errorResponse g.unit 0x7001 [a]).semRefused g

/-- Whether a lodging's semaphore message is taken: its cluster exists, is the lodging's and is not fenced. -/
def State.semTakes (s : State) (lodging sem : Nat) : Bool :=
  decide (sem / 256 < 48) && s.ownerOf (sem / 256) == some lodging && !s.is fCL_OWNER_LEAVING (sem / 256) &&
    !s.clusterFenced (sem / 256)

/-- R99, R192: a signal applied: the count raised, the last signaller kept, waits served. -/
def State.applySignal (s : State) (g : SemSig) : State :=
  if g.amount = 0 then s
  else
    let s := s.semAdd (g.sem / 256) (g.sem % 256) g.amount g.unit ⟨g.waybill, g.stream, g.tag⟩
    ({ s with ms := { s.ms with semWay := nput s.ms.semWay g.sem g.waybill } }).semServe (g.sem / 256) (g.sem % 256)

/-- The unit, lodging, stream and waybill of a waiter. -/
def State.waiter (s : State) (w : SemWait) : Nat × Nat × Nat × Nat :=
  if w.seq then
    let c := w.who / 16
    let way := match s.waitOf w.who with
      | some x => recWaybill x.record
      | none => 0
    (unitSeq c, (s.ownerOf c).getD 0xFF, s.fld fSQ_SLOT_STREAM c (w.who % 16), way)
  else (unitIssue w.who, (s.ownerOf (w.who / 28)).getD 0xFF, nget s.core.stream w.who, nget s.core.waybill w.who)

/-- R223: the SIG messages a source may have in flight: 8 for a core, 32 for a sequencer, 256 for the stream scheduler; for the
others the rule names no limit. -/
def sigLimit (unit : Nat) : Option Nat :=
  match unitKind unit with
  | 0 => some 8
  | 1 => some 32
  | 8 => some 256
  | _ => none

/-- The messages of a source that are in the network. -/
def State.sigFlying (s : State) (unit : Nat) : Nat :=
  (s.net.signals.filter (fun g => g.pos.isSome && g.unit == unit)).length +
    (s.net.waitMsgs.filter (fun w => w.pos.isSome && (s.waiter w).1 == unit)).length

/-- R220-R223, R227: a SIG message of a unit travels to a cluster: 0 it is there, 1 it has been discarded, 2 it is on its way or
waits for its source's limit. -/
def State.sigTravel (s : State) (list n unit c : Nat) (o : Origin) : Nat × State :=
  let full := match sigLimit unit with
    | some k => (s.msgAt list n).isNone && decide (k ≤ s.sigFlying unit)
    | none => false
  if 48 ≤ c then (0, s)
  else if full then (2, s)
  else
    let e := s.sigEntry unit c
    match s.travel list n rankSIG e.1 e.2.1 c 0 e.2.2 with
    | (1, t) => (1, t.sigLost e.1 o)
    | r => r

/-- R294, R380: what becomes of a SIG message that has come to a cluster: discarded, or taken or refused. -/
def State.semDeliver (s : State) (c : Nat) (o : Origin) (f : State → State) : State :=
  if 48 ≤ c then f s
  else match s.sigGone c o with
    | some t => t
    | none => f s

/-- A signal of a lodging's unit at its semaphore. -/
def State.signalIn (s : State) (g : SemSig) : State :=
  let o : Origin := ⟨g.waybill, g.stream, g.tag⟩
  s.semDeliver (g.sem / 256) o (fun s => if s.semTakes g.lodging g.sem then s.applySignal g
    else s.semRefuse ⟨g.unit, g.lodging, g.sem, o, g.opc, g.bcast, g.pc⟩)

/-- Signal number n goes on its way, and is applied when it reaches its semaphore. -/
def execSemaphoreSignal (n : Nat) (s : State) : Outcome :=
  match s.net.signals[n]? with
  | none => .next s
  | some g =>
    let gone := fun (s : State) => { s with net := { s.net with signals := s.net.signals.eraseIdx n } }
    .next (match s.sigTravel 0 n g.unit (g.sem / 256) ⟨g.waybill, g.stream, g.tag⟩ with
    | (0, t) => (gone t).signalIn g
    | (1, t) => gone t
    | (_, t) => t)

/-- R100: a wait at its semaphore: it enters the queue, and the queue is served. -/
def State.waitIn (s : State) (w : SemWait) : State :=
  let (unit, l, stream, way) := s.waiter w
  let w := { w with pos := none }
  s.semDeliver (w.sem / 256) ⟨way, stream, 0⟩ (fun s => if s.semTakes l w.sem then
      ({ s with ms := { s.ms with semQueue := s.ms.semQueue ++ [w] } }).semServe (w.sem / 256) (w.sem % 256)
    else s.semRefuse ⟨unit, l, w.sem, ⟨way, stream, 0⟩, 0x05, false, 0⟩)

/-- Wait message number n goes on its way to its semaphore. -/
def execSemaphoreWait (n : Nat) (s : State) : Outcome :=
  match s.net.waitMsgs[n]? with
  | none => .next s
  | some w =>
    let (unit, _, stream, way) := s.waiter w
    let gone := fun (s : State) => { s with net := { s.net with waitMsgs := s.net.waitMsgs.eraseIdx n } }
    .next (match s.sigTravel 1 n unit (w.sem / 256) ⟨way, stream, 0⟩ with
    | (0, t) => (gone t).waitIn w
    | (1, t) => gone t
    | (_, t) => t)

/-- Whether a grant finds its waiter still waiting. -/
def State.awaits (s : State) (g : SemGrant) : Bool :=
  if g.seq then s.fld fSQ_SLOT_WAIT (g.who / 16) (g.who % 16) == 1 && (match s.waitOf g.who with
    | some w => w.obj == objName 0 (g.sem / 256) (g.sem % 256)
    | none => false)
  else nget s.core.wait g.who == 1 && s.fld fCO_CORE_STATUS_STATE g.who == 2

/-- R100, R103, R105: a grant at its waiter, or, where nobody waits, back to its semaphore as a signal. -/
def State.grantIn (s : State) (g : SemGrant) : State :=
  if s.awaits g then (if g.seq then s.waitMet (g.who / 16) (g.who % 16) else s.coreWake g.who)
  else s.sendSignal g.sem g.amount 0 (unitCl (g.sem / 256) 0) ((s.ownerOf (g.sem / 256)).getD 0xFF) 0

/-- Grant number n goes on its way to its waiter. -/
def execSemGrantArrival (n : Nat) (s : State) : Outcome :=
  match s.net.grants[n]? with
  | none => .next s
  | some g =>
    let gone := fun (s : State) => { s with net := { s.net with grants := s.net.grants.eraseIdx n } }
    .next (match s.sigTravel 2 n (unitCl (g.sem / 256) 0) (if g.seq then g.who / 16 else g.who / 28) ⟨0, 0, 0⟩ with
    | (0, t) => (gone t).grantIn g
    | (1, t) => gone t
    | (_, t) => t)

end Sys2Proof.Machine
end

