-- ==== Sys2Proof/Machine/Fence.lean ====
section
/-! DEFINITION. Core and cluster resets' clearing (13_bring_up_and_reset.md R377-R379), and fencing, takeover and
cluster fencing (10_result_integrity.md R288-R295): operations shared by the commands of integrity, resets, network and
power. -/

namespace Sys2Proof.Machine

/-- R378: outstanding requests of some requesters enter the absorb table of a cluster; the acknowledgements of their REDUCE_ADD
flits go to no instruction any more. -/
def State.absorb (s : State) (c : Nat) (p : Rq → Bool) : State :=
  let hit := s.net.resps.filter (fun r => p r.rq)
  let lone := fun (f : RedFlit) => if p f.rq then { f with op := 0 } else f
  let reds := s.net.reds.map (fun e => { e with parts := e.parts.map lone })
  let net := { s.net with resps := s.net.resps.filter (fun r => !p r.rq), flits := s.net.flits.map lone, reds := reds,
                          absorb := s.net.absorb ++ hit.map (fun r => (r.id, c)) }
  { s with net := net }.put fCL_RESET_STATUS_IN_ABSORB c 0 (s.fld fCL_RESET_STATUS_IN_ABSORB c + hit.length)

/-- The requests a slot makes. -/
def rqOfSlot (u : Nat) (r : Rq) : Bool :=
  match r with
  | .core v _ => v == u
  | .coreDma v _ => v == u
  | .fetch v => v == u
  | .part v _ _ => v == u
  | _ => false

/-- The requests a sequencer makes. -/
def rqOfSeq (c : Nat) (r : Rq) : Bool :=
  match r with
  | .seqDma x _ => x == c
  | .seqFetch x _ => x == c
  | _ => false

/-- The requests a router unit makes. -/
def rqOfRouter (c : Nat) (r : Rq) : Bool :=
  match r with
  | .router x _ => x == c
  | _ => false

/-- The entries of a store outside a unit's block of keys. -/
def dropBlock {V : Type} (per u : Nat) (m : SMap V) : SMap V := m.filter (fun p => p.1 / per != u)

/-- The entries of one unit's block moved to another's, in place of what that held. -/
def moveBlock {V : Type} [DecidableEq V] (d : Nat → V) (per old new : Nat) (m : SMap V) : SMap V :=
  (m.filter (fun p => p.1 / per == old)).foldl (fun a p => mput d a (p.1 - per * old + per * new) p.2)
    (dropBlock per old (dropBlock per new m))

/-- R105: semaphore waits of a core withdrawn. -/
def State.withdrawCore (s : State) (u : Nat) : State := s.dropWaits (fun w => !w.seq && w.who == u)

/-- R377, Table 13.9, core level: registers of R125 and R290, instruction cache, queues and uncommitted steps. -/
def State.wipeCore (s : State) (u : Nat) : State :=
  let k := s.core
  let core := { k with s := dropBlock 32 u k.s, p := dropBlock 8 u k.p, v := dropBlock 2048 u k.v,
                       d := dropBlock 128 u k.d, icache := k.icache.filter (fun l => l.u != u),
                       ops := k.ops.filter (fun o => o.u != u), heldSigs := k.heldSigs.filter (fun g => g.u != u),
                       wait := nput k.wait u 0, waitArg := nput k.waitArg u 0, waybill := nput k.waybill u 0,
                       stream := nput k.stream u 0, group := nput k.group u 0, inject := nput k.inject u 0 }
  { s with core := core }

/-- The queues of a logical core: broadcasts, reduction slots, program starts waiting. -/
def State.wipeLogical (s : State) (c l : Nat) : State :=
  let k := s.core
  let core := { k with bq := k.bq.filter (fun e => !(e.c == c && e.l == l)),
                       slotFull := dropBlock 16 (32 * c + l) k.slotFull,
                       slotVal := dropBlock 16 (32 * c + l) k.slotVal,
                       starts := k.starts.filter (fun x => !(x.c == c && x.l == l)) }
  { s with core := core }

/-- R47: the generator loaded from the seed in force; a seed of 0 loads 1. -/
def State.loadSeed (s : State) (u : Nat) : State :=
  let w := s.reg rCO_SR_SEED u 0
  { s with core := { s.core with lfsr := mput lfsrReset s.core.lfsr u (if w = 0#64 then 1#64 else w) } }

/-- R159, R80, R122: the CO registers a core reset clears. CFG_WHILE_BUSY and the other RWS bits stay (R9). -/
def State.wipeCoRegs (s : State) (u : Nat) : State :=
  let busy := s.fld fCO_CORE_STATUS_CFG_WHILE_BUSY u
  let s := ((s.setReg rCO_CORE_STATUS u 0 0#64).put fCO_CORE_STATUS_CFG_WHILE_BUSY u 0 busy).setReg rCO_FAULT u 0 0#64
  let s := ((s.setReg rCO_FAULT_PC u 0 0#64).setReg rCO_FAULT_ADDR u 0 0#64).setReg rCO_ME_STATUS u 0 3#64
  (s.setReg rCO_REMOTE_STALL u 0 0#64).put fCO_MEM_STATUS_PARITY_ERRORS u 0 0

/-- The replays under way in a slot are over with its uncommitted steps. -/
def State.dropReplays (s : State) (u : Nat) : State :=
  { s with integ := { s.integ with replaying := s.integ.replaying.filter (fun r => r.u != u) } }

/-- R379 steps 2 to 4: a slot's state cleared; a seed written and not yet in force is loaded (R376). A fenced slot stays
fenced. -/
def State.clearSlot (s : State) (u : Nat) : State :=
  let fenced := (s.fld fCL_ROW_SPARE_FENCED (u / 28)).testBit (u % 28)
  let s := ((s.absorb (u / 28) (rqOfSlot u)).withdrawCore u).wipeCore u |>.dropReplays u
  let s := ((s.takeSh rCO_SR_SEED u 0).loadSeed u).wipeCoRegs u
  if fenced then s.put fCO_CORE_STATUS_STATE u 0 5 else s

/-- R179, R292, R379: streams whose launches a logical core was working on fault with 0x4006. -/
def State.strandCore (s : State) (c l : Nat) : State :=
  let hit := s.sq.launches.filter (fun x => x.c == c && x.cores.contains l)
  let s := s.forEach hit (fun x s => s.coreDone x.id l)
  s.forEach hit (fun x s => if s.fld fGL_STREAM7_STATE 0 x.stream = 3 then s.streamFault x.stream 0x4006 x.waybill [] x.opc
    else s)

/-- Logical core l of a cluster placed in a slot; 31 for absent. -/
def State.setMap (s : State) (c l slot : Nat) : State := s.put ⟨rCL_CORE_MAP, 5 * (l % 12), 5⟩ c (l / 12) slot

/-- R17, R311: the count of present cores follows PRESENT. -/
def State.setPresent (s : State) (c l : Nat) (b : Bool) : State :=
  let s := s.putBit fCL_CORE_COUNT_PRESENT c 0 l b
  s.put fCL_CORE_COUNT_COUNT c 0 ((List.range 24).filter (fun k => s.present c k)).length

/-- R292: a logical core without a spare becomes absent. -/
def State.goneCore (s : State) (c l old : Nat) : State :=
  let s := (s.setMap c l 31).setPresent c l false
  let s := (s.stick fMG_STICKY1_SPARE_EXHAUSTED).event 0x1014 (unitCore (28 * c + old) 0 0)
  (s.strandCore c l).wipeLogical c l

/-- R16: the unused spare of a row, by CL_ROW_SPARE. -/
def State.spareOf (s : State) (c row : Nat) : Option Nat :=
  let b := fieldOf (8 * row) 8 (s.fld fCL_ROW_SPARE_ROWS c)
  if b.testBit 7 then some (b % 32) else none

def State.setSpare (s : State) (c row : Nat) (slot : Option Nat) : State :=
  let f : Fld := ⟨rCL_ROW_SPARE, 8 * row, 8⟩
  match slot with
  | some x => s.put f c 0 (128 + x)
  | none => s.put f c 0 0

/-- R289 step 4: each half of the spare takes the power state of the fenced slot's half, a pending change completed. -/
def State.matchPower (s : State) (old new : Nat) : State :=
  s.forEach (List.range 4) (fun q s =>
    let k := halfPart old q
    let on := if s.partPending k then nget s.ms.powerDir k == 2 else s.partOn k
    let n := halfPart new q
    let s := if on then s else s.clearRange (partRange n).1 (partRange n).2
    s.setPart n on false)

/-- Whether a reset holds back the takeovers of a cluster (Table 13.10). -/
def State.resetHolds (s : State) (c : Nat) : Bool :=
  s.clusterHeld c || s.rst.lodgings.any (fun x => s.ownerOf c == some x.l)

/-- R289, R291, R300: a takeover or dressing swap of a logical core begins, waits, or finds no spare. A core that is on its way
already goes on moving. -/
def State.startTakeover (s : State) (c l : Nat) (dress forced : Bool) : State :=
  let old := s.slotOf c l
  let row := l / 6
  if s.integ.takeovers.any (fun t => t.c == c && t.l == l) then s
  else if s.resetHolds c then { s with integ := { s.integ with afterReset := s.integ.afterReset ++ [(c, l)] } }
  else if s.integ.takeovers.any (fun t => t.c == c && t.l / 6 == row) then
    { s with integ := { s.integ with takeoverWait := s.integ.takeoverWait ++ [(c, l)] } }
  else match s.spareOf c row with
    | none => s.goneCore c l old
    | some new =>
      let s := (s.setSpare c row none).matchPower (28 * c + old) (28 * c + new)
      let t : Takeover := ⟨c, l, old, new, dress, forced⟩
      let s := { s with integ := { s.integ with takeovers := s.integ.takeovers ++ [t] } }
      (s.put fCL_TAKEOVER_BUSY c 0 1).put fCL_TAKEOVER_LOGICAL c 0 l

/-- R291: the next takeover of the row that waited. -/
def State.nextTakeover (s : State) (c row : Nat) : State :=
  match s.integ.takeoverWait.find? (fun p => p.1 == c && p.2 / 6 == row) with
  | none => s
  | some p => { s with integ := { s.integ with takeoverWait := s.integ.takeoverWait.erase p } }.startTakeover c p.2
      false false

/-- CL_TAKEOVER.BUSY follows the takeovers and swaps under way. -/
def State.showTakeover (s : State) (c : Nat) : State :=
  s.put fCL_TAKEOVER_BUSY c 0 (decide (s.integ.takeovers.any (fun x => x.c == c))).toNat

/-- R291: a spare fenced during the copy: the takeover is abandoned, a dressing swap's like any other (DEDUCED, log 27). -/
def State.abandon (s : State) (u : Nat) : State :=
  match s.integ.takeovers.find? (fun t => t.c == u / 28 && t.new == u % 28) with
  | none => s
  | some t =>
    let s := { s with integ := { s.integ with takeovers := s.integ.takeovers.erase t } }
    ((s.showTakeover t.c).goneCore t.c t.l t.old).nextTakeover t.c (t.l / 6)

/-- What a slot's core was doing when it was fenced (R290). -/
def State.keepState (s : State) (u : Nat) : State :=
  { s with integ := { s.integ with stateWas := nput s.integ.stateWas u (s.fld fCO_CORE_STATUS_STATE u + 1) } }

/-- A fenced slot's FENCED bit, reason and status. -/
def State.markFenced (s : State) (u reason : Nat) : State :=
  let s := ((s.keepState u).putBit fCL_ROW_SPARE_FENCED (u / 28) 0 (u % 28) true).put fCO_INTEG_STATUS_FENCE_REASON u 0
    reason
  (s.put fCO_CORE_STATUS_STATE u 0 5).stick fMG_STICKY1_CORE_FENCED

/-- Table 13.10: a fence that falls due during a reset follows it; the first reason stands. -/
def State.fenceLater (s : State) (x reason : Nat) : State :=
  if s.rst.fences.any (fun p => p.1 == x) then s
  else { s with rst := { s.rst with fences := s.rst.fences ++ [(x, reason)] } }

/-- R288: a core slot fenced; reason as CO_INTEG_STATUS.FENCE_REASON codes it. -/
def State.fenceCore (s : State) (u reason : Nat) : State :=
  let c := u / 28
  if (s.fld fCL_ROW_SPARE_FENCED c).testBit (u % 28) then s
  else if s.resetHolds c || s.rst.cores.contains u then s.fenceLater u reason
  else
    let s := (s.markFenced u reason).addDefect 0 (unitCore u 0 0) 0
    let l := s.logicalOf u
    let row := u % 28 / 7
    let s := if s.spareOf c row = some (u % 28) then s.setSpare c row none else s
    if l = 31 then s.abandon u else s.startTakeover c l false false

/-- The streams of the table in one of some states and homed on a cluster. -/
def State.streamsAt (s : State) (c : Nat) (states : List Nat) : List Nat :=
  (s.regs.filterMap (fun p => if p.1 / 2 ^ 32 = rGL_STREAM7 then some (p.1 % 2 ^ 20) else none)).filter
    (fun id => states.contains (s.fld fGL_STREAM7_STATE 0 id) && s.fld fGL_STREAM7_HOME 0 id == c)

/-- The waybill of the command a stream is at: of its wait, else of its last completed command. -/
def State.currentWay (s : State) (id : Nat) : Nat :=
  match s.slotIx id with
  | some i => match s.waitOf (slotKey (s.fld fGL_STREAM7_HOME 0 id) i) with
    | some w => recWaybill w.record
    | none => s.fld fGL_STREAM5_LAST_WAYBILL 0 id
  | none => 0

/-- The kind of the command a stream waits in; 0 where it waits in none. -/
def State.currentOpc (s : State) (id : Nat) : Nat :=
  match s.slotIx id with
  | some i => match s.waitOf (slotKey (s.fld fGL_STREAM7_HOME 0 id) i) with
    | some w => recOpc w.record
    | none => 0
  | none => 0

/-- Streams of a cluster's sequencer that have faulted and wait for their issued commands (R193). -/
def State.faultedEnding (s : State) (c : Nat) : List Nat :=
  (s.sq.ending.filter (fun e => e.2 == 5 && s.fld fGL_STREAM7_HOME 0 e.1 == c)).map Prod.fst

/-- R295, R380: a sequencer reset: slots, q registers, waits, launches, its registers but RWS bits. -/
def State.resetSeq (s : State) (c : Nat) : State :=
  let s := s.absorb c (fun r => rqOfSeq c r)
  let s := s.forEach (List.range 16) (fun i s =>
    ((s.setReg rSQ_Q c i 0#64).setReg rSQ_SLOT c i 0#64).setWait (slotKey c i) none)
  let s := ((s.setReg rSQ_TRACE_BASE c 0 0#64).setReg rSQ_TRACE_CTRL c 0 0#64).dropSh (rkey rSQ_TRACE_CTRL c 0)
  let s := s.dropWaits (fun w => w.seq && w.who / 16 == c)
  let q := s.sq
  let sq := { q with launches := q.launches.filter (fun x => x.c != c),
                     barrierWait := q.barrierWait.filter (fun b => b.2.1 / 16 != c),
                     waves := q.waves.filter (fun b => b.2.2.1 != c),
                     ending := q.ending.filter (fun e => s.fld fGL_STREAM7_HOME 0 e.1 != c),
                     tensors := q.tensors.filter (fun t => t.c != c) }
  { s with sq := sq, core := { s.core with starts := s.core.starts.filter (fun x => x.c != c) } }

/-- R294, R295: streams of a sequencer end: each FAULTED with event 0x400C; one that has faulted already waits for nothing
more. -/
def State.endStreams (s : State) (c : Nat) (states : List Nat) : State :=
  let ids := s.streamsAt c states
  let s := { s with sq := { s.sq with launches := s.sq.launches.filter (fun x => x.c != c) } }
  let s := s.forEach (s.faultedEnding c) (fun id s => s.endIfQuiet id 5)
  s.forEach ids (fun id s => s.streamFault id 0x400C (s.currentWay id) [] (s.currentOpc id))

/-- R294: a logical core of a fenced cluster becomes absent and its slot is fenced with it. -/
def State.fenceLogical (s : State) (c l : Nat) : State :=
  let slot := s.slotOf c l
  if slot = 31 then s
  else
    let u := 28 * c + slot
    let s := (s.put fCO_CORE_STATUS_STATE u 0 5).put fCO_INTEG_STATUS_FENCE_REASON u 0 6
    ((((s.setMap c l 31).setPresent c l false).withdrawCore u).wipeCore u).wipeLogical c l

/-- R293, R294: a whole cluster fenced; cause 0 router, 1 sequencer, 2 cluster interface, 3 core domain. -/
def State.fenceCluster (s : State) (c cause : Nat) : State :=
  if s.clusterFenced c then s
  else if s.resetHolds c then s.fenceLater (1344 + c) cause
  else
    let s := { s with integ := { s.integ with clusterFenced := nput s.integ.clusterFenced c 1,
                                              takeovers := s.integ.takeovers.filter (fun t => t.c != c),
                                              takeoverWait := s.integ.takeoverWait.filter (fun t => t.1 != c) } }
    let s := (s.event 0x1019 (unitCl c 0) [BitVec.ofNat 8 cause]).stick fMG_STICKY1_CLUSTER_FENCED
    let s := s.forEach (List.range 24) (fun l s => s.fenceLogical c l)
    ((s.endStreams c [1, 2, 3]).put fCL_TAKEOVER_BUSY c 0 0).cutRuns (fun x => x == c)

/-- R377, Table 13.9: a detection's cluster reset parts: semaphores, flags, reduction slots, router-unit queue. -/
def State.wipeSync (s : State) (c : Nat) : State :=
  let s := { s with regs := s.regs.filter (fun p => !(p.1 / 2 ^ 32 == rCL_SEM || p.1 / 2 ^ 32 == rCL_FLAG) ||
      (p.1 / 2 ^ 20) % 2 ^ 12 != c) }
  let ms := { s.ms with semQueue := s.ms.semQueue.filter (fun w => w.sem / 256 != c),
                        semWay := dropBlock 256 c s.ms.semWay }
  s.forEach (List.range 24) (fun l s => s.wipeLogical c l) |> fun s => { s with ms := ms }

end Sys2Proof.Machine
end

