-- ==== Sys2Proof/Machine/Commit.lean ====
section
/-! DEFINITION. Instruction-cache misses, commit, completion and replay of a core's work (05_qn_instruction_set.md R144-R157,
10_result_integrity.md R279-R287, R296; 03_matrix_engine.md R78-R82). -/

namespace Sys2Proof.Machine

/-- R132: an instruction of a reserved opcode, fetched by the program or at the head of the broadcast queue: fault
0x4101 whatever its predicate. The word's low 26 bits do not matter. -/
def State.reservedBcast (s : State) (u : Nat) (e : BQEntry) : State :=
  let lt := s.latchBcast u e
  (s.bqPop u).longFault u lt e.group 0x4101 0

def execReservedOpcode (u : Nat) (bcast : Bool) (word : BitVec 32) (s : State) : Outcome :=
  if bcast then
    match s.bqHead u with
    | none => .next s
    | some e => s.guard (s.takesBcast u && reservedOpc (fieldOf 26 6 (recWord e.record 2))) (fun s => s.reservedBcast u e)
  else s.guard (s.issues u [] && reservedOpc (word.toNat / 2 ^ 26)) (fun s => s.reservedBody u)

/-- R156: whether a core's cache holds a line. -/
def State.icHas (s : State) (u line : Nat) : Bool := s.core.icache.any (fun l => l.u == u && l.line == line)

/-- R156: a line placed in its set of four; which line leaves a full set is open (log 9). -/
def State.icPlace (s : State) (u line : Nat) (bs : List (BitVec 8)) : State :=
  let same := s.core.icache.filter (fun l => l.u == u && (l.line / 128) % 64 == (line / 128) % 64)
  let (k, t) := if same.length < 4 then (0, s) else s.draw
  let gone := if same.length < 4 then none else same[Config.freeOrder k 0 % 4]?
  let keep := t.core.icache.filter (fun l => !(l.u == u && l.line == line) && some l != gone)
  { t with core := { t.core with icache := keep ++ [⟨u, line, bs⟩] } }

/-- R156: a line fetched through translation; false when the fetch failed or is held. -/
def State.icFetch (s : State) (u line : Nat) : Got Unit × State :=
  match s.fetchMem (.fetch u) line 128 with
  | (.ok bs, t) => (.ok (), t.icPlace u line bs)
  | (.err e, t) => (.err e, t)
  | (.held, _) => (.held, s)

/-- R156: a miss: the line and the next; a failed fetch of the line is fault 0x4105 (log 14: a failed fetch of the
next line is no fault until it is fetched as an instruction). -/
def State.icMiss (s : State) (u line : Nat) : State :=
  match s.icFetch u line with
  | (.err _, t) => t.progFault u 0x4105 (s.pc u)
  | (.held, _) => s
  | (.ok _, t) => if t.icHas u (line + 128) then t else (t.icFetch u (line + 128)).2

/-- `parity`: the line is held and a word of it fails its parity (R156, event 0x2007). -/
def execIcacheMiss (u : Nat) (parity : Bool) (s : State) : Outcome :=
  let line := 128 * (s.pc u / 128)
  let drop := fun (s : State) =>
    { s with core := { s.core with icache := s.core.icache.filter (fun l => !(l.u == u && l.line == line)) } }
  s.guard (s.fld fCO_CORE_STATUS_STATE u == 1 && s.icHas u line == parity)
    (fun s => if parity then
        let d := leBytes 8 (s.pc u) ++ leBytes 4 (Rq.fetch u).unit
        match (drop s).icFetch u line with
        | (.err _, t) => (t.eventRq (.fetch u) 0x2007 (unitCore u 9 0) d).progFault u 0x4105 (s.pc u)
        | (.ok _, t) => t.eventRq (.fetch u) 0x2007 (unitCore u 9 0) d
        | (.held, _) => s
      else s.icMiss u line)

/-- R283: accumulator words become committed contents. -/
def State.commitPm (s : State) (u : Nat) : List (Nat × BitVec 32) → State
  | [] => s
  | (off, w) :: l => (s.storeBytes (pmBase u + off) ((leBytes 4 w.toNat).map some)).commitPm u l

/-- The waybill, stream and tag a detection of a core carries (R180). -/
def State.originOf (s : State) (u op : Nat) : Nat × Nat × Nat :=
  match s.opAt op with
  | some o => (o.latch.waybill, o.latch.stream, o.latch.tag)
  | none => (nget s.core.waybill u, nget s.core.stream u, 0)

/-- R286: a replay counted within the window; a core that reaches the limit is fenced with event 0x1012. -/
def State.countReplay (s : State) (u since : Nat) : State :=
  let win := 250000000 * s.fld fMG_INTEG_CFG_REPLAY_WINDOW
  let lim := max 1 (s.fld fMG_INTEG_CFG_REPLAY_LIMIT)
  let l := s.integ.replayTimes.filter (fun p => p.1 != u || decide (s.now < p.2.1 + win)) ++ [(u, s.now, since)]
  let s := { s with integ := { s.integ with replayTimes := l } }
  if (l.filter (fun p => p.1 == u)).length < lim then s
  else
    let ev : Ev := { event := 0x1012, unit := unitCore u 0 0, outcome := 3, waybill := nget s.core.waybill u,
                     stream := nget s.core.stream u }
    (s.record ev).fenceCore u 2

/-- R285 step 5: the replay of a step commits. -/
def State.replayDone (s : State) (u op : Nat) : State :=
  match s.integ.replaying.find? (fun r => r.u == u && r.op == op) with
  | none => s
  | some r =>
    let (way, stream, tag) := s.originOf u op
    let s := { s with integ := { s.integ with replaying := s.integ.replaying.erase r } }
    let ev : Ev := { event := 0x1010, unit := unitCore u 0 0, outcome := 2, waybill := way, stream := stream,
                     tag := tag, detail := leBytes 2 r.event }
    let s := (s.record ev).sat fCO_INTEG_STATUS_REPLAYS u 0 1
    if r.counts then s.countReplay u r.since else s

/-- R283, R284: one step of a long instruction committed, with the scalar after the last; the path then goes on. -/
def State.commitStep (s : State) (o : LongOp) (r : StepRes) (rest : List StepRes) : State :=
  let ended := rest == [] && o.next.isNone
  let last := ended && o.fault.isNone
  let s := (s.commitPm o.u r.pm).numStatus o.u r.flags
  let s := match o.sreg with
    | some p => if last then s.setS o.u p.1 p.2 else s
    | none => s
  let o' := { o with steps := rest, start := r.after, done := o.done + 1, sreg := if last then none else o.sreg }
  let s := (s.setOp o').settle o'
  let s := match ended, o.fault with
    | true, some f => s.opFault o' f.1 f.2
    | _, _ => s.idleCheck o.u
  ((s.replayDone o.u o.id).stormStop (o.u / 28)).feed o.u

/-- R145: whether a matrix-path instruction is the first of its core that has not committed. -/
def State.firstOnPath (s : State) (o : LongOp) : Bool :=
  if matrixOpc o.opc then (s.matrixPending o.u).head? == some o else true

/-- Instruction `op` of slot u; 0 for a single-word instruction, whose replay commits (R282, R285). An instruction none of whose
steps has been carried out goes on, if what held it has ended. -/
def execStepCommit (u op : Nat) (s : State) : Outcome :=
  if op = 0 then
    s.guard (s.commits u && s.integ.replaying.any (fun r => r.u == u && r.op == 0)) (fun s =>
      (s.replayDone u 0).stormStop (u / 28))
  else match s.opAt op with
    | none => .next s
    | some o => match o.steps with
      | [] => s.guard (o.u == u) (fun s => s.feed u)
      | r :: rest =>
        s.guard (o.u == u && s.commits u && s.firstOnPath o && !(o.opc == 0x20 && nget s.core.inject u != 0))
          (fun s => s.commitStep o r rest)

/-- R142, R146: a long instruction completes once its last step has committed and every write it sent out of the core has been
performed; one without points on the matrix path, once those before it have committed. -/
def execLongInstructionComplete (op : Nat) (s : State) : Outcome :=
  match s.opAt op with
  | none => .next s
  | some o => s.guard (!opPending o && o.writes == 0 && s.commits o.u &&
      (!matrixOpc o.opc || (s.matrixPending o.u).all (fun x => decide (o.id < x.id))))
    (fun s => (s.completeOp o).feed o.u)

/-- Table 10.2, R79: the sub-unit class and instance a detection is charged to; for the others the unit names its own. -/
def detectClass (event inst : Nat) : Nat × Nat :=
  match event with
  | 0x1001 => (0, inst)
  | 0x1002 => (0, 0xFFF)
  | 0x1003 => (0, inst)
  | 0x1004 => (0, inst)
  | 0x1005 => (0, inst)
  | 0x1006 => (1, 0)
  | 0x1009 => (2, inst)
  | 0x100A => (3 + inst % 2, 0)
  | 0x100B => (8, inst)
  | 0x100C => (7, inst)
  | _ => (6, inst)

/-- Table 3.10: the engine's failure counters. -/
def State.countFail (s : State) (u event : Nat) : State :=
  match event with
  | 0x1001 => s.sat fCO_ME_STATUS_RESIDUE_FAILS u 0 1
  | 0x1002 => s.sat fCO_ME_STATUS_TALLY_FAILS u 0 1
  | 0x1003 => s.sat fCO_ME_STATUS_PARITY_FAILS u 0 1
  | 0x1004 => s.sat fCO_ME_STATUS_PARITY_FAILS u 0 1
  | 0x1006 => s.sat fCO_ME_STATUS_RESIDUE_FAILS u 0 1
  | _ => s

/-- R285: an instruction's uncommitted steps discarded: it goes on from where the first of them began. -/
def rewound (o : LongOp) : LongOp :=
  if opPending o then { o with steps := [], next := some o.start, fault := none, sreg := none } else o

/-- R144, R285: every uncommitted step of a core's matrix path is discarded, and its walks release their generators. -/
def State.rewindPath (s : State) (u : Nat) : State :=
  (s.forEach (s.matrixPending u) (fun o s =>
    (s.dropGens u (o.gens + o.gensY)).setOp { rewound o with walks := 0, gens := 0, gensY := 0 })).idleCheck u

/-- R285: the steps that a detection in one of them discards, carried out again. -/
def State.replayFrom (s : State) (o : LongOp) : State :=
  (if matrixOpc o.opc then s.rewindPath o.u else s.setOp (rewound o)).feed o.u

/-- R47, R285: the draws of a VCVTO whose step failed are not given back: the word at the program counter, if the core's cache
holds it. -/
def State.failedDraws (s : State) (u : Nat) : State :=
  let pc := s.pc u
  match s.core.icache.find? (fun l => l.u == u && l.line == 128 * (pc / 128)) with
  | none => s
  | some l =>
    let w := leNat ((l.bytes.drop (pc % 128)).take 4)
    if fieldOf 26 6 w = 0x1A then
      let t := s.vcvtoBody u (BitVec.ofNat 26 w)
      { s with core := { s.core with lfsr := t.core.lfsr }, fresh := t.fresh }
    else s

/-- R285-R287, R296, R297: a detection recorded; the core is fenced by a second one during its replay. Neither an injected fault
nor a detection of a burst counts, nor one during a replay that either of them caused (R82). -/
def State.detect (s : State) (u op event inst : Nat) (injected : Bool) : Bool × State :=
  let c := u / 28
  let s := s.stormArm c
  let old := s.integ.replaying.find? (fun r => r.u == u && !r.moved)
  let counts := !injected && !s.integ.bursts.any (fun b => b.c == c)
  let fence := counts && old.any Replay.counts
  let (way, stream, tag) := s.originOf u op
  let (cls, i) := detectClass event inst
  let dressing := s.is fCO_INTEG_STATUS_DRESSING u
  let ev : Ev := { event := event, unit := unitCore u cls i, outcome := if fence then 3 else 2, waybill := way,
                   stream := stream, tag := tag,
                   flags := injected.toNat + 2 * old.isSome.toNat + 4 * dressing.toNat }
  let s := ((s.record ev).sat fCO_INTEG_STATUS_DETECTIONS u 0 1).countFail u event
  let r : Replay := ⟨u, op, event, counts, false, s.now⟩
  let l := if s.integ.replaying.any (fun x => x.u == u && x.op == op) then
      s.integ.replaying.map (fun x => if x.u = u ∧ x.op = op then { x with moved := false, counts := x.counts || counts, since := s.now }
        else x)
    else s.integ.replaying ++ [r]
  (fence, { s with integ := { s.integ with replaying := l } }.stormIdle c)

/-- What an injected fault is detected as (R81, R82): event and instance. -/
def injectEvent (code : Nat) : Nat × Nat :=
  match code with
  | 1 => (0x1002, 0xFFF)
  | 2 => (0x1001, 0)
  | _ => (0x1003, 0)

/-- The detections that replay a step (Table 10.2). -/
def stepEvents : List Nat := [0x1001, 0x1002, 0x1003, 0x1004, 0x1005, 0x1006, 0x1009, 0x100A, 0x100B, 0x100C, 0x100D]

/-- R77: whether a detection can come of the uncommitted steps of an instruction: a tally check fails only where a pass that is
compared deviates by more than its window. `dev` is the deviation |T - sum of y_j|, in units of 2^-320. -/
def detectable (o : LongOp) (event dev : Nat) : Bool :=
  event != 0x1002 || (o.opc == 0x20 && o.steps.any (fun r => r.tally.any (fun t => decide (t < dev))))

/-- A check of a step of slot u fails: instruction `op`, or 0 for a single-word one. A fault that CO_ME_TEST has
injected is what the next pass of a MATMUL fails with. -/
def State.failStep (s : State) (u op event inst : Nat) (o : Option LongOp) : State :=
  let code := nget s.core.inject u
  let injected := code ≠ 0 ∧ (o.map (fun x => x.opc)) = some 0x20
  let (e, i) := if injected then injectEvent code else (event, inst)
  let s := if injected then { s with core := { s.core with inject := nput s.core.inject u 0 } } else s
  let (fence, s) := s.detect u op e i (decide injected)
  if fence then s.fenceCore u 1
  else match o with
    | some x => s.replayFrom x
    | none => s.failedDraws u

/-- R288: a stored register of a core cannot be read, and no replay repairs it: the detection (outcome 2, as its table has it:
R306 names 3 only for a second detection, DEDUCED, log 19), and the core fenced for its lost state. -/
def State.stateLost (s : State) (u op inst : Nat) : State := (s.detect u op 0x100B inst false).2.fenceCore u 4

/-- `dev` is the deviation of a tally check; `lost` says of a parity failure of a register file that the stored contents fail. -/
def execStepReplay (u op event inst dev : Nat) (lost : Bool) (s : State) : Outcome :=
  if !stepEvents.contains event then .next s
  else if lost ∧ event = 0x100B then
    s.guard (s.fld fCO_CORE_STATUS_STATE u != 5 && s.logicalOf u != 31) (fun s => s.stateLost u op inst)
  else if op = 0 then
    s.guard (s.fld fCO_CORE_STATUS_STATE u == 1 && decide (0x1009 ≤ event)) (fun s => s.failStep u 0 event inst none)
  else match s.opAt op with
    | none => .next s
    | some o => s.guard (o.u == u && opPending o && s.fld fCO_CORE_STATUS_STATE u != 5 &&
        (detectable o event dev || (nget s.core.inject u != 0 && o.opc == 0x20))) (fun s => s.failStep u op event inst (some o))

/-- R81: CO_ME_TEST.INJECT. A second injection takes the place of one that still waits for its pass, and a core reset drops one
(DESIGN CHOICE, log 20: R81 states neither). -/
def execMeInject (rq : Rq) (u code : Nat) (s : State) : Outcome :=
  .next (s.csAct rq (coAddr u 0x508) (fun s =>
    if code % 4 = 0 then s else { s with core := { s.core with inject := nput s.core.inject u (code % 4) } }))

/-- R81: CO_ME_TEST.CLR_COUNTS. -/
def State.clearCounts (s : State) (u : Nat) : State :=
  ((s.put fCO_ME_STATUS_TALLY_FAILS u 0 0).put fCO_ME_STATUS_RESIDUE_FAILS u 0 0).put fCO_ME_STATUS_PARITY_FAILS u 0 0

def execMeClrCounts (rq : Rq) (u : Nat) (s : State) : Outcome :=
  .next (s.csAct rq (coAddr u 0x508) (fun s => s.clearCounts u))

end Sys2Proof.Machine
end

