-- ==== Sys2Proof/Machine/Integrity.lean ====
section
/-! DEFINITION. Commands of result integrity (10_result_integrity.md R288-R303, R309): takeovers, heartbeats, bursts,
sequencer and cluster-interface failures, dressing runs and the ledger's registers. -/

namespace Sys2Proof.Machine

/-- R289 step 4: the contents of a range copied to another. -/
def State.copyRange (s : State) (src dst n : Nat) : State :=
  let hit := s.mem.filter (fun c => decide (src ≤ c.1) && decide (c.1 < src + n))
  (s.clearRange dst n).forEach hit (fun c s => { s with mem := mput zeroB s.mem (dst + (c.1 - src)) c.2 })

/-- R280, R289 step 5: words of a slot with a flipped bit are met as the copy reads them, by the cluster interface, and rows that
cannot be read are poisoned; `bad` are offsets of such rows. -/
def State.copyReads (s : State) (u : Nat) (bad : List Nat) : State :=
  let w := slotWindow u
  let rq := Rq.walker (u / 28)
  let hits := s.ms.upsets.filter (fun x => decide (w ≤ x.1) && decide (x.1 < w + 0x1F0000))
  let s := s.forEach hits (fun x s => match placeInCore u (x.1 - w) with
    | none => s
    | some p => if x.2 then (s.dropUpset x.1).poisonRow rq p else (s.dropUpset x.1).parityEvent rq p 1)
  s.forEach bad (fun o s => match placeInCore u o with
    | none => s
    | some p => if s.poisonIn p.addr (p.addr + 1) then s else s.poisonRow rq p)

/-- The offsets of a slot's poisoned rows in its window. -/
def State.poisonedRows (s : State) (u : Nat) : List Nat :=
  let w := slotWindow u
  (s.ms.poison.filter (fun r => decide (w ≤ r.1) && decide (r.1 < w + 0x1F0000))).map (fun r => r.1 - w)

/-- R289 step 5: the poisoned rows of a slot become poisoned rows of another. -/
def State.movePoison (s : State) (src dst : Nat) : State :=
  let hit := s.ms.poison.filter (fun r => decide (src ≤ r.1) && decide (r.1 < src + 0x1F0000))
  let s := s.cleanRange dst 0x1F0000
  { s with ms := { s.ms with poison := s.ms.poison ++ hit.map (fun r => (dst + (r.1 - src), r.2)) } }

/-- The class of a memory by offset in a slot's window, and the row at an offset of that memory (Table 10.16). -/
def rangeOf (o : Nat) : Nat × Nat :=
  if o < 0x100000 then (10, o / 32) else if o < 0x1C0000 then (11, o % 0x100000 / 32) else (12, o % 0x1C0000 / 4)

/-- Table 10.16, event 0x1015: up to three ranges, each of one row, or the loss of state. -/
def lostDetail (lost : Bool) (rows : List Nat) : List (BitVec 8) :=
  if lost then [0xFF#8]
  else BitVec.ofNat 8 (min 3 rows.length) :: (rows.take 3).flatMap (fun o =>
    let r := rangeOf o
    BitVec.ofNat 8 r.1 :: (leBytes 4 r.2 ++ leBytes 2 1))

/-- R289, R290: the architectural state of a core moved to another slot. Its long instructions are as at their last commit, with no
generator and no write outstanding: those of the fenced slot retire. -/
def State.moveArch (s : State) (old new : Nat) : State :=
  let k := s.core
  let one := fun (m : SMap Nat) => nput (nput m new (nget m old)) old 0
  let core := { k with
    s := moveBlock zeroW 32 old new k.s, p := moveBlock zeroW 8 old new k.p,
    v := moveBlock zeroL 2048 old new k.v, d := moveBlock zeroW 128 old new k.d,
    lfsr := mput lfsrReset k.lfsr new (mget lfsrReset k.lfsr old),
    ops := k.ops.map (fun o => if o.u = old then
      { rewound o with u := new, walks := 0, gens := 0, gensY := 0, writes := 0 } else o),
    heldSigs := k.heldSigs.map (fun h => if h.u = old then { h with u := new } else h),
    wait := one k.wait, waitArg := one k.waitArg, waitSince := one k.waitSince, waitLimit := one k.waitLimit, waybill := one k.waybill,
    stream := one k.stream, group := one k.group }
  { s with core := core }

/-- Semaphore waits and grants of a moved core follow it. -/
def State.moveWaits (s : State) (old new : Nat) : State :=
  let w := fun (x : SemWait) => if !x.seq ∧ x.who = old then { x with who := new } else x
  let g := fun (x : SemGrant) => if !x.seq ∧ x.who = old then { x with who := new } else x
  { s with ms := { s.ms with semQueue := s.ms.semQueue.map w },
           net := { s.net with waitMsgs := s.net.waitMsgs.map w, grants := s.net.grants.map g } }

/-- R290: registers that move: CO_NUM_STATUS, and with the program its status and its faults (DEDUCED, log 27). CFG_WHILE_BUSY is the
slot's own (R9), and so are the capacity registers, which only a start changes (R110). -/
def State.moveRegs (s : State) (old new state : Nat) : State :=
  let busy := s.fld fCO_CORE_STATUS_CFG_WHILE_BUSY new
  let s := s.forEach [rCO_CORE_STATUS, rCO_NUM_STATUS, rCO_FAULT, rCO_FAULT_PC, rCO_FAULT_ADDR] (fun r s =>
    s.setReg r new 0 (s.reg r old 0))
  ((s.put fCO_CORE_STATUS_STATE new 0 state).put fCO_CORE_STATUS_CFG_WHILE_BUSY new 0 busy).put fCO_CORE_STATUS_AG_BUSY new 0 0

/-- The state of a program on its new slot: a fenced slot's STATE reads 5, so what it was doing shows in its waits. -/
def State.stateBefore (s : State) (u : Nat) : Nat :=
  if nget s.integ.stateWas u ≠ 0 then nget s.integ.stateWas u - 1 else s.fld fCO_CORE_STATUS_STATE u

/-- Replays under way move with the core (R291). -/
def State.moveReplays (s : State) (old new : Nat) : State :=
  { s with integ := { s.integ with replaying := s.integ.replaying.map (fun r =>
      if r.u = old then { r with u := new, moved := true } else r) } }

/-- R289 steps 4 to 7, R290: the logical core moves to the spare; where its state was lost it starts idle, its queues empty. -/
def State.moveCore (s : State) (t : Takeover) (lost : Bool) : State :=
  let old := 28 * t.c + t.old
  let new := 28 * t.c + t.new
  let st := s.stateBefore old
  let s := (s.copyRange (slotWindow old) (slotWindow new) 0x1F0000).movePoison (slotWindow old) (slotWindow new)
  let s := (s.absorb t.c (rqOfSlot old)).clearSlot new
  let s := if lost then (((s.withdrawCore old).wipeCore old).wipeLogical t.c t.l).dropReplays old
    else (((s.moveArch old new).moveRegs old new st).moveWaits old new).moveReplays old new
  s.setMap t.c t.l t.new

/-- R298: the voltage and frequency of the stressed part of a run in a cluster: VDROP below the core voltage of its step in force,
at the frequency of the next step or, at step 7, the fused dressing frequency. -/
def State.stress (s : State) (c : Nat) : Nat × Nat :=
  let k := s.fld fTM_REGION_STEP_IN_FORCE 0 c
  (s.fld fTM_STEP_TABLE_MV 0 k - min 60 (s.fld fMG_DRESS_CFG_VDROP),
    if k < 7 then s.fld fTM_STEP_TABLE_MHZ 0 (k + 1) else s.fld fTM_FUSE_LIMITS_DRESS_MHZ)

/-- R299: clusters in which runs are suspended. -/
def State.dressSuspended (s : State) (c : Nat) : Bool :=
  s.clusterFenced c || s.integ.bursts.any (fun b => b.c == c && b.restarted == none) || s.resetHolds c ||
    s.rst.cores.any (fun u => u / 28 == c) || s.is fTM_STEP_STATUS_PENDING

/-- A slot that has given up its logical core waits for its run. -/
def State.addRedo (s : State) (u : Nat) : State :=
  { s with integ := { s.integ with redo := s.integ.redo.filter (fun x => x != u) ++ [u] } }

/-- R300: a slot is dressed. -/
def State.startRun (s : State) (u : Nat) (forced : Bool) (leased : Option Nat) : State :=
  let x := s.stress (u / 28)
  let d : Dressing := { u := u, forced := forced, leased := leased, mv := x.1, mhz := x.2 }
  let s := { s with integ := { s.integ with dressings := s.integ.dressings ++ [d],
                                            redo := s.integ.redo.filter (fun y => y != u) } }
  (s.put fCO_INTEG_STATUS_DRESSING u 0 1).put fMG_DRESS_STATUS_RUNNING 0 0 (32 * (u / 28) + u % 28)

/-- R299, R300, R328: the slot that has given up its core is dressed, or waits while runs are suspended. One that has been fenced
since is not. -/
def State.dressOld (s : State) (t : Takeover) : State :=
  let old := 28 * t.c + t.old
  if (s.fld fCL_ROW_SPARE_FENCED t.c).testBit t.old then s
  else
    let s := s.put fCO_CORE_STATUS_STATE old 0 0
    if s.dressSuspended t.c then s.addRedo old else s.startRun old t.forced none

/-- R289 steps 5 and 8: the records, what waited for the row, and what the core's units resume. -/
def State.takeoverEnd (s : State) (t : Takeover) (lost : Bool) (rows : List Nat) : State :=
  let old := 28 * t.c + t.old
  let s := s.when (lost || rows != []) (fun s =>
    (s.event 0x1015 (unitCore (28 * t.c + t.new) 0 0) (lostDetail lost rows)).stick fMG_STICKY1_DATA_LOST)
  let s := s.event 0x1013 (unitCore old 0 0) [BitVec.ofNat 8 t.old, BitVec.ofNat 8 t.new]
  let s := if t.dress then s.wrap fCL_TAKEOVER_SWAPS t.c 0 1
    else (s.sat fCL_TAKEOVER_TAKEOVERS t.c 0 1).stick fMG_STICKY1_TAKEOVER
  let s := { s with integ := { s.integ with takeovers := s.integ.takeovers.erase t } }
  let s := (s.showTakeover t.c).when lost (fun s => s.strandCore t.c t.l)
  let s := s.when t.dress (fun s => s.dressOld t)
  (s.nextTakeover t.c (t.l / 6)).feed (28 * t.c + t.new)

/-- R289, R290: the copy ends. `lost`: some of the architectural state could not be read; `bad`: offsets in the slot's
window of rows whose reads failed during the copy. -/
def execTakeoverCopyDone (c l : Nat) (lost : Bool) (bad : List Nat) (s : State) : Outcome :=
  match s.integ.takeovers.find? (fun t => t.c == c && t.l == l) with
  | none => .next s
  | some t =>
    let old := 28 * c + t.old
    let lost := lost || s.fld fCO_INTEG_STATUS_FENCE_REASON old == 4
    let s := s.copyReads old bad
    .next ((s.moveCore t lost).takeoverEnd t lost (s.poisonedRows old))

/-- R288: the slots that hold a logical core of a cluster, in ascending order. -/
def State.activeSlots (s : State) (c : Nat) : List Nat := (List.range 28).filter (fun x => s.logicalOf (28 * c + x) != 31)

/-- R291: of two slots of a row fenced at once the lower takes the spare; the other's core has none. -/
def State.sameRow (s : State) (c : Nat) (dead : List (Nat × Nat)) : State :=
  s.forEach dead (fun p s =>
    let first := s.integ.takeovers.any (fun t => t.c == c && t.l / 6 == p.2 / 6 && decide (t.old < p.1) &&
      dead.any (fun q => q.1 == t.old))
    if first ∧ s.integ.takeoverWait.contains (c, p.2) then
      { s with integ := { s.integ with takeoverWait := s.integ.takeoverWait.erase (c, p.2) } }.goneCore c p.2 p.1
    else s)

/-- R288: one slot's heartbeat. -/
def State.probe (s : State) (c x : Nat) (silent : Bool) : State :=
  let u := 28 * c + x
  let n := if silent then nget s.integ.missed u + 1 else 0
  let s := { s with integ := { s.integ with missed := nput s.integ.missed u n } }
  if n < 2 then s else (s.event 0x1016 (unitCore u 7 0)).fenceCore u 3

/-- R287, R288, R291: heartbeats probed at a 1 ms boundary, in slot order; `silent` are the slots that did not answer. -/
def execCoreHeartbeatProbe (c : Nat) (silent : List Nat) (s : State) : Outcome :=
  s.guard (s.atBoundary 250000) (fun s =>
    let slots := s.activeSlots c
    let dead := (slots.filter (fun x => silent.contains x && decide (1 ≤ nget s.integ.missed (28 * c + x)))).map (fun x =>
      (x, s.logicalOf (28 * c + x)))
    (s.forEach slots (fun x s => s.probe c x (silent.contains x))).sameRow c dead)

/-- R296: STORM_HOLD after the stop the clock restarts, one step lower. -/
def execStormHoldEnd (c : Nat) (s : State) : Outcome :=
  match s.integ.bursts.find? (fun b => b.c == c && b.held) with
  | none => .next s
  | some b => s.guard (decide (b.stop + 250000 * s.fld fMG_INTEG_CFG_STORM_HOLD ≤ s.now)) (fun s =>
      let f := fun (x : Burst) => if x = b then { x with held := false, restarted := some s.now } else x
      { s with integ := { s.integ with bursts := s.integ.bursts.map f } }.setCeil .burst c (some b.ceiling))

/-- R296: the ceiling lifts after 1 s without a further burst. -/
def execStormCeilingLift (c : Nat) (s : State) : Outcome :=
  match s.integ.bursts.find? (fun b => b.c == c) with
  | none => .next s
  | some b => match b.restarted with
    | none => .next s
    | some t => s.guard (decide (t + 250000000 ≤ s.now)) (fun s =>
        { s with integ := { s.integ with bursts := s.integ.bursts.erase b } }.setCeil .burst c none)

/-- R293, R295: a sequencer mismatch; a second one within 1 s fences the cluster. -/
def execSequencerMismatch (c : Nat) (s : State) : Outcome :=
  let last := nget s.sq.seqMismatch c
  let again := last ≠ 0 ∧ s.now < last - 1 + 250000000
  let s := s.event 0x1017 (unitSeq c)
  let s := { s with sq := { s.sq with seqMismatch := nput s.sq.seqMismatch c (s.now + 1) } }
  .next (if again then s.fenceCluster c 1 else (s.endStreams c [2, 3]).resetSeq c)

/-- R293: a cluster interface fails its lockstep compare or its heartbeat. -/
def execClusterInterfaceFailure (c : Nat) (s : State) : Outcome := .next (s.fenceCluster c 2)

/-- R298: the temperature condition of a slot's run. -/
def State.dressWarm (s : State) (u : Nat) : Bool :=
  let i := 2 * (u / 28) + (Config.nearerSensor u).toNat
  let t := signed 16 (s.fld fMG_SENSOR_TEMP 0 i)
  let hi := signed 16 (s.fld fMG_SENSOR_MAX_HOUR 0 i)
  let lo := signed 16 (s.fld fMG_SENSOR_MIN_HOUR 0 i)
  decide (4 * hi - max (hi - lo) 64 ≤ 4 * t)

/-- R300: whether the row's spare can hold a logical core: unfenced, its own usable size (R111) of each part at least the core's
capacity. -/
def State.spareFits (s : State) (u : Nat) : Bool :=
  match s.spareOf (u / 28) (u % 28 / 7) with
  | none => false
  | some x =>
    let v := 28 * (u / 28) + x
    let caps := [fCO_WM_CAPACITY_HALF0, fCO_WM_CAPACITY_HALF1, fCO_AM_CAPACITY_HALF0, fCO_AM_CAPACITY_HALF1, fCO_PM_CAPACITY_TOTAL]
    !(s.fld fCL_ROW_SPARE_FENCED (u / 28)).testBit x &&
      (caps.zip (slotSizes s.ms.mapped v)).all (fun p => decide (s.fld p.1 u ≤ p.2))

/-- R299: runs and swaps under way, in the device or in one cluster. -/
def State.runsIn (s : State) (p : Nat → Bool) : Nat :=
  (s.integ.dressings.filter (fun d => p (d.u / 28))).length + (s.integ.takeovers.filter (fun t => t.dress && p t.c)).length

/-- The active slots of the device in cluster and slot order, with those whose run is still to come. -/
def State.allActive (s : State) : List Nat :=
  (List.range 48).flatMap (fun c => ((List.range 28).map (fun x => 28 * c + x)).filter (fun u =>
    s.logicalOf u != 31 || s.integ.redo.contains u))

/-- R301: whether a slot can be dressed without a lease. -/
def State.canDress (s : State) (u : Nat) : Bool :=
  s.integ.redo.contains u || s.spareFits u || (s.ownerOf (u / 28)).isNone

/-- R299: the slots that may start: eligible, at the temperature or due, one to a cluster. -/
def State.dressReady (s : State) (u : Nat) : Bool :=
  let due := nget s.integ.dueAt u
  decide (due ≤ s.now + 900000000000 * s.fld fMG_DRESS_CFG_LEAD) && (decide (due ≤ s.now) || s.dressWarm u) &&
    s.canDress u && s.runsIn (fun c => c == u / 28) == 0 && !s.dressSuspended (u / 28)

/-- The slot with the earliest due time. -/
def State.earliest (s : State) (l : List Nat) : Option Nat :=
  l.foldl (fun a u => match a with
    | none => some u
    | some v => if nget s.integ.dueAt u < nget s.integ.dueAt v then some u else a) none

/-- R299-R301: a run starts: a swap first, or, without a qualifying spare, with the core held; a slot without a core is dressed as it
stands. One that is due is forced. -/
def State.startDress (s : State) (u : Nat) : State :=
  let forced := decide (nget s.integ.dueAt u ≤ s.now)
  let s := s.when forced (fun s => s.stick fMG_STICKY1_DRESS_FORCED)
  let l := s.logicalOf u
  if s.integ.redo.contains u then s.startRun u forced none
  else if s.spareFits u then s.startTakeover (u / 28) l true forced else s.startRun u forced (some l)

/-- R301: a slot that passes its due time and cannot be dressed: one event 0x1023. -/
def State.overdueCheck (s : State) (u : Nat) : State :=
  if nget s.integ.dueAt u ≤ s.now ∧ !s.canDress u ∧ u ∉ s.integ.overdue then
    let s := { s with integ := { s.integ with overdue := s.integ.overdue ++ [u] } }
    let ev : Ev := { event := 0x1023, unit := unitCore u 0 0, outcome := 0, flags := 4 }
    (s.record ev).stick fMG_STICKY1_DRESS_OVERDUE
  else s

/-- R313: OVERDUE counts the slots past their due time. -/
def State.showOverdue (s : State) : State :=
  s.put fMG_DRESS_STATUS_OVERDUE 0 0 (s.allActive.filter (fun u => decide (nget s.integ.dueAt u < s.now))).length

/-- R445: the next core of a lease whose time has come: named, present, not yet dressed under it. -/
def State.leaseNext (s : State) (x : Lease) : Option Nat :=
  if x.start ≤ s.now ∧ s.now < x.stop then
    (List.range 24).find? (fun l => x.mask.testBit l && s.slotOf x.c l != 31 && !x.results.any (fun r => r.1 == l))
  else none

/-- R445: runs under leases start, within MAX_CONC and one to a cluster (R299), regardless of temperature. -/
def State.leaseRuns (s : State) : State :=
  s.forEach s.mg.leases (fun x s =>
    if max 1 (s.fld fMG_DRESS_CFG_MAX_CONC) ≤ s.runsIn (fun _ => true) ∨ s.runsIn (fun c => c == x.c) ≠ 0 ∨
        s.dressSuspended x.c then s
    else match s.leaseNext x with
      | none => s
      | some l => s.startRun (28 * x.c + s.slotOf x.c l) false (some l))

/-- R395: the memories, the instruction cache and the registers of a slot cleared. -/
def State.scrubSlot (s : State) (u : Nat) : State :=
  let k := s.core
  let core := { k with s := dropBlock 32 u k.s, p := dropBlock 8 u k.p, v := dropBlock 2048 u k.v, d := dropBlock 128 u k.d,
                       icache := k.icache.filter (fun l => l.u != u) }
  ({ s with core := core }.clearRange (slotWindow u) 0x1F0000).cleanRange (slotWindow u) 0x1F0000

/-- R445: a lease's result for one logical core: 1 passed, 2 failed. -/
def State.leaseResult (s : State) (c l r : Nat) : State :=
  { s with mg := { s.mg with leases := s.mg.leases.map (fun x =>
      if x.c = c ∧ x.mask.testBit l then { x with results := x.results ++ [(l, r)] } else x) } }

/-- A run leaves the list of runs; RUNNING shows another one, or none. -/
def State.endRun (s : State) (d : Dressing) : State :=
  let s := { s with integ := { s.integ with dressings := s.integ.dressings.erase d } }
  let s := s.put fCO_INTEG_STATUS_DRESSING d.u 0 0
  s.put fMG_DRESS_STATUS_RUNNING 0 0 (match s.integ.dressings.head? with
    | some x => 32 * (x.u / 28) + x.u % 28
    | none => 0xFFFF)

/-- R302: a run's verdict recorded. -/
def State.runRecord (s : State) (d : Dressing) (event outcome : Nat) : State :=
  let ev : Ev := { event := event, unit := unitCore d.u 0 0, outcome := outcome, flags := 4 + 8 * d.forced.toNat }
  s.record ev

/-- A run over: passed, failed, or interrupted without a verdict. A slot that has passed is its row's spare (R300); one whose run was
interrupted is not, and is eligible again at once (R16, R299; DEDUCED, log 27). -/
def State.dressEnd (s : State) (u verdict : Nat) (d : Dressing) : State :=
    let s := (s.endRun d).scrubSlot u
    let due := s.now + 900000000000 * s.fld fMG_DRESS_CFG_PERIOD
    let passed := s.integ.overdue.filter (fun x => x != u)
    let spare := fun (s : State) => if d.leased.isNone then s.setSpare (u / 28) (u % 28 / 7) (some (u % 28)) else s
    let lease := fun (s : State) (r : Nat) => match d.leased with
      | some l => s.leaseResult (u / 28) l r
      | none => s
    match verdict with
      | 0 =>
        let s := { s with integ := { s.integ with dueAt := nput s.integ.dueAt u due, overdue := passed } }
        let s := s.showOverdue.wrap fMG_DRESS_STATUS_PASSES 0 0 1
        lease (spare (s.runRecord d 0x1020 0)) 1
      | 1 =>
        let s := ((s.runRecord d 0x1021 3).sat fMG_DRESS_STATUS_FAILS 0 0 1).stick fMG_STICKY1_DRESS_FAILED
        lease (s.fenceCore u 5) 2
      | _ => if d.leased.isNone then s.addRedo u else s

/-- R299-R302: `verdict` 0: passed, 1: failed, any other: interrupted without a verdict, which is the only end of a run that a burst
hold, a reset or a step change has met. -/
def execDressingRunEnd (u verdict : Nat) (s : State) : Outcome :=
  match s.integ.dressings.find? (fun d => d.u == u) with
  | none => .next s
  | some d => .next ((if d.cut || s.dressSuspended (u / 28) then s.dressEnd u 2 d else s.dressEnd u verdict d).leaseRuns)

/-- R309: the records from the old index up to the new one are freed; too many are not. -/
def State.ledgerAdvance (s : State) (v : Nat) : State :=
  let n := (v % 1024 + 1024 - s.fld fMG_LEDGER_READ_READ) % 1024
  let u := s.fld fMG_LEDGER_STATUS_UNREAD
  if u < n then s else (s.put fMG_LEDGER_READ_READ 0 0 v).put fMG_LEDGER_STATUS_UNREAD 0 0 (u - n)

/-- A written READ index takes effect (R309). -/
def execLedgerReadAdvance (rq : Rq) (v : Nat) (s : State) : Outcome :=
  .next (s.csAct rq (mgAddr 0x1008) (fun s => s.ledgerAdvance v))

/-- R303: BASE written: every record the ledger holds is copied to the ring. Bits 15:0 stay 0 (log 49). -/
def State.mirrorSet (s : State) (v : Nat) : State :=
  let base := 65536 * (v % 2 ^ 40 / 65536)
  let s := s.put fMG_LEDGER_MIRROR_BASE 0 0 base
  if base = 0 then s
  else s.forEach (s.integ.ledger.filterMap (fun p => p.2.map (fun r => (p.1, r)))) (fun p s =>
    s.physWrite (base + 64 * p.1) (recBytes p.2))

def execLedgerMirrorSet (rq : Rq) (v : Nat) (s : State) : Outcome :=
  .next (s.csAct rq (mgAddr 0x1028) (fun s => s.mirrorSet v))

end Sys2Proof.Machine
end

