-- ==== Sys2Proof/Machine/Streams.lean ====
section
/-! DEFINITION. The stream table and its scheduler (06_command_streams.md R163-R169, R188, R191-R195) and what every
command record shares: its fetch, its checks, its class and the wait of its stream (R171-R174, R177). -/

namespace Sys2Proof.Machine

/-- R166: the lodging in whose range a stream table entry lies. -/
def State.rangeOwner (s : State) (id : Nat) : Option Nat := (List.range 8).find? (fun l => s.inRange l id)

/-- R165: whether arming an entry is refused. -/
def State.armBad (s : State) (id : Nat) : Bool :=
  let own := fun (c : Nat) => (match s.rangeOwner id with
    | some l => s.owns l c
    | none => false)
  let flag := decide (2 ≤ s.fld fGL_STREAM7_COND 0 id)
  !own (s.fld fGL_STREAM7_HOME 0 id) || s.fld fGL_STREAM2_BASE 0 id % 64 != 0 ||
    (s.is fGL_STREAM7_RESUME 0 id && s.fld fGL_STREAM3_POSITION 0 id % 64 != 0) ||
    (flag && (s.fld fGL_STREAM1_FLAG_CMP 0 id == 3 || !own (s.fld fGL_STREAM1_FLAG_CLUSTER 0 id)))

/-- R165: an entry armed, or the arm refused with event 0x400A. -/
def State.arm (s : State) (id : Nat) : State :=
  if s.armBad id then
    let ev : Ev := { event := 0x400A, unit := unitSched, outcome := 4, stream := id, lodging := s.rangeOwner id }
    (((s.put fGL_STREAM7_STATE 0 id 5).put fGL_STREAM6_FAULT 0 id 0x400A).stick fGL_STREAM_STATUS_ARM_REFUSED).record ev
  else
    { s with sq := { s.sq with examine := s.sq.examine ++ [id], overdue := s.sq.overdue.filter (fun x => x != id) } }.put
      fGL_STREAM7_STATE 0 id 1

/-- R165: word 7 of an entry that is not active: its fields are written, and STATE takes one of the two transitions a
write can make. Writing the state an entry is in makes none. -/
def State.word7 (s : State) (id : Nat) (w : Word) : State :=
  let old := s.fld fGL_STREAM7_STATE 0 id
  let new := fieldOf 0 3 w.toNat
  let s := ((s.writeRw rGL_STREAM7 0 id w).put fGL_STREAM7_STATE 0 id old).put fGL_STREAM7_LODGING 0 id
    ((s.rangeOwner id).getD 0)
  if new = old then s
  else if new = 1 then s.arm id
  else if new = 0 then s.put fGL_STREAM7_STATE 0 id 0
  else s.stick fGL_STREAM_STATUS_CFG_WHILE_BUSY

/-- R165: a write of word k of an entry. -/
def State.entryWrite (s : State) (id k : Nat) (w : Word) : State :=
  let st := s.fld fGL_STREAM7_STATE 0 id
  if st = 1 ∨ st = 2 ∨ st = 3 then
    if st = 1 ∧ k = 7 ∧ w.toNat % 8 = 0 then
      { s with sq := { s.sq with examine := s.sq.examine.filter (fun x => x != id),
                                 overdue := s.sq.overdue.filter (fun x => x != id) } }.put fGL_STREAM7_STATE 0 id 0
    else s.stick fGL_STREAM_STATUS_CFG_WHILE_BUSY
  else if k = 7 then s.word7 id w
  else s.writeRw (rGL_STREAM0 + k) 0 id w

/-- R164: word k of an entry as it reads: LODGING is that of the range which holds the entry. -/
def State.entryWord (s : State) (id k : Nat) : Word :=
  let w := s.reg (rGL_STREAM0 + k) 0 id
  if k = 7 then BitVec.ofNat 64 (withField 40 3 w.toNat ((s.rangeOwner id).getD 0)) else w

/-- The address of word k of an entry (R163). -/
def entryAddr (id k : Nat) : Nat := glAddr (0x400000 + 64 * id + 8 * k)

/-- A write of word 7, the word `w` being the one its command names. -/
def State.entryAct (s : State) (rq : Rq) (id : Nat) (w : Word) (b : Bool) : Outcome :=
  s.guard (b && decide (id < 65536)) (fun s => s.csAct rq (entryAddr id 7) (fun s => s.entryWrite id 7 w))

def execStreamArm (rq : Rq) (id : Nat) (w : Word) (s : State) : Outcome := s.entryAct rq id w (w.toNat % 8 == 1)

def execStreamDisarm (rq : Rq) (id : Nat) (w : Word) (s : State) : Outcome :=
  s.entryAct rq id w (w.toNat % 8 == 0 && s.fld fGL_STREAM7_STATE 0 id == 1)

def execStreamFree (rq : Rq) (id : Nat) (w : Word) (s : State) : Outcome :=
  s.entryAct rq id w (w.toNat % 8 == 0 && decide (4 ≤ s.fld fGL_STREAM7_STATE 0 id))

/-- The entries of the table in a state. -/
def State.entriesIn (s : State) (st : Nat) : List Nat :=
  (s.regs.filterMap (fun p => if p.1 / 2 ^ 32 = rGL_STREAM7 then some (p.1 % 2 ^ 20) else none)).filter
    (fun id => s.fld fGL_STREAM7_STATE 0 id == st)

/-- R167: whether an ARMED entry is examined at this boundary and its condition holds. -/
def State.due (s : State) (id : Nat) : Bool :=
  let c := s.fld fGL_STREAM1_FLAG_CLUSTER 0 id
  let k := s.fld fGL_STREAM1_FLAG_INDEX 0 id
  let time := decide (s.fld fGL_STREAM0_RELEASE_TIME 0 id ≤ s.now)
  let flag := flagHolds (s.fld fGL_STREAM1_FLAG_CMP 0 id) (s.fld fCL_FLAG_VALUE c k) (s.fld fGL_STREAM1_FLAG_VALUE 0 id)
  match s.fld fGL_STREAM7_COND 0 id with
  | 0 => true
  | 1 => time
  | 2 => (s.sq.examine.contains id || s.sq.examine.contains (1048576 + 4096 * c + k)) && flag
  | _ => time && flag

/-- A list with an element placed by its key. -/
def insertKey (key : Nat → Nat) (x : Nat) : List Nat → List Nat
  | [] => [x]
  | y :: l => if key x < key y then x :: y :: l else y :: insertKey key x l

def sortKey (key : Nat → Nat) (l : List Nat) : List Nat := l.foldl (fun a x => insertKey key x a) []

/-- Table 8.5, kind 5: a lodging with due entries, as the scheduler's ostler sees it. -/
def schedKey : Nat := ostlerAt 5 0 0
def schedAsker (l : Option Nat) : Asker := ⟨l.getD 8, 0, 0, l, 0⟩

/-- R168: releases shared among lodgings by the scheduler's ostler; `todo` holds pairs of lodging and stream in the order
within a lodging. The first argument bounds the number of releases. -/
def State.pickGo : Nat → State → List (Option Nat × Nat) → List Nat → List Nat × State
  | 0, s, _, acc => (acc, s)
  | n + 1, s, todo, acc =>
    let live := (todo.map Prod.fst).eraseDups.map schedAsker
    let x := (s.ostler schedKey).phase (s.everyNth 5) s.now 1 (s.eligible 5 0 0) (fun a => live.any (fun b => b.same a)) live
    match todo.find? (fun p => x.2.any (fun a => a.same (schedAsker p.1))) with
    | none => (acc, s)
    | some p => State.pickGo n (s.setOstler schedKey x.1) (todo.erase p) (acc ++ [p.2])

/-- R239: lodgings with nothing left to release leave the scheduler's queues. -/
def State.schedLeave (s : State) (left : List Nat) : State :=
  let o := (s.ostler schedKey).leave (fun a => !left.any (fun id => (schedAsker (s.rangeOwner id)).same a))
  s.setOstler schedKey o

/-- R320: whether a jump of the count has passed over a boundary of 1 µs at or after count t. -/
def State.missed (s : State) (t : Nat) : Bool :=
  match s.tm.jump with
  | none => false
  | some (a, b) =>
    let m := (b - 1) / 250 * 250
    b == s.now && decide (a < m) && decide (t ≤ m)

/-- R167: the count from which an entry's time condition, if it has one, holds. -/
def State.dueFrom (s : State) (id : Nat) : Nat :=
  let c := s.fld fGL_STREAM7_COND 0 id
  if c = 1 ∨ c = 3 then s.fld fGL_STREAM0_RELEASE_TIME 0 id else 0

/-- R169, R294: an entry released. -/
def State.release (s : State) (id : Nat) : State :=
  let late := s.sq.overdue.contains id || s.missed (s.dueFrom id)
  let home := s.fld fGL_STREAM7_HOME 0 id
  let s := if s.is fGL_STREAM7_RESUME 0 id then s else s.put fGL_STREAM3_POSITION 0 id (s.fld fGL_STREAM2_BASE 0 id)
  let s := ((s.put fGL_STREAM5_COMPLETED 0 id 0).put fGL_STREAM6_FAULT 0 id 0).wrap fGL_STREAM6_RELEASES 0 id 1
  let sq := { s.sq with ready := s.sq.ready ++ [id], releaseAt := nput s.sq.releaseAt id s.now,
                        overdue := s.sq.overdue.filter (fun x => x != id) }
  let s := ({ s with sq := sq }.put fGL_STREAM7_STATE 0 id 2).trace home 1 0 0 id 0 0
  let ev : Ev := { event := 0x400B, unit := unitSched, outcome := 0, stream := id,
                   lodging := some (s.fld fGL_STREAM7_LODGING 0 id) }
  let s := s.when late (fun s => s.record ev)
  if s.clusterFenced home then s.streamFault id 0x400C 0 [] else s

/-- R167: the entries due at a boundary. -/
def State.dueNow (s : State) : List Nat := (s.entriesIn 1).filter (fun id => s.sq.overdue.contains id || s.due id)

/-- R167, R168: a boundary. Entries of a lodging under reset (R381), or that the scheduler's ostler is frozen for (R241),
are not released. -/
def State.boundary (s : State) : State :=
  let due := s.dueNow
  let key := fun (id : Nat) => 65536 * s.fld fGL_STREAM0_RELEASE_TIME 0 id + id
  let ready := due.filter (fun id => !s.rst.lodgings.any (fun x => some x.l == s.rangeOwner id))
  let todo := (sortKey key ready).map (fun id => (s.rangeOwner id, id))
  let (taken, s) := State.pickGo 256 s todo []
  let left := due.filter (fun id => !taken.contains id)
  let s := { s with sq := { s.sq with examine := [], examinedAt := s.now + 1 } }.schedLeave left
  let s := s.forEach (sortKey id taken) (fun id s => s.release id)
  let s := { s with sq := { s.sq with overdue := left } }
  s.when (ready.any (fun id => !taken.contains id && s.eligible 5 0 0 (schedAsker (s.rangeOwner id))))
    (fun s => s.stick fGL_STREAM_STATUS_BACKLOG)

/-! ### Acts due at one count (R330) -/

/-- R422: PERIOD in counts. -/
def State.ckPeriod (s : State) (l : Nat) : Nat := 250000000 * max 10 (s.fld fET_CKPT_CFG1_PERIOD 0 l)

/-- R422: the newest due count of a lodging's captures, if that is the present count or one just jumped over. -/
def State.ckDue (s : State) (l : Nat) : Option Nat :=
  let f := s.fld fET_CKPT_CFG0_FIRST 0 l
  if 8 ≤ l ∨ !s.is fET_CKPT_CFG0_EN 0 l ∨ !s.is fGL_LODGING_CFG_OPEN 0 l ∨ s.now < f then none
  else
    let d := s.now - (s.now - f) % s.ckPeriod l
    if (d = s.now ∨ s.jumpedOver d) ∧ nget s.ck.dueAt l ≠ d + 1 then some d else none

/-- R349, R320: an entry of the cap schedule that acts now: at its count, at the first count after a jump over it, or, for a count
that had passed when it was written, at a 1 µs boundary. -/
def State.capDue (s : State) (j : Nat) : Bool :=
  let t := s.fld fPW_CAP_SCHED0_COUNT 0 j
  s.is fPW_CAP_SCHED0_VALID 0 j && decide (t ≤ s.now) && (t == s.now || s.jumpedOver t || s.atBoundary 250)

/-- R260: a stack whose data rate is due to change. -/
def State.rateDue (s : State) (k : Nat) : Bool :=
  let t := nget s.hbm.rateAt k
  t != 0 && decide (t ≤ s.now + 1) && !s.is fHB_STATUS_SWITCHING k

/-- R330: whether an act of a place in the order is due and still to come: 1 the frequency-step switch, 2 the switch of routing
tables, 3 the freeze for a rate change, 4 a cap-schedule step, 5 a checkpoint, 6 stream releases, 7 a WAIT_TIME. -/
def State.actDue (s : State) (n : Nat) : Bool :=
  match n with
  | 1 => (match s.tm.switch with
    | some w => !w.done && decide (w.at_ ≤ s.now)
    | none => false)
  | 2 => (match s.net.switchAt with
    | some t => decide (t ≤ s.now)
    | none => false)
  | 3 => (List.range 12).any (fun k => s.rateDue k)
  | 4 => (List.range 16).any (fun j => s.capDue j)
  | 5 => (List.range 8).any (fun l => (s.ckDue l).isSome)
  | 6 => s.atBoundary 250 && s.sq.examinedAt != s.now + 1 && !s.dueNow.isEmpty
  | 7 => s.sq.waits.any (fun p => match p.2 with
    | some w => s.fld fSQ_SLOT_WAIT (p.1 / 16) (p.1 % 16) == 4 && decide (w.need ≤ s.regionNow (p.1 / 16))
    | none => false)
  | _ => false

/-- R330: whether an act of place n may take effect: none before it in the order is due. -/
def State.actFirst (s : State) (n : Nat) : Bool := !(List.range n).any (fun j => s.actDue j)

/-- R279: the two copies of the scheduler disagree: nothing is released, and the entries due are released at the next
boundary. -/
def State.boundaryLost (s : State) : State :=
  let due := s.dueNow
  let s := s.event 0x1018 unitSched
  { s with sq := { s.sq with examine := [], examinedAt := s.now + 1, overdue := due } }

def execStreamReleaseBoundary (mismatch : Bool) (s : State) : Outcome :=
  s.guard (s.atBoundary 250 && s.sq.examinedAt != s.now + 1 && s.actFirst 6) (fun s => if mismatch then s.boundaryLost else s.boundary)

/-- R161: the records fetched ahead for a slot given up. -/
def State.dropAhead (s : State) (c i : Nat) : State :=
  { s with sq := { s.sq with prefetch := s.sq.prefetch.filter (fun p => p.1 != slotKey c i) } }

/-- R162: the READY stream of a sequencer released earliest takes free slot i. -/
def execStreamSlotAssign (c i : Nat) (s : State) : Outcome :=
  match s.sq.ready.find? (fun id => s.fld fGL_STREAM7_HOME 0 id == c) with
  | none => .next s
  | some id => s.guard (decide (i < 16) && !s.is fSQ_SLOT_VALID c i && !s.clusterHeld c &&
      !s.lodgingHalted c) (fun s =>
      let s := { s with sq := { s.sq with ready := s.sq.ready.erase id } }
      (((s.setReg rSQ_SLOT c i (BitVec.ofNat 64 (2 ^ 19 + id))).setWait (slotKey c i) none).dropAhead c i).put
        fGL_STREAM7_STATE 0 id 3)

/-- R166, R194: GL_STREAM_CTRL with OP 1. A stream outside the requester's range is refused; what a host's request is
answered with is its port's affair (R166, R411). -/
def State.stopAct (s : State) (rq : Rq) (id : Nat) : State :=
  let mine := rq.platform || (match s.lodgingOf rq with
    | some l => s.inRange l id
    | none => false)
  if mine then s.streamStop id
  else
    let s := s.stick fGL_STREAM_STATUS_RANGE_REFUSED
    match rq with
    | .host _ _ => s
    | _ => s.refuse rq 0x7001 unitSched none 63 (glAddr 0x300)

def execStreamStop (rq : Rq) (id : Nat) (s : State) : Outcome :=
  .next (s.csAct rq (glAddr 0x300) (fun s => s.stopAct rq (id % 65536)))

/-- A record about to issue: sequencer, slot, stream, address, words. -/
structure Iss where
  c : Nat
  i : Nat
  id : Nat
  pos : Nat
  words : List Word
  deriving DecidableEq, Repr

def Iss.way (x : Iss) : Nat := recWaybill x.words
/-- R180: the command of a record. -/
def Iss.org (x : Iss) : Option Origin := some ⟨x.way, x.id, 0⟩

def Iss.opc (x : Iss) : Nat := recOpc x.words
def Iss.w (x : Iss) (k : Nat) : Nat := recWord x.words k
def Iss.bits (x : Iss) (k lo n : Nat) : Nat := fieldOf lo n (x.w k)

/-- The words of bytes, eight bytes each. -/
def wordsOf (n : Nat) (bs : List (BitVec 8)) : List Word :=
  (List.range n).map (fun k => BitVec.ofNat 64 (leNat ((bs.drop (8 * k)).take 8)))

/-- Table 6.6: the bits a record of a kind may set: word 0 below OPC, then words 2 to 7. None for a reserved kind. -/
def recMask (opc : Nat) : Option (List Nat) :=
  match opc with
  | 0x01 => some [0xF9FFFFFF, 0xFFFFFFFFFFFFFFFF, 0xFFFFFFFFFFFFFFFF, 0xFFFFFFFFFFFFFFFF, 0xFFFFFFFFFFFFFFFF,
      0xFFFFFFFFFFFFFFFF, 0xFFFFFFFFFF]
  | 0x02 => some [0x1FFFFFF, 0xFFFFFFFFFF, 0xFFFFFFFFFF, 0xFFFFFFFF, 0, 0, 0]
  | 0x03 => some [0xF, 0xFFFFFFFFFFFFFFFF, 0xFFFFFFFFFFFFFFFF, 0xFFFFFFFFFFFFFFFF, 0xFFFFFFFFFF,
      0x8000FFFF00003FFF, 0]
  | 0x04 => some [0, 0xFFFF00003FFF, 0, 0, 0, 0, 0]
  | 0x05 => some [0, 0xFFFF00003FFF, 0, 0, 0, 0, 0]
  | 0x06 => some [3, 0x0FFF3F00, 0xFFFFFFFF, 0, 0, 0, 0]
  | 0x07 => some [3, 0x0FFF3F00, 0xFFFFFFFF, 0, 0, 0, 0]
  | 0x08 => some [0, 0xFFFF0000003F, 0, 0, 0, 0, 0]
  | 0x09 => some [1, 0xFFFFFFFFFFFFFFFF, 0, 0, 0, 0, 0]
  | 0x0A => some [0x010007FF, 0xFFFFFF, 0, 0, 0, 0, 0]
  | 0x0B => some [0x3FFF, 0xFFFFFFFFFFFFFFFF, 0xFFFFFFFF, 0, 0, 0, 0]
  | 0x0C => some [0, 0xFFFFFFFFFFFFFFFF, 0xFFFFFFFFFFFF, 0, 0, 0, 0]
  | 0x0D => some [0, 0xFFFFFFFF, 0, 0, 0, 0, 0]
  | 0x0F => some [0, 0, 0, 0, 0, 0, 0]
  | _ => none

/-- R171, R172, R174: a record of a listed kind whose other bits are 0. -/
def recLegal (r : List Word) : Bool :=
  match recMask (recOpc r) with
  | none => false
  | some m =>
    let in0 := fun (x m : Nat) => x &&& m == x
    in0 (recWord r 0 % 2 ^ 56) (m.getD 0 0) && decide (recWord r 1 < 2 ^ 49) &&
      (List.range 6).all (fun k => in0 (recWord r (k + 2)) (m.getD (k + 1) 0))

/-- Table 6.5: classes. -/
def ordered (opc : Nat) : Bool := opc == 0x04 || opc == 0x06 || opc == 0x08 || opc == 0x0D || opc == 0x0F
def launches (opc : Nat) : Bool := opc == 0x01 || opc == 0x02 || opc == 0x03

/-- R173, R190, R193, R194: whether a slot's stream can issue its next record. -/
def State.canIssue (s : State) (c i : Nat) : Bool :=
  let id := s.fld fSQ_SLOT_STREAM c i
  let w := s.fld fSQ_SLOT_WAIT c i
  s.is fSQ_SLOT_VALID c i && (w == 0 || w == 6 || w == 7) && s.fld fGL_STREAM7_STATE 0 id == 3 &&
    !s.sq.ending.any (fun e => e.1 == id) && !s.sq.held.contains id && !s.sq.tensors.any (fun t => t.stream == id) &&
    !s.clusterFenced c && !s.clusterHeld c && !s.lodgingHalted c

/-- A fault of the stream at the record. -/
def State.recFault (s : State) (x : Iss) (event : Nat) (detail : List (BitVec 8) := []) : State :=
  s.streamFault x.id event x.way detail x.opc

/-- POSITION moved to another record. -/
def State.goto (s : State) (x : Iss) (pos : Nat) : State := s.put fGL_STREAM3_POSITION 0 x.id pos

/-- The record has completed and the stream moves on. -/
def State.recDone (s : State) (x : Iss) : State := (s.goto x (x.pos + 64)).completed x.id x.way x.opc

/-- R173, R191: a slot begins to wait. -/
def State.beginWait (s : State) (x : Iss) (code obj need : Nat) (timed : Bool) (cores : List Nat) : State :=
  let w : SlotWait := { obj := obj, need := need, since := s.now, cores := cores, order := s.sq.waitOrder,
                        limit := if timed then some (s.streamLimit x.id) else none, record := x.words, pos := x.pos }
  let s := { s with sq := { s.sq with waitOrder := s.sq.waitOrder + 1 } }
  ((s.setWait (slotKey x.c x.i) (some w)).put fSQ_SLOT_WAIT x.c x.i code).trace x.c 4 x.way 0 x.id x.opc need

/-- A blocking command issued: POSITION is that of the next record. -/
def State.block (s : State) (x : Iss) (code obj need : Nat) (timed : Bool) (cores : List Nat) : State :=
  (s.goto x (x.pos + 64)).beginWait x code obj need timed cores

/-- R173: the place of a record that waits to issue: an ordered command, or a launch at the limit. -/
def State.waitAt (s : State) (x : Iss) (code : Nat) (timed : Bool) : Option State :=
  if s.fld fSQ_SLOT_WAIT x.c x.i = code then none else some (s.beginWait x code (objName 4 x.c 0) 0 timed [])

/-- The wait of an ordered command, or at the launch limit, is over as its record issues. -/
def State.waitOver (s : State) (x : Iss) : State :=
  let k := slotKey x.c x.i
  let s := match s.waitOf k with
    | some _ => s.trace x.c 5 x.way 0 x.id x.opc 0
    | none => s
  (s.setWait k none).put fSQ_SLOT_WAIT x.c x.i 0

/-- R171-R173: the checks every record passes, and the waits of its class, before what its kind does. None while the
record cannot issue yet (a request held, a queue full). -/
def State.vet (s : State) (x : Iss) (run : Iss → State → Option State) : Option State :=
  let out := s.outstanding x.id
  if !recLegal x.words then some (s.recFault x 0x4001)
  else if recStream x.words ≠ x.id then some (s.recFault x 0x4002)
  else if (ordered x.opc ∨ recFence x.words) ∧ out ≠ 0 then s.waitAt x 6 true
  else if launches x.opc ∧ 32 ≤ out then s.waitAt x 7 false
  else if x.opc = 0x01 then run x (s.waitOver x)
  else run x ((s.waitOver x).trace x.c 2 x.way 0 x.id x.opc 0)

/-- R161: a record read through translation. -/
def State.readRec (s : State) (c pos : Nat) : Got (List Word) × State :=
  match s.readMem (.seqFetch c) pos 64 with
  | (.ok bs, t) => (.ok (wordsOf 8 bs), t)
  | (.err e, t) => (.err e, t)
  | (.held, t) => (.held, t)

/-- R161: the record fetched ahead for a slot at an address. -/
def State.aheadOf (s : State) (c i pos : Nat) : Option (List Word) :=
  (s.sq.prefetch.find? (fun p => p.1 == slotKey c i && p.2.1 == pos)).map (fun p => p.2.2)

/-- R161: the record about to issue. How far ahead a sequencer has fetched, up to 8 records, is open: a record that has been
written since it could be fetched is issued in its old or its new form (log 9). -/
def State.fetchRec (s : State) (c i pos : Nat) : Got (List Word) × State :=
  match s.aheadOf c i pos with
  | none => s.readRec c pos
  | some ws =>
    if (s.readRec c pos).1 = .ok ws then (.ok ws, s)
    else
      let (k, t) := s.draw
      if Config.freeBool k then (.ok ws, t) else t.readRec c pos

/-- R161: records fetched ahead, up to one that cannot be fetched now; such a fetch has no effect before its record is to issue
(DESIGN CHOICE, log 52). -/
def State.fetchAhead (c i : Nat) : Nat → Nat → State → State
  | 0, _, s => s
  | n + 1, pos, s =>
    match s.aheadOf c i pos with
    | some _ => State.fetchAhead c i n (pos + 64) s
    | none => match s.readRec c pos with
      | (.ok ws, t) =>
        State.fetchAhead c i n (pos + 64) { t with sq := { t.sq with prefetch := t.sq.prefetch ++ [(slotKey c i, pos, ws)] } }
      | _ => s

/-- R161: a slot's stream has moved on: the records behind it are given up, and up to 8 are fetched from POSITION on. -/
def State.ahead (s : State) (c i : Nat) : State :=
  let id := s.fld fSQ_SLOT_STREAM c i
  let pos := s.fld fGL_STREAM3_POSITION 0 id
  if !s.is fSQ_SLOT_VALID c i || s.fld fGL_STREAM7_STATE 0 id != 3 then s.dropAhead c i
  else
    let keep := fun (p : Nat × Nat × List Word) => p.1 != slotKey c i || (decide (pos ≤ p.2.1) && decide (p.2.1 < pos + 512))
    State.fetchAhead c i 8 pos { s with sq := { s.sq with prefetch := s.sq.prefetch.filter keep } }

/-- R161, R173: the record at POSITION. `kind` tells whether it is the command's. -/
def State.issueRec (s : State) (c i : Nat) (kind : Nat → Bool) (run : Iss → State → Option State) : Outcome :=
  s.guard (s.canIssue c i) (fun s =>
    let id := s.fld fSQ_SLOT_STREAM c i
    let pos := s.fld fGL_STREAM3_POSITION 0 id
    match s.fetchRec c i pos with
    | (.held, _) => s
    | (.err _, t) => t.streamFault id 0x4004 0 []
    | (.ok ws, t) =>
      let x : Iss := { c := c, i := i, id := id, pos := pos, words := ws }
      if kind x.opc then ((t.vet x run).map (fun t => t.ahead c i)).getD s else s)

/-- A record whose kind always acts when it issues. -/
def State.issueNow (s : State) (c i opc : Nat) (run : Iss → State → State) : Outcome :=
  s.issueRec c i (fun k => k == opc) (fun x s => some (run x s))

/-- R172: a record of a reserved kind. -/
def execReservedCommandKind (c i : Nat) (s : State) : Outcome :=
  s.issueRec c i (fun opc => (recMask opc).isNone) (fun _ _ => none)

/-- The lodging a stream belongs to. -/
def State.streamLodging (s : State) (id : Nat) : Nat := s.fld fGL_STREAM7_LODGING 0 id

/-- R177: the cores a mask comes to; none when it names an absent one without ALLOW_ABSENT. -/
def State.gangOf (s : State) (c mask : Nat) (allow : Bool) : Option (List Nat) :=
  let ls := maskCores mask
  if allow || ls.all (fun l => s.present c l) then some (ls.filter (fun l => s.present c l)) else none

/-- R192: the two other streams of a lodging whose waits began earliest and are pending, or ended at this same boundary: stream,
waybill, when the wait began. A QPUT held for the stream's program is a wait of the stream (R191). -/
def State.otherWaits (s : State) (id l : Nat) : List (Nat × Nat × Nat) :=
  let here := s.sq.waits.filterMap (fun p => p.2.map (fun w =>
    (s.fld fSQ_SLOT_STREAM (p.1 / 16) (p.1 % 16), recWaybill w.record, w.since)))
  let puts := s.core.wait.filterMap (fun p => if p.2 = 3 then
    some (nget s.core.stream p.1, nget s.core.waybill p.1, nget s.core.waitSince p.1) else none)
  let ended := s.sq.timedOut.filterMap (fun p => if p.1 = s.now then some p.2 else none)
  let before := fun (a b : Nat × Nat × Nat) => decide (a.2.2 < b.2.2) || (a.2.2 == b.2.2 && decide (a.1 < b.1))
  let others := (here ++ puts ++ ended).filter (fun p => p.1 != id && s.streamLodging p.1 == l)
  let first := others.filter (fun p => !others.any (fun q => q.1 == p.1 && decide (q.2.2 < p.2.2)))
  let all := first.foldl (fun a p => if a.any (fun q => q.1 == p.1) then a else a ++ [p]) []
  all.filter (fun p => decide ((all.filter (fun q => before q p)).length < 2))

/-- Table 10.16, event 0x4008. -/
def State.timeoutDetail (s : State) (id obj value need writer : Nat) : List (BitVec 8) :=
  let os := s.otherWaits id (s.streamLodging id)
  let first := os.foldl (fun (b : Option (Nat × Nat × Nat)) p => match b with
    | none => some p
    | some q => if p.2.2 < q.2.2 ∨ (p.2.2 = q.2.2 ∧ p.1 < q.1) then some p else b) none
  let second := os.find? (fun p => some p != first)
  let part := fun (p : Option (Nat × Nat × Nat)) => match p with
    | some q => leBytes 2 q.1 ++ leBytes 4 q.2.1
    | none => leBytes 2 0xFFFF ++ leBytes 4 0
  leBytes 4 obj ++ leBytes 4 value ++ leBytes 4 need ++ leBytes 4 writer ++ part first ++ part second

/-- R192: the value of an awaited object, and the waybill of its last writer. -/
def State.waitValue (s : State) (id : Nat) (w : SlotWait) : Nat × Nat :=
  let c := fieldOf 22 6 w.obj
  let k := fieldOf 0 22 w.obj
  match fieldOf 28 4 w.obj with
  | 0 => (s.fld fCL_SEM_COUNT c k, nget s.ms.semWay (256 * c + k))
  | 1 => (s.fld fCL_FLAG_VALUE c k, s.fld fCL_FLAG_LAST_WAYBILL c k)
  | 2 => (s.fld fGL_BARRIER_COUNT 0 k, 0)
  | 3 => ((w.cores.filter (fun l => nget s.core.slotFull (redKey c l k) == 1)).length, 0)
  | _ => (s.outstanding id, 0)

/-- R191, R192: a stream faults with 0x4008; its ended wait stays known for the other waits of this boundary. -/
def State.timeOut (s : State) (id way since obj value need writer : Nat) : State :=
  let d := s.timeoutDetail id obj value need writer
  let l := s.sq.timedOut.filter (fun p => p.1 == s.now) ++ [(s.now, id, way, since)]
  { s with sq := { s.sq with timedOut := l } }.streamFault id 0x4008 way d (s.currentOpc id)

/-- R191: a timed wait checked at a boundary: that of sequencer slot k (16 * cluster + slot), or, with `qput`, that of
the QPUT of core slot k. -/
def execStreamWaitTimeout (qput : Bool) (k : Nat) (s : State) : Outcome :=
  if qput then
    let id := nget s.core.stream k
    s.guard (s.regionBoundary (k / 28) 250 && nget s.core.wait k == 3 && s.fld fGL_STREAM7_STATE 0 id == 3 &&
        decide (nget s.core.waitSince k + 250 * nget s.core.waitLimit k ≤ s.regionNow (k / 28)))
      (fun s => s.timeOut id (nget s.core.waybill k) (nget s.core.waitSince k)
        (objName 3 (k / 28) (nget s.core.waitArg k % 16)) 1 0 0)
  else match s.waitOf k with
    | none => .next s
    | some w => match w.limit with
      | none => .next s
      | some n =>
        let id := s.fld fSQ_SLOT_STREAM (k / 16) (k % 16)
        s.guard (s.regionBoundary (k / 16) 250 && decide (w.since + 250 * n ≤ s.regionNow (k / 16))) (fun s =>
          let v := s.waitValue id w
          s.timeOut id (recWaybill w.record) w.since w.obj v.1 w.need v.2)

/-- R188: a WAIT_TIME whose count the region's site time has reached. -/
def execWaitTimeExpiry (c i : Nat) (s : State) : Outcome :=
  match s.waitOf (slotKey c i) with
  | none => .next s
  | some w => s.guard (s.fld fSQ_SLOT_WAIT c i == 4 && decide (w.need ≤ s.regionNow c) && s.actFirst 7) (fun s => s.waitMet c i)

/-- R173: what a completed launch leaves: the last of an ending stream frees its slot. -/
def State.endingCheck (s : State) (id : Nat) : State :=
  match s.sq.ending.find? (fun e => e.1 == id) with
  | none => s
  | some e => { s with sq := { s.sq with ending := s.sq.ending.erase e } }.endIfQuiet id e.2

/-- R173: a launched command completes: its cores are done and its writes acknowledged. -/
def State.launchDone (s : State) (x : Launch) : State :=
  let s := { s with sq := { s.sq with launches := s.sq.launches.filter (fun y => y.id != x.id) } }
  let s := match x.sig with
    | some g => s.sendSignal g.1 g.2 x.waybill (unitSeq x.c) (s.streamLodging x.stream) x.stream x.opc
    | none => s
  (s.completed x.stream x.waybill x.opc).endingCheck x.stream

def execLaunchComplete (n : Nat) (s : State) : Outcome :=
  match s.sq.launches.find? (fun x => x.id == n) with
  | none => .next s
  | some x => s.guard (x.cores == [] && s.net.resps.all (fun r => !(r.rq.table == (3, x.c) && r.op == x.id)))
    (fun s => s.launchDone x)

end Sys2Proof.Machine
end

