-- ==== Sys2Proof/Machine/Commands.lean ====
section
/-! DEFINITION. The command records of a stream (06_command_streams.md R175-R190, Tables 6.5 and 6.6), the delivery of
broadcasts, program starts, barrier waves and writes of flags. A command names its sequencer slot (cluster `c`, slot `i`);
the record is the one in memory at the stream's POSITION. RAMP_NOTICE stands with the power controller. -/

namespace Sys2Proof.Machine

/-- R176: the operand pack read and checked: the words, or the event that faults the stream; none while held. -/
def State.readPack (s : State) (x : Iss) : Option (Except Nat (List Word)) × State :=
  let pk := x.bits 7 0 40
  if pk = 0 then (some (.ok []), s)
  else if pk % 64 ≠ 0 ∨ lQ (BitVec.ofNat 32 (x.w 2 / 2 ^ 32)) = 0 then (some (.error 0x4001), s)
  else match s.readMem (.seqFetch x.c x.org) pk 224 with
    | (.held, _) => (none, s)
    | (.err _, t) => (some (.error 0x4004), t)
    | (.ok bs, t) =>
      let ws := wordsOf 28 bs
      if descOk (ws.take 8) && descOk ((ws.drop 8).take 8) && descOk ((ws.drop 16).take 8) then (some (.ok ws), t)
      else (some (.error 0x4001), t)

/-- R176: INSN is a long instruction with PRED and PNEG 0. -/
def insnOk (insn : Nat) : Bool := fieldOf 26 6 insn / 16 == 2 && fieldOf 22 4 insn == 0

/-- R179: whether a gang names a FAULTED core. -/
def State.gangFaulted (s : State) (c : Nat) (ls : List Nat) : Bool :=
  ls.any (fun l => s.fld fCO_CORE_STATUS_STATE (28 * c + s.slotOf c l) == 4)

/-- R175-R177, R179: a TENSOR takes its place in the order of delivery. -/
def State.tensor (x : Iss) (s : State) : Option State :=
  if !insnOk (x.w 2) then some (s.recFault x 0x4001)
  else match s.readPack x with
    | (none, _) => none
    | (some (.error e), t) => some (t.recFault x e)
    | (some (.ok ws), t) => match t.gangOf x.c (x.bits 0 0 24) ((x.w 0).testBit 24) with
      | none => some (t.recFault x 0x4005)
      | some ls =>
        if t.gangFaulted x.c ls then some (t.recFault x 0x4006)
        else
          let d : Tensor := { c := x.c, stream := x.id, record := x.words, pack := ws, pos := x.pos }
          some { t with sq := { t.sq with tensors := t.sq.tensors ++ [d] } }

def execTensor (c i : Nat) (s : State) : Outcome := s.issueRec c i (fun k => k == 0x01) State.tensor

/-- A launch entered. -/
def State.addLaunch (s : State) (c id way opc : Nat) (cores : List Nat) (sig : Option (Nat × Nat)) : State :=
  let x : Launch := { id := s.sq.nextLaunch, c := c, stream := id, waybill := way, opc := opc, cores := cores, sig := sig }
  { s with sq := { s.sq with launches := s.sq.launches ++ [x], nextLaunch := s.sq.nextLaunch + 1 } }

/-- R175, R177: whether every core of a gang can take a broadcast in this cycle. -/
def State.gangFree (s : State) (c : Nat) (ls : List Nat) : Bool :=
  ls.all (fun l => !s.slotHeld (28 * c + s.slotOf c l) && !s.integ.takeovers.any (fun t => t.c == c && t.l == l) &&
    decide ((s.core.bq.filter (fun e => e.c == c && e.l == l)).length < 2))

/-- R161: the sequencer fetches ahead of a stream that has moved on. -/
def State.aheadOfStream (s : State) (id : Nat) : State :=
  match s.slotIx id with
  | some i => s.ahead (s.fld fGL_STREAM7_HOME 0 id) i
  | none => s

/-- R173, R175: a TENSOR delivered to every core of its gang, and thereby issued. -/
def State.deliver (s : State) (t : Tensor) (ls : List Nat) : State :=
  let n := s.sq.nextLaunch
  let es : List BQEntry := ls.map (fun l => ⟨t.c, l, n, t.record, t.pack, t.pos⟩)
  let s := { s with core := { s.core with bq := s.core.bq ++ es } }
  let s := (s.addLaunch t.c t.stream (recWaybill t.record) 0x01 ls none).trace t.c 2 (recWaybill t.record) 0 t.stream 0x01 0
  (s.put fGL_STREAM3_POSITION 0 t.stream (t.pos + 64)).aheadOfStream t.stream

/-- R175, R177, R179: the oldest TENSOR of a sequencer is delivered when its whole gang can take it. -/
def execTensorDelivery (c : Nat) (s : State) : Outcome :=
  match s.sq.tensors.find? (fun t => t.c == c) with
  | none => .next s
  | some t =>
    let r0 := recWord t.record 0
    let gone := { s with sq := { s.sq with tensors := s.sq.tensors.erase t } }
    let x : Iss := { c := c, i := 0, id := t.stream, pos := t.pos, words := t.record }
    match s.gangOf c (r0 % 2 ^ 24) (r0.testBit 24) with
    | none => .next (gone.recFault x 0x4005)
    | some ls =>
      if s.gangFaulted c ls then .next (gone.recFault x 0x4006)
      else .next (if s.gangFree c ls && !s.clusterFenced c && !s.gangPaused then gone.deliver t ls else s)

/-- R178, Table 6.7: a header that keeps the table. -/
def headerOk (h : List (BitVec 8)) : Bool :=
  let f := fun (o n : Nat) => leNat ((h.drop o).take n)
  f 0 2 == 0x4E51 && f 3 1 == 1 && f 4 4 == 0 && f 24 40 == 0 && decide (64 ≤ f 8 8) && f 8 8 % 4 == 0

/-- R24: whether a contract level is supported. -/
def State.levelSupported (s : State) (v : Nat) : Bool :=
  decide (1 ≤ v) && (s.fld fGL_CONTRACT_LEVEL_SUPPORTED).testBit (v - 1)

/-- The argument blocks of a CALL_CORE, one for each core named: none when one cannot be fetched. -/
def State.readArgs (x : Iss) : State → List Nat → Got (List (Nat × List Word)) × State
  | s, [] => (.ok [], s)
  | s, l :: ls =>
    let a := x.bits 3 0 40 + l * x.bits 4 0 32
    match s.readMem (.seqFetch x.c x.org) a 64 with
    | (.held, t) => (.held, t)
    | (.err e, t) => (.err e, t)
    | (.ok bs, t) => match State.readArgs x t ls with
      | (.ok r, t) => (.ok ((l, wordsOf 8 bs) :: r), t)
      | r => r

/-- R178: program starts queued for the named cores, and the launch. -/
def State.startCores (s : State) (x : Iss) (entry level : Nat) (args : List (Nat × List Word)) : State :=
  let n := s.sq.nextLaunch
  let new : List CoreStart := args.map (fun p => ⟨x.c, p.1, n, entry, p.2, level⟩)
  let s := { s with core := { s.core with starts := s.core.starts ++ new } }
  (s.addLaunch x.c x.id x.way 0x02 (args.map (fun p => p.1)) none).goto x (x.pos + 64)

/-- R177, R178: a CALL_CORE whose header has been read. -/
def State.callCores (s : State) (x : Iss) (h : List (BitVec 8)) : Option State :=
  let lv := leNat ((h.drop 2).take 1)
  if !headerOk h then some (s.recFault x 0x4001)
  else if !s.levelSupported lv then some (s.recFault x 0x4003)
  else match s.gangOf x.c (x.bits 0 0 24) ((x.w 0).testBit 24) with
    | none => some (s.recFault x 0x4005)
    | some ls =>
      if ls.any (fun l => !formOk ((x.bits 3 0 40 + l * x.bits 4 0 32 : Nat) : Int) 64) then some (s.recFault x 0x4001)
      else match State.readArgs x s ls with
        | (.held, _) => none
        | (.err _, t) => some (t.recFault x 0x4004)
        | (.ok args, t) => some (t.startCores x ((x.bits 2 0 40 + leNat ((h.drop 8).take 8)) % 2 ^ 40) lv args)

def State.callCore (x : Iss) (s : State) : Option State :=
  if x.bits 2 0 40 % 64 ≠ 0 ∨ x.bits 3 0 40 % 64 ≠ 0 ∨ x.bits 4 0 32 % 64 ≠ 0 then some (s.recFault x 0x4001)
  else match s.readMem (.seqFetch x.c x.org) (x.bits 2 0 40) 64 with
    | (.held, _) => none
    | (.err _, t) => some (t.recFault x 0x4004)
    | (.ok h, t) => t.callCores x h

def execCallCore (c i : Nat) (s : State) : Outcome := s.issueRec c i (fun k => k == 0x02) State.callCore

/-- R125: the registers of a core cleared, but for s1 to s8, which take the arguments. -/
def State.loadArgs (s : State) (u : Nat) (args : List Word) : State :=
  let k := s.core
  let core := { k with s := dropBlock 32 u k.s, p := dropBlock 8 u k.p, v := dropBlock 2048 u k.v,
                       d := dropBlock 128 u k.d }
  ({ s with core := core }.icInv u).forEach (List.range 8) (fun j s => s.setS u (j + 1) (args.getD j 0#64))

/-- R125, R157, R159: the registers that show a program: fault registers cleared, PC, LEVEL and STATE. -/
def State.programRegs (s : State) (u entry level : Nat) : State :=
  let s := ((s.setReg rCO_FAULT u 0 0#64).setReg rCO_FAULT_PC u 0 0#64).setReg rCO_FAULT_ADDR u 0 0#64
  ((s.setPc u entry).put fCO_CORE_STATUS_LEVEL u 0 level).put fCO_CORE_STATUS_STATE u 0 1

/-- R26: the level counts as in use in the lodging. -/
def State.levelUsed (s : State) (c level : Nat) : State :=
  match s.ownerOf c with
  | some l => s.putBit fGL_LODGING_CFG_LEVELS 0 l (level - 1) true
  | none => s

/-- The stream, waybill and launch a program belongs to (R180). -/
def State.programOf (s : State) (u : Nat) (x : CoreStart) : State :=
  let way := ((s.sq.launches.find? (fun y => y.id == x.launch)).map (fun y => y.waybill)).getD 0
  let id := ((s.sq.launches.find? (fun y => y.id == x.launch)).map (fun y => y.stream)).getD 0
  { s with core := { s.core with waybill := nput s.core.waybill u way, stream := nput s.core.stream u id,
                                 group := nput s.core.group u x.launch } }

/-- R125, R178: a program starts. -/
def State.startProgram (s : State) (u : Nat) (x : CoreStart) : State :=
  let s := { s with core := { s.core with starts := s.core.starts.erase x } }
  ((((s.loadArgs u x.args).programRegs u x.entry x.level).programOf u x).levelUsed x.c x.level).clearWait u

/-- The program of a core ended or faulted, and nothing holds the core back. -/
def State.coreReady (s : State) (c l : Nat) : Bool :=
  let u := 28 * c + s.slotOf c l
  let st := s.fld fCO_CORE_STATUS_STATE u
  s.slotOf c l != 31 && (st == 0 || st == 4) && !s.slotHeld u && !s.coreHalted u && !s.clockStopped c &&
    !s.integ.takeovers.any (fun t => t.c == c && t.l == l)

def execCoreProgramStart (c l : Nat) (s : State) : Outcome :=
  match s.core.starts.find? (fun x => x.c == c && x.l == l) with
  | none => .next s
  | some x => s.guard (s.coreReady c l) (fun s => s.startProgram (28 * c + s.slotOf c l) x)

/-- R154, R207, R208, R214: what a stopped transfer of a record makes of its stream; the records of a dispatch-list DMA name
the list. A transfer reads and writes through no local port. -/
def State.dmaStop (t : State) (x : Iss) (list : Nat) : DErr → Option State
  | .fault e _ => some (t.recFault x 0x4001 (if e = 0x4104 ∧ list ≠ 0 then leBytes 8 list else []))
  | .resp _ => some (t.recFault x 0x4009)
  | .loc _ => some (t.recFault x 0x4009)
  | .list a => some (t.recFault x 0x400D (leBytes 8 a))
  | .header _ => some (t.recFault x 0x4004)
  | .held => none

/-- The signal a DMA record asks for (SIG, bit 63). -/
def dmaSig (x : Iss) : Option (Nat × Nat) :=
  if (x.w 6).testBit 63 then some (semName (x.w 6), semAmount (x.w 6)) else none

/-- R154: the transfer a DMA record asks for. -/
def recJob (x : Iss) (blk : List (BitVec 8)) : DmaJob :=
  { rq := .seqDma x.c x.org, sub := x.bits 0 0 4, a := x.w 2, y := x.w 3, b := x.w 4,
    list := leNat ((blk.drop 64).take 8), d := wordsOf 8 blk }

/-- The addresses a unit of a transfer without a list names, beyond its two bases: those of its runs. -/
def DmaJob.runsOf (j : DmaJob) (i : Nat) : List Int :=
  match j.sub with
  | 0 => [j.point j.a i, (j.y : Int) + (i * j.len : Nat)]
  | 1 => [(j.a : Int) + (i * j.len : Nat), j.point j.y i]
  | 5 => [j.point j.y i]
  | _ => (List.range 32).map (fun r => j.point j.a (32 * i + r))

/-- R208, R209: the runs that the entries of a dispatch list name, in order, and what ends them early. -/
def State.listedRuns (j : DmaJob) (h : List Nat) : Nat → Nat → State → (List (Int × Int) × Option DErr) × State
  | 0, _, s => (([], none), s)
  | n + 1, i, s => match State.entryIx j (h.getD 0 0) (h.getD 1 0) s i with
    | (.error e, t) => (([], some e), t)
    | (.ok ix, t) =>
      let r := State.listedRuns j h n (i + 1) t
      ((j.listedRun i ix :: r.1.1, r.1.2), r.2)

/-- R174, R209: a listed transfer of a record: the addresses of all its runs are looked at before any run is performed. -/
def State.listedTransfer (s : State) (j : DmaJob) (h : List Nat) : DRes :=
  let r := State.listedRuns j h (j.units h) 0 s
  match r.1.1.find? (fun p => !formOk p.1 j.len || !formOk p.2 j.len) with
  | some p => (some (.fault 0x4103 (addrNat p.1)), r.2)
  | none => match runAll (fun s (p : Int × Int) => s.moveRun j.rq j.len p.1 p.2) r.2 r.1.1 with
    | (none, t) => (r.1.2, t)
    | x => x

/-- R174: a transfer of a record, once its header has been read: nothing of it is performed where an address has neither of
the two forms. -/
def State.recTransfer (s : State) (j : DmaJob) (op : Nat) (h : List Nat) : DRes :=
  if j.listed then s.listedTransfer j h
  else match ((List.range (j.units h)).flatMap j.runsOf).find? (fun p => !formOk p j.len) with
    | some p => (some (.fault 0x4103 (addrNat p)), s)
    | none => runAll (State.dmaUnit j op h) s (List.range (j.units h))

/-- R146, R173: a transfer performed whole: its writes await their acknowledgement; one without runs completes at once. -/
def State.transferDone (s : State) (x : Iss) (j : DmaJob) (units : Nat) : State :=
  let n := s.sq.nextLaunch
  let t := (s.addLaunch x.c x.id x.way 0x03 [] (dmaSig x)).goto x (x.pos + 64)
  if units = 0 then t.forEach (t.sq.launches.filter (fun l => l.id == n)) (fun l t => t.launchDone l)
  else t.awaitAck (.seqDma x.c x.org) n x.pos (min (t.tableFree (.seqDma x.c)) (units * ((j.len + 63) / 64)))

/-- R154, R207, R208: a transfer of the sequencer's engine. -/
def State.seqTransfer (s : State) (x : Iss) (j : DmaJob) : Option State :=
  let list := if j.listed then j.list else 0
  match dmaCheck j with
  | some f => s.dmaStop x list (.fault f.1 f.2)
  | none =>
    if walkCount j.d = 0 then some (s.transferDone x j 0)
    else match s.dmaHeader j with
      | (.error e, t) => t.dmaStop x list e
      | (.ok h, t) => match t.recTransfer j t.sq.nextLaunch h with
        | (some e, t) => t.dmaStop x list e
        | (none, t) => some (t.transferDone x j (j.units h))

/-- R161: transfers queued or under way in a sequencer's DMA engine. -/
def State.dmaQueue (s : State) (c : Nat) : Nat := (s.sq.launches.filter (fun l => l.c == c && l.opc == 0x03)).length

/-- R161, R174, R207: a DMA record. -/
def State.dmaRec (x : Iss) (s : State) : Option State :=
  let sub := x.bits 0 0 4
  let da := x.bits 5 0 40
  let n := if sub = 6 ∨ sub = 7 then 128 else 64
  if 7 < sub ∨ da % 64 ≠ 0 ∨ (sub ≠ 5 ∧ 2 ≤ addrForm (x.w 2)) ∨ 2 ≤ addrForm (x.w 3) then some (s.recFault x 0x4001)
  else if 8 ≤ s.dmaQueue x.c ∨ s.tableFree (.seqDma x.c) = 0 then none
  else match s.readMem (.seqFetch x.c x.org) da n with
    | (.held, _) => none
    | (.err _, t) => some (t.recFault x 0x4004)
    | (.ok blk, t) =>
      if !descOk (wordsOf 8 blk) || leNat (blk.drop 72) != 0 then some (t.recFault x 0x4001)
      else t.seqTransfer x (recJob x blk)

def execDma (c i : Nat) (s : State) : Outcome := s.issueRec c i (fun k => k == 0x03) State.dmaRec

/-- R102: SEM_SIGNAL. -/
def State.semSignalRec (x : Iss) (s : State) : State :=
  (s.sendSignal (semName (x.w 2)) (semAmount (x.w 2)) x.way (unitSeq x.c) (s.streamLodging x.id) x.id
    x.opc).recDone x

def execSemSignal (c i : Nat) (s : State) : Outcome := s.issueNow c i 0x04 State.semSignalRec

/-- R100, R101: SEM_WAIT; an amount of 0 completes at once. -/
def State.semWaitRec (x : Iss) (s : State) : State :=
  let w := x.w 2
  if semAmount w = 0 then s.recDone x
  else
    let m : SemWait := { sem := semName w, seq := true, who := slotKey x.c x.i, amount := semAmount w }
    { s with net := { s.net with waitMsgs := s.net.waitMsgs ++ [m] } }.block x 1
      (objName 0 (semName w / 256) (semName w % 256)) (semAmount w) true []

def execSemWait (c i : Nat) (s : State) : Outcome := s.issueNow c i 0x05 State.semWaitRec

/-- A flag name of a record: cluster and index. -/
def Iss.flag (x : Iss) : Nat × Nat := (x.bits 2 8 6, x.bits 2 16 12)

/-- R182: a flag command of a lodging that does not own the flag's cluster. -/
def State.flagBad (s : State) (x : Iss) : State :=
  (s.flagRefuse (unitSeq x.c) (s.streamLodging x.id) x.flag.1 x.flag.2 x.way x.id).recFault x 0x4009

/-- R182: FLAG_SET. -/
def State.flagSetRec (x : Iss) (s : State) : State :=
  if x.bits 0 0 2 = 3 then s.recFault x 0x4001
  else if !s.owns (s.streamLodging x.id) x.flag.1 then s.flagBad x
  else (s.flagOp x.flag.1 x.flag.2 (x.bits 0 0 2) (x.bits 3 0 32) x.way).recDone x

def execFlagSet (c i : Nat) (s : State) : Outcome := s.issueNow c i 0x06 State.flagSetRec

/-- R182: FLAG_WAIT: the comparison is made at once, and again at every change. -/
def State.flagWaitRec (x : Iss) (s : State) : State :=
  if x.bits 0 0 2 = 3 then s.recFault x 0x4001
  else if !s.owns (s.streamLodging x.id) x.flag.1 then s.flagBad x
  else if flagHolds (x.bits 0 0 2) (s.fld fCL_FLAG_VALUE x.flag.1 x.flag.2) (x.bits 3 0 32) then s.recDone x
  else s.block x 2 (objName 1 x.flag.1 x.flag.2) (x.bits 3 0 32) true []

def execFlagWait (c i : Nat) (s : State) : Outcome := s.issueNow c i 0x07 State.flagWaitRec

/-- R340, R346, R347: the notices whose windows are open; none while SHED_N is low. The rise limit in force is the largest
of their slopes while they hold, else RISE of PW_SLOPE. -/
def State.openNotices (s : State) : List Notice :=
  if !s.pins.shedN then [] else s.pw.notices.filter (fun n => decide (n.start ≤ s.now) && decide (s.now < n.stop))

/-- R346, R347: whether the rise since the windows opened is still below what the open notices announce together. -/
def State.noticeHolds (s : State) : Bool :=
  let ns := s.openNotices
  let p := s.fld fPW_STATUS_P
  let base := ns.foldl (fun a n => min a (n.base.getD p)) p
  decide (p < base + ns.foldl (fun a n => a + n.rise) 0)

def State.riseNow (s : State) : Nat :=
  if s.noticeHolds then s.openNotices.foldl (fun a n => max a n.slope) 0 else max 1 (min 1000 (s.fld fPW_SLOPE_RISE))

/-- R348: the interval of waves in site-time counts: CLUSTER_RAMP over the rise limit, in steps of 100 ns. With a rise
limit of 0 the spec states none, and it is free (log 9). -/
def State.waveInterval (s : State) : Nat × State :=
  if s.riseNow = 0 then
    let (k, s) := s.draw
    ((Config.free64 k).toNat, s)
  else (25 * ((10 * s.fld fPW_CFG_CLUSTER_RAMP + s.riseNow - 1) / s.riseNow), s)

/-- R348: the clusters in which streams wait for a generation, in ascending order. -/
def State.waveClusters (s : State) (b g : Nat) : List Nat :=
  (List.range 48).filter (fun c => s.sq.barrierWait.any (fun w => w.1 == b && w.2.2 == g && w.2.1 / 16 == c))

/-- R184, R348: a generation completes: the count returns to 0, and one wave for each cluster falls due. -/
def State.generationDone (s : State) (b : Nat) : State :=
  let g := s.fld fGL_BARRIER_GENERATION 0 b
  let (gap, s) := s.waveInterval
  let cs := s.waveClusters b g
  let ws := cs.mapIdx (fun k c => (b, g, c, s.now + k * gap))
  let s := { s with sq := { s.sq with waves := s.sq.waves ++ ws } }
  (s.put fGL_BARRIER_COUNT 0 b 0).put fGL_BARRIER_GENERATION 0 b (g + 1)

/-- R184: an arrival counted. -/
def State.arrive (s : State) (x : Iss) (b n : Nat) : State :=
  let g := s.fld fGL_BARRIER_GENERATION 0 b
  let s := { s with sq := { s.sq with barrierWait := s.sq.barrierWait ++ [(b, slotKey x.c x.i, g)] } }
  let s := (s.put fGL_BARRIER_EXPECTED 0 b n).wrap fGL_BARRIER_COUNT 0 b 1
  let s := s.block x 3 (objName 2 63 b) n true []
  if n ≤ s.fld fGL_BARRIER_COUNT 0 b then s.generationDone b else s

/-- R184: BARRIER. -/
def State.barrierRec (x : Iss) (s : State) : State :=
  let b := x.bits 2 0 6
  let n := x.bits 2 32 16
  if n = 0 then s.recDone x
  else if !s.ownsBarrier (s.streamLodging x.id) b then s.recFault x 0x4009
  else if s.fld fGL_BARRIER_COUNT 0 b ≠ 0 ∧ s.fld fGL_BARRIER_EXPECTED 0 b ≠ n then s.recFault x 0x4007
  else s.arrive x b n

def execBarrier (c i : Nat) (s : State) : Outcome := s.issueNow c i 0x08 State.barrierRec

/-- R348: a wave released: the waiting streams of one cluster; a wave that was held delays those behind it. -/
def State.releaseWave (s : State) (b g c t : Nat) : State :=
  let late := s.now - t
  let keys := (s.sq.barrierWait.filter (fun w => w.1 == b && w.2.2 == g && w.2.1 / 16 == c)).map (fun w => w.2.1)
  let shift := fun (w : Nat × Nat × Nat × Nat) => if w.1 = b ∧ w.2.1 = g then (b, g, w.2.2.1, w.2.2.2 + late) else w
  let sq := { s.sq with barrierWait := s.sq.barrierWait.filter (fun w => !(w.1 == b && w.2.2 == g && w.2.1 / 16 == c)),
                        waves := (s.sq.waves.erase (b, g, c, t)).map shift }
  { s with sq := sq }.forEach keys (fun k s => s.waitMet (k / 16) (k % 16))

/-- R348: the next wave of barrier b, held while SHED_N is low or its cluster is stopped for heat. -/
def execBarrierWaveRelease (b : Nat) (s : State) : Outcome :=
  match s.sq.waves.find? (fun w => w.1 == b) with
  | none => .next s
  | some w => s.guard (decide (w.2.2.2 ≤ s.now) && s.pins.shedN && nget s.pw.thermStop w.2.2.1 == 0)
      (fun s => s.releaseWave b w.2.1 w.2.2.1 w.2.2.2)

/-- R188: WAIT_TIME. -/
def State.waitTimeRec (x : Iss) (s : State) : State :=
  let t := if (x.w 0).testBit 0 then nget s.sq.releaseAt x.id + x.w 2 else x.w 2
  if t ≤ s.regionNow x.c then s.recDone x else s.block x 4 (objName 5 x.c 0) t false []

def execWaitTime (c i : Nat) (s : State) : Outcome := s.issueNow c i 0x09 State.waitTimeRec

/-- R177, R186: REDUCE_Q. -/
def State.reduceQRec (x : Iss) (s : State) : State :=
  if 4 < x.bits 0 8 3 then s.recFault x 0x4001
  else match s.gangOf x.c (x.bits 2 0 24) ((x.w 0).testBit 24) with
    | none => s.recFault x 0x4005
    | some ls => (s.block x 5 (objName 3 x.c (x.bits 0 4 4)) ls.length true ls).reduceCheck x.c (x.bits 0 4 4)

def execReduceQ (c i : Nat) (s : State) : Outcome := s.issueNow c i 0x0A State.reduceQRec

/-- R187: the target of a BRANCH. -/
def branchTarget (x : Iss) : Int := (x.pos : Int) + 64 * signed 32 (x.bits 3 0 32)

/-- R187: a taken BRANCH: its target must be a record that translation reaches. -/
def State.branchTo (s : State) (x : Iss) : Option State :=
  let t := branchTarget x
  if t < 0 ∨ (2 ^ 40 : Nat) ≤ t then some (s.recFault x 0x4004)
  else match s.readMem (.seqFetch x.c x.org) t.toNat 64 with
    | (.held, _) => none
    | (.err _, u) => some (u.recFault x 0x4004)
    | (.ok _, u) => some ((((u.trace x.c 7 x.way 0 x.id x.opc t.toNat).recDone x).goto x t.toNat).dropAhead x.c x.i)

/-- R187: BRANCH. -/
def State.branchRec (x : Iss) (s : State) : Option State :=
  let qa := x.bits 0 0 4
  let cond := x.bits 0 8 4
  let a := if (x.w 0).testBit 13 then s.reg rSQ_Q x.c qa - 1#64 else s.reg rSQ_Q x.c qa
  if 12 ≤ cond then some (s.recFault x 0x4001)
  else
    let t := s.setReg rSQ_Q x.c qa a
    let b := if (x.w 0).testBit 12 then BitVec.ofNat 64 (x.w 2) else t.reg rSQ_Q x.c (x.bits 0 4 4)
    if condScalar cond a b then t.branchTo x else some (t.recDone x)

def execBranch (c i : Nat) (s : State) : Outcome := s.issueRec c i (fun k => k == 0x0B) State.branchRec

/-- R190: CHECKPOINT_MARK. -/
def State.markRec (x : Iss) (s : State) : State :=
  let s := (s.put fGL_STREAM6_MICROBATCH 0 x.id (x.bits 2 0 32)).recDone x
  let s := { s with sq := { s.sq with ckptPos := nput s.sq.ckptPos x.id (x.pos + 64) } }
  if nget s.ck.phase (s.streamLodging x.id) = 1 then
    ({ s with sq := { s.sq with held := s.sq.held ++ [x.id] } }.put fSQ_SLOT_WAIT x.c x.i 7).trace x.c 4 x.way 0 x.id x.opc 0
  else s

def execCheckpointMark (c i : Nat) (s : State) : Outcome := s.issueNow c i 0x0D State.markRec

/-- R173: END: the stream is DONE. -/
def State.endRec (x : Iss) (s : State) : State := (s.completed x.id x.way x.opc).endIfQuiet x.id 4

def execEndCmd (c i : Nat) (s : State) : Outcome := s.issueNow c i 0x0F State.endRec

/-- R183: CL_FLAG_WRITE. -/
def State.flagWrite (s : State) (rq : Rq) (op c k v : Nat) : Outcome :=
  .next (s.csAct rq (clAddr c 0x1808) (fun s => s.flagOp c (k % 4096) op (v % 2 ^ 32) 0))

def execFlagWriteSet (rq : Rq) (c k v : Nat) (s : State) : Outcome := s.flagWrite rq 0 c k v

def execFlagWriteAdd (rq : Rq) (c k v : Nat) (s : State) : Outcome := s.flagWrite rq 1 c k v

def execFlagWriteMax (rq : Rq) (c k v : Nat) (s : State) : Outcome := s.flagWrite rq 2 c k v

end Sys2Proof.Machine
end

