-- ==== Sys2Proof/Machine/Routing.lean ====
section
/-! DEFINITION. The router unit (07_conditional_computation.md R196-R206, R214, R215) and the arrival of responses and
acknowledgements at their requesters (08_on_die_network.md R222). -/

namespace Sys2Proof.Machine

/-- Fields of a routing job descriptor (Table 7.1). -/
structure Desc where
  words : List Word
  deriving DecidableEq, Repr

def Desc.w (d : Desc) (k : Nat) : Nat := recWord d.words k
def Desc.experts (d : Desc) : Nat := fieldOf 32 8 (d.w 5) + 1
def Desc.k (d : Desc) : Nat := fieldOf 45 3 (d.w 5) + 1
def Desc.tokens (d : Desc) : Nat := fieldOf 0 17 (d.w 5)
def Desc.pitch (d : Desc) : Nat := fieldOf 48 16 (d.w 5)
def Desc.wmode (d : Desc) : Nat := fieldOf 40 2 (d.w 5)
def Desc.fmt (d : Desc) : Nat := fieldOf 32 4 (d.w 6)
def Desc.cap (d : Desc) : Nat := fieldOf 48 16 (d.w 6)
def Desc.way (d : Desc) : Nat := fieldOf 0 32 (d.w 6)
/-- R214: the command of a job. -/
def Desc.org (d : Desc) : Option Origin := some ⟨d.way, 0, 0⟩

def Desc.list (d : Desc) : Nat := d.w 1
def Desc.size (d : Desc) : Nat := fmtBits d.fmt / 8

/-- R202, R203: the signal of a job, when it is enabled and its word well formed. -/
def Desc.sig (d : Desc) : Option (Nat × Nat) :=
  let w := fieldOf 0 48 (d.w 7)
  if (d.w 7).testBit 63 && semWordOk w then some (semName w, semAmount w) else none

/-- R196: a descriptor that keeps Table 7.1. A semaphore word that is not well formed only suppresses the signal. -/
def Desc.ok (d : Desc) : Bool :=
  let at64 := fun (a : Nat) => a % 64 == 0 && decide (addrForm a < 2)
  (d.fmt == 0x9 || d.fmt == 0x7 || d.fmt == 0x8) && fieldOf 42 3 (d.w 5) == 0 && fieldOf 17 15 (d.w 5) == 0 &&
    fieldOf 36 12 (d.w 6) == 0 && fieldOf 48 15 (d.w 7) == 0 && decide (d.tokens ≤ 65536) &&
    decide (d.tokens * d.k ≤ 65536) && decide (d.experts * d.size ≤ d.pitch) && d.pitch % d.size == 0 &&
    decide (addrForm (d.w 0) < 2) && at64 (d.w 1) && at64 (d.w 2) && at64 (d.w 3) && (d.w 4 == 0 || at64 (d.w 4))

/-- exp(x) in units of 2^-400, for x of at most 64: 2^(x log2 e), with log2 e in units of 2^-96; 0 below 2^-500. -/
def expFix (x : Val) : Nat :=
  let y : Int := toFix96 x * (114302077158074026402637675936 : Nat) / (2 ^ 96 : Nat)
  if y < -(500 * 2 ^ 96 : Nat) then 0
  else match exp2Val y with
    | .fin _ p q => (unitsOf p q (-400)).1
    | _ => 0

/-- The logistic function in units of 2^-400. -/
def sigmaFix (x : Val) : Nat :=
  let t := toFix96 x
  if t ≤ -(64 * 2 ^ 96 : Nat) then expFix x
  else if (64 * 2 ^ 96 : Nat) ≤ t then 2 ^ 400
  else (2 ^ 800) / (2 ^ 400 + expFix x.negate)

/-- R198: an exact weight as binary32, and a weight within 4 units in the last place of it, as `key` fixes it. -/
def nearWeight (key : List Nat) (t r n total : Nat) : BitVec 32 :=
  BitVec.ofNat 32 (withinUlp 4 (Config.freeWeight key t r).toNat (.fin false ((n <<< 400) / total) (-400)))

/-- The largest of some values; NaN counts as minus infinity. -/
def largest (xs : List Val) : Val := xs.foldl (fun a x => if x.isNan then a else if a.lt x then x else a) (.inf true)

/-- R198: the weights of the selected logits `sel`, in rank order; `all` are the logits of every expert. Where the
largest logit of the token is plus infinity and was not selected, WMODE 2 states no weight, and it is free. -/
def weightsOf (key : List Nat) (t mode : Nat) (sel all : List Val) : List (BitVec 32) :=
  let go := fun (f : Val → Nat) (total : Nat) => sel.mapIdx (fun r x => nearWeight key t r (f x) total)
  let rel := fun (m x : Val) => expFix (x.add m.negate)
  if mode = 0 then sel.map (fun x => toF32 x)
  else if sel.any Val.isInf then sel.map (fun _ => canonNan)
  else if mode = 1 then
    let m := largest sel
    go (rel m) ((sel.map (rel m)).foldl (fun a b => a + b) 0)
  else if mode = 2 then
    let m := largest all
    if m.isInf then sel.mapIdx (fun r _ => Config.freeWeight key t r)
    else go (rel m) ((all.map (fun x => if x.isFin then rel m x else 0)).foldl (fun a b => a + b) 0)
  else
    let m := largest sel
    if toFix96 m ≤ -(64 * 2 ^ 96 : Nat) then go (rel m) ((sel.map (rel m)).foldl (fun a b => a + b) 0)
    else go sigmaFix ((sel.map sigmaFix).foldl (fun a b => a + b) 0)

/-- R197: an expert placed in a list kept by descending score, ties by ascending index. -/
def placeScore (e : Nat) (v : Val) : List (Nat × Val) → List (Nat × Val)
  | [] => [(e, v)]
  | (f, w) :: l => if w.lt v then (e, v) :: (f, w) :: l else (f, w) :: placeScore e v l

/-- R197: the experts of a token in rank order: the k eligible ones of largest score. -/
def selectExperts (k : Nat) (scores : List Val) : List Nat :=
  let es := (scores.mapIdx (fun e v => (e, v))).filter (fun p => !p.2.isNan && !(p.2.isInf && p.2.neg))
  ((es.foldl (fun l p => placeScore p.1 p.2 l) []).take k).map (fun p => p.1)

/-- A token's outcome of pass 1: its experts and weights in rank order, and whether its weights are NaN (R198). -/
structure Routed where
  experts : List Nat
  weights : List (BitVec 32)
  bad : Bool
  deriving DecidableEq, Repr

/-- R197, R198: one token routed from its logit codes. -/
def routeToken (d : Desc) (bias : List (BitVec 32)) (t : Nat) (codes : List Nat) : Routed :=
  let xs := codes.map (fun c => decodeElt d.fmt c)
  let scores := xs.mapIdx (fun e x => valF32 (fadd (toF32 x) (bias.getD e 0#32)).1)
  let es := selectExperts d.k scores
  let sel := es.map (fun e => xs.getD e .nan)
  let key := d.words.map BitVec.toNat ++ bias.map BitVec.toNat ++ codes
  { experts := es, weights := weightsOf key t d.wmode sel xs, bad := d.wmode != 0 && sel.any Val.isInf }

/-- R196: the biases of a job; none with BIAS 0. -/
def State.readBias (s : State) (c : Nat) (d : Desc) : Got (List (BitVec 32)) × State :=
  if d.w 4 = 0 then (.ok [], s)
  else match s.readMem (.router c d.org) (d.w 4) (4 * d.experts) with
    | (.ok bs, t) => (.ok ((List.range d.experts).map (fun e => BitVec.ofNat 32 (leNat ((bs.drop (4 * e)).take 4)))), t)
    | (.err e, t) => (.err e, t)
    | (.held, t) => (.held, t)

/-- A pair: expert, token, rank, weight. -/
structure Pair where
  expert : Nat
  token : Nat
  rank : Nat
  weight : BitVec 32
  deriving DecidableEq, Repr

/-- The pairs of a job in token order, then in rank order. -/
def pairsOf (rs : List Routed) : List Pair :=
  (rs.mapIdx (fun t r => r.experts.mapIdx (fun k e => (⟨e, t, k, r.weights.getD k 0#32⟩ : Pair)))).flatten

/-- R199: the pairs of an expert that get an entry, in token order. -/
def kept (d : Desc) (ps : List Pair) (e : Nat) : List Pair :=
  let l := ps.filter (fun p => p.expert == e)
  if d.cap = 0 then l else l.take d.cap

/-- Table 7.3. -/
def entryWord (p : Pair) : Nat := p.rank <<< 56 + p.expert <<< 48 + p.token <<< 32 + p.weight.toNat

/-- R206: a token's share of the combine-weight array: +0 where it has no pair of a rank. -/
def Routed.bytes (d : Desc) (r : Routed) : List (BitVec 8) :=
  (List.range d.k).flatMap (fun k => if k < r.experts.length then leBytes 4 (r.weights.getD k 0#32).toNat else leBytes 4 0)

/-- R205: the index of each expert's first entry. -/
def startsOf (counts : List Nat) : List Nat := (List.range 256).map (fun e => (counts.take e).foldl (fun a b => a + b) 0)

/-- R205, Table 7.2: the header after STATUS. -/
def headerBytes (d : Desc) (rs : List Routed) (ps : List Pair) (counts : List Nat) : List (BitVec 8) :=
  let total := (rs.map (fun r => r.experts.length)).foldl (fun a b => a + b) 0
  leBytes 4 ps.length ++ leBytes 4 (total - ps.length) ++
    leBytes 4 (rs.filter (fun r => decide (r.experts.length < d.k))).length ++ leBytes 4 d.tokens ++
    leBytes 2 d.experts ++ leBytes 1 d.k ++ leBytes 1 d.wmode ++ leBytes 4 d.way ++
    leBytes 4 (rs.filter (fun r => r.bad)).length ++ leBytes 32 0 ++ counts.flatMap (leBytes 4) ++ (startsOf counts).flatMap (leBytes 4)

/-- The writes of a job's passes in order, until one is refused or held. -/
def State.routeWrites (c : Nat) (d : Desc) : State → List (Nat × List (BitVec 8)) → Got Unit × State
  | s, [] => (.ok (), s)
  | s, (a, bs) :: l =>
    match s.writeAll (.router c d.org) a bs with
    | (.ok _, t) => State.routeWrites c d t l
    | r => r

/-- The address of a token's share of the combine-weight array, and of the work area. -/
def Desc.weightAt (d : Desc) (t : Nat) : Nat := d.w 2 + 4 * d.k * t
def Desc.scratchAt (d : Desc) (t : Nat) : Nat := d.w 3 + 4 * d.k * t

/-- R199, pass 1: token by token, a row of logits is read and routed, and its weights and its pairs are written; the bytes that
stand for pairs in SCRATCH are not specified (log 9). None where the two computations of token `bad` differ, before anything of
that token is written (R204). The first argument bounds the tokens. -/
def State.passOne (c : Nat) (d : Desc) (bias : List (BitVec 32)) (key : Nat) (bad : Option Nat) :
    Nat → Nat → State → Got (Option (List Routed)) × State
  | 0, _, s => (.ok (some []), s)
  | n + 1, t, s =>
    match s.readMem (.router c d.org) (d.w 0 + t * d.pitch) (d.experts * d.size) with
    | (.held, u) => (.held, u)
    | (.err e, u) => (.err e, u)
    | (.ok bs, u) =>
      let codes := (List.range d.experts).map (fun e => leNat ((bs.drop (e * d.size)).take d.size))
      let r := routeToken d bias t codes
      let pairs := (List.range (4 * d.k)).map (fun i => Config.freeByte key (4 * d.k * t + i))
      if bad = some t then (.ok none, u)
      else match State.routeWrites c d u [(d.weightAt t, r.bytes d), (d.scratchAt t, pairs)] with
        | (.held, u) => (.held, u)
        | (.err e, u) => (.err e, u)
        | (.ok _, u) => match State.passOne c d bias key bad n (t + 1) u with
          | (.ok l, u) => (.ok (l.map (fun l => r :: l)), u)
          | x => x

/-- R199, pass 2: the writes of a token: an entry for each of its pairs, or +0 in place of the weight of a pair that is dropped.
`filled` counts the pairs of each expert so far. -/
def pairWrites (d : Desc) (starts filled : List Nat) (t : Nat) (r : Routed) : List (Nat × List (BitVec 8)) :=
  r.experts.mapIdx (fun k e =>
    let n := filled.getD e 0
    if d.cap ≠ 0 ∧ d.cap ≤ n then (d.weightAt t + 4 * k, leBytes 4 0)
    else (d.list + 2112 + 8 * (starts.getD e 0 + n), leBytes 8 (entryWord ⟨e, t, k, r.weights.getD k 0#32⟩)))

/-- R199, pass 2: SCRATCH is read in token order. -/
def State.passTwo (c : Nat) (d : Desc) (starts : List Nat) : State → List (Nat × Routed) → List Nat → Got Unit × State
  | s, [], _ => (.ok (), s)
  | s, (t, r) :: l, filled =>
    match s.readMem (.router c d.org) (d.scratchAt t) (4 * d.k) with
    | (.held, u) => (.held, u)
    | (.err e, u) => (.err e, u)
    | (.ok _, u) => match State.routeWrites c d u (pairWrites d starts filled t r) with
      | (.ok _, u) => State.passTwo c d starts u l (filled.mapIdx (fun e n => if r.experts.contains e then n + 1 else n))
      | x => x

/-- R199, R200: the passes of a job: the header it will write and its pairs; none where a comparison stops it. -/
def State.routePasses (s : State) (c : Nat) (d : Desc) (bad : Option Nat) : Got (Option (List (BitVec 8) × Nat)) × State :=
  match s.writeAll (.router c d.org) d.list (leBytes 4 0) with
  | (.held, t) => (.held, t)
  | (.err e, t) => (.err e, t)
  | (.ok _, t) => match t.readBias c d with
    | (.held, t) => (.held, t)
    | (.err e, t) => (.err e, t)
    | (.ok bias, t) =>
      let (key, t) := t.draw
      match State.passOne c d bias key bad d.tokens 0 t with
      | (.held, t) => (.held, t)
      | (.err e, t) => (.err e, t)
      | (.ok none, t) => (.ok none, t)
      | (.ok (some rs), t) =>
        let ps := (List.range 256).flatMap (kept d (pairsOf rs))
        let counts := (List.range 256).map (fun e => (kept d (pairsOf rs) e).length)
        match State.passTwo c d (startsOf counts) t (rs.mapIdx (fun t r => (t, r))) (List.replicate 256 0) with
        | (.ok _, t) => (.ok (some (headerBytes d rs ps counts, ps.length)), t)
        | (.err e, t) => (.err e, t)
        | (.held, t) => (.held, t)

/-- R214: a routing event. -/
def State.routeEvent (s : State) (c e outcome way addr : Nat) : State :=
  s.record { event := e, unit := unitRouterUnit c, outcome := outcome, waybill := way, detail := leBytes 8 addr }

/-- R214: the waybill of a job that is refused at its submission: its descriptor is read for it (DEDUCED, log 51), and where that
cannot be, the record carries none. -/
def State.submitWay (s : State) (c desc : Nat) : Nat × State :=
  match s.readMem (.router c) desc 64 with
  | (.ok bs, t) => (Desc.way ⟨wordsOf 8 bs⟩, t)
  | _ => (0, s)

/-- R203, R204: a submission refused. -/
def State.submitRefused (s : State) (rq : Rq) (c desc e : Nat) : State :=
  let x := s.submitWay c desc
  (x.2.routeEvent c e 4 x.1 desc).emit .errorResponse rq.unit e [desc]

/-- R203: a submission. -/
def State.submitJob (s : State) (rq : Rq) (c desc : Nat) : State :=
  if s.is fCL_ROUTE_STATUS_FENCED c then s.submitRefused rq c desc 0x4304
  else if 4 ≤ s.fld fCL_ROUTE_STATUS_QUEUED c then (s.stick fCL_ROUTE_STATUS_QUEUE_FULL c).submitRefused rq c desc 0x4301
  else { s with rt := { s.rt with queue := s.rt.queue ++ [(c, desc)] } }.wrap fCL_ROUTE_STATUS_QUEUED c 0 1

def execRouteSubmit (rq : Rq) (c desc : Nat) (s : State) : Outcome :=
  .next (s.csAct rq (clAddr c 0x3000) (fun s => s.submitJob rq c (desc % 2 ^ 48)))

/-- R215: a job ends: result 1 done, 2 failed, 3 refused. -/
def State.jobOver (s : State) (c way result pairs : Nat) : State :=
  let s := { s with rt := { s.rt with jobs := s.rt.jobs.filter (fun j => j.c != c) } }
  let s := ((s.put fCL_ROUTE_STATUS_BUSY c 0 0).put fCL_ROUTE_STATUS_QUEUED c 0 (s.fld fCL_ROUTE_STATUS_QUEUED c - 1)).wrap
    fCL_ROUTE_STATUS_COMPLETED c 0 1
  ((s.put fCL_ROUTE_LAST_WAYBILL c 0 way).put fCL_ROUTE_LAST_RESULT c 0 result).put fCL_ROUTE_LAST_PAIRS c 0 pairs

/-- The signal of a job sent. -/
def State.jobSignal (s : State) (c : Nat) (d : Desc) : State :=
  match d.sig with
  | some g => s.sendSignal g.1 g.2 d.way (unitRouterUnit c) ((s.ownerOf c).getD 0xFF) 0
  | none => s

/-- R202, R204, R215: a job ends FAILED: STATUS 2 is written, and the signal is sent; none while that write is held. -/
def State.jobFailed (s : State) (c : Nat) (d : Desc) : Option State :=
  let closed := fun (t : State) => (t.jobSignal c d).jobOver c d.way 2 0
  match s.writeAll (.router c d.org) d.list (leBytes 4 2) with
  | (.held, _) => none
  | (.err _, t) => some (closed (t.stick fCL_ROUTE_STATUS_ERROR_RESP c))
  | (.ok _, t) => some (closed t)

/-- R202: an error response to a request of the router. -/
def State.jobError (s : State) (c : Nat) (d : Desc) : Option State :=
  ((s.stick fCL_ROUTE_STATUS_ERROR_RESP c).routeEvent c 0x4303 4 d.way d.list).jobFailed c d

/-- R203: a descriptor that is invalid or could not be read. -/
def State.jobRefused (s : State) (c desc : Nat) (d : Desc) : State :=
  (((s.stick fCL_ROUTE_STATUS_JOB_REFUSED c).routeEvent c 0x4302 4 d.way desc).jobSignal c d).jobOver c d.way 3 0

/-- R204: a second mismatch in a job: it ends FAILED and the router is fenced and listed (defect kind 10). -/
def State.routerFence (s : State) (c : Nat) (d : Desc) : Option State :=
  (((s.stick fCL_ROUTE_STATUS_CMP_FAIL c).routeEvent c 0x1007 3 d.way d.list).jobFailed c d).map (fun t =>
    ((t.put fCL_ROUTE_STATUS_FENCED c 0 1).addDefect 10 (unitRouterUnit c) 0).stormTick c)

/-- R204: a first mismatch in a job: it is recorded. -/
def State.routerMismatch (s : State) (c : Nat) (d : Desc) : State :=
  ((s.stick fCL_ROUTE_STATUS_CMP_FAIL c).routeEvent c 0x1007 2 d.way d.list).stormTick c

def State.putJob (s : State) (j : RouteJob) : State :=
  { s with rt := { s.rt with jobs := s.rt.jobs.filter (fun x => x.c != j.c) ++ [j] } }

/-- R199, R204: the passes of a job, which then awaits its end; none while an access is held. `bad` is the token whose two
computations differ. -/
def State.runJob (s : State) (c desc mism : Nat) (d : Desc) (bad : Option Nat) : Option State :=
  match s.routePasses c d bad with
  | (.held, _) => none
  | (.err _, t) => t.jobError c d
  | (.ok none, t) =>
    if mism = 0 then some ((t.routerMismatch c d).putJob ⟨c, desc, d.words, 1, [], 0, true⟩) else t.routerFence c d
  | (.ok (some r), t) => some (t.putJob ⟨c, desc, d.words, mism, r.1, r.2, false⟩)

/-- R203: the next job of a router taken from its queue. -/
def State.takeJob (s : State) (c desc : Nat) : State :=
  ({ s with rt := { s.rt with queue := s.rt.queue.erase (c, desc) } }).put fCL_ROUTE_STATUS_BUSY c 0 1

/-- R203: a job whose descriptor is read as it starts. -/
def State.startJob (s : State) (c desc : Nat) (bad : Option Nat) : Option State :=
  let s := s.takeJob c desc
  if desc % 64 ≠ 0 then some (s.jobRefused c desc ⟨[]⟩)
  else match s.readMem (.router c) desc 64 with
    | (.held, _) => none
    | (.err _, t) => some ((t.stick fCL_ROUTE_STATUS_ERROR_RESP c).jobRefused c desc ⟨[]⟩)
    | (.ok bs, t) =>
      let d : Desc := ⟨wordsOf 8 bs⟩
      if d.ok then t.runJob c desc 0 d bad else some (t.jobRefused c desc d)

/-- Whether the router of a cluster can work: not fenced, its cluster neither fenced nor under reset, its clock running. -/
def State.routerRuns (s : State) (c : Nat) : Bool :=
  !s.is fCL_ROUTE_STATUS_FENCED c && !s.clusterHeld c && !s.clockStopped c

/-- `bad` is the token whose two computations differ, if any do (R204). -/
def execRoutingJobStart (c : Nat) (bad : Option Nat) (s : State) : Outcome :=
  match s.rt.queue.find? (fun q => q.1 == c) with
  | none => .next s
  | some q => s.guard (!s.is fCL_ROUTE_STATUS_BUSY c && s.routerRuns c) (fun s => (s.startJob c q.2 bad).getD s)

/-- R199: the header is written, STATUS last, and the signal sent. -/
def State.jobDone (s : State) (j : RouteJob) : Option State :=
  let d : Desc := ⟨j.words⟩
  match State.routeWrites j.c d s [(d.list + 4, j.header), (d.list, leBytes 4 1)] with
  | (.held, _) => none
  | (.err _, t) => t.jobError j.c d
  | (.ok _, t) => some ((t.jobSignal j.c d).jobOver j.c d.way 1 j.pairs)

/-- R199, R204: the running job ends, or, after a mismatch, is replayed whole; `bad` as above, for the replay. -/
def execRoutingJobEnd (c : Nat) (bad : Option Nat) (s : State) : Outcome :=
  match s.rt.jobs.find? (fun j => j.c == c) with
  | none => .next s
  | some j => s.guard (s.routerRuns c) (fun s =>
      ((if j.redo then s.runJob c j.desc j.mism ⟨j.words⟩ bad else s.jobDone j).getD s))

/-- R222: an entry of a response table freed; a signal that waited for the acknowledgement waits for it no more (R102). -/
def State.freeResp (s : State) (id : Nat) : State :=
  { s with net := { s.net with resps := s.net.resps.filter (fun r => r.id != id) } }.sendAcked id

/-- R158, R179, R193: an error response that comes back to a write: the core or the stream faults. -/
def State.respError (s : State) (r : Resp) (addr : Nat) : State :=
  match r.rq with
  | .core u _ => s.coreFault u 0x4106 0 false (nget s.core.waybill u) (nget s.core.stream u) r.pc addr (nget s.core.group u)
  | .coreDma _ _ => match s.opAt r.op with
    | some o => s.opFault o 0x4106 addr
    | none => s
  | .seqDma _ _ => match s.sq.launches.find? (fun x => x.id == r.op) with
    | some x => if s.fld fGL_STREAM7_STATE 0 x.stream = 3 then s.streamFault x.stream 0x4009 x.waybill [] x.opc else s
    | none => s
  | _ => s

/-- R146, R222: some of the writes of an instruction are acknowledged. -/
def State.respOk (s : State) (r : Resp) : State :=
  match r.rq, s.opAt r.op with
  | .coreDma _ _, some o => s.setOp { o with writes := o.writes - 1 }
  | _, _ => s

/-- R222: a response or acknowledgement is consumed. -/
def State.respIn (s : State) (r : Resp) (error addr : Nat) : State :=
  let t := (s.freeResp r.id).respOk r
  let t := if error = 0 then t else t.respError r addr
  match r.rq with
  | .core u _ => t.fenceCheck u
  | .coreDma u _ => t.feed u
  | _ => t

/-- R220-R229: response number n on its way to its requester, as in `State.travel`. -/
def State.respTravel (s : State) (n : Nat) (r : Resp) : Nat × State :=
  match r.src with
  | none => (0, s)
  | some (d, inp) =>
    let e := s.entryOf r.rq d
    s.travel 3 n rankRSP d inp e.1 e.2.1 ((if inp = 5 then [82 + d] else []) ++ e.2.2)

/-- R229: a response that cannot reach its requester is discarded; its entry waits for the sweep (R234). -/
def State.respLost (s : State) (n : Nat) : State := s.putMsg 3 n (some ⟨63, 0, [], 2⟩)

/-- R222: response or acknowledgement `id` goes on its way, and arrives; `error` is the event of an error response, 0 for none,
and `addr` its address. -/
def execResponseArrival (id error addr : Nat) (s : State) : Outcome :=
  let n := s.net.resps.findIdx (fun r => r.id == id)
  match s.net.resps[n]? with
  | none => .next s
  | some r => .next (match s.respTravel n r with
    | (0, t) => t.respIn r error addr
    | (1, t) => t.respLost n
    | (_, t) => t)

end Sys2Proof.Machine
end

