-- ==== Sys2Proof/Machine/Network.lean ====
section
/-! DEFINITION. Commands of the on-die network (08_on_die_network.md R226-R251): link errors, spares, retraining and removal,
router fencing, switches of routing tables, the sweep, draining, ostler watchdogs, and in-network reduction. -/

namespace Sys2Proof.Machine

/-- R222, R156, R158, R179, R203: an error response reaches the requester of request `op` (a long instruction of a
core, a launch of a sequencer, a slot of its record fetch): it faults. -/
def State.rqFault (s : State) (rq : Rq) (op addr : Nat) : State :=
  match rq with
  | .core u _ => if s.fld fCO_CORE_STATUS_STATE u = 1 then s.progFault u 0x4106 addr else s
  | .fetch u => if s.fld fCO_CORE_STATUS_STATE u = 1 then s.progFault u 0x4105 addr else s
  | .coreDma _ _ => match s.opAt op with
    | some o => s.opFault o 0x4106 addr
    | none => s
  | .part _ _ _ => match s.opAt op with
    | some o => s.opFault o 0x4106 addr
    | none => s
  | .seqDma c _ => match s.sq.launches.find? (fun x => x.id == op && x.c == c) with
    | some x => if s.fld fGL_STREAM7_STATE 0 x.stream = 3 then s.streamFault x.stream 0x4009 x.waybill [] x.opc else s
    | none => s
  | .seqFetch c _ =>
    let id := s.fld fSQ_SLOT_STREAM c op
    if s.is fSQ_SLOT_VALID c op && s.fld fGL_STREAM7_STATE 0 id == 3 then s.streamFault id 0x4004 (s.currentWay id) [] (s.currentOpc id) else s
  | .router c _ => match s.rt.jobs.find? (fun j => j.c == c) with
    | some j => (s.jobError c ⟨j.words⟩).getD s
    | none => s
  | _ => s

/-- R180: a request `op` of a requester with the command it belongs to, where the machine's state tells it: the long
instruction, the launch, the slot of a record fetch, the running routing job. -/
def State.opRq (s : State) (rq : Rq) (op : Nat) : Rq :=
  match rq with
  | .coreDma u none => .coreDma u ((s.opAt op).bind (fun o => o.latch.org))
  | .part u k none => .part u k ((s.opAt op).bind (fun o => o.latch.org))
  | .seqDma c none => .seqDma c ((s.sq.launches.find? (fun x => x.id == op && x.c == c)).map
      (fun x => ⟨x.waybill, x.stream, 0⟩))
  | .seqFetch c none =>
    let id := s.fld fSQ_SLOT_STREAM c op
    .seqFetch c (some ⟨s.currentWay id, id, 0⟩)
  | .router c none => .router c ((s.rt.jobs.find? (fun j => j.c == c)).map (fun j => ⟨Desc.way ⟨j.words⟩, 0, 0⟩))
  | r => r

/-- R236: whether a link is in service: up, narrowed or retraining. -/
def State.inService (s : State) (i : Nat) : Bool := s.linkUp i

/-- R232: a link retrains; its flits wait. -/
def State.retrain (s : State) (i : Nat) : State :=
  s.when (s.inService i) (fun s => s.put fGL_TOPOLOGY_STATE 0 i 4)

/-- R229: a link can carry nothing until the next start; what is queued for it is stranded, and what comes to it waits for the
next switch. -/
def State.cutLink (s : State) (i st : Nat) : State :=
  ({ s with net := { s.net with cut := s.net.cut ++ [i] } }.put fGL_TOPOLOGY_STATE 0 i st).strand i

/-- R231, R232: a link removed, with event 0x3004. -/
def State.removeLink (s : State) (i : Nat) : State :=
  s.when (s.inService i) (fun s =>
    ((s.cutLink i 3).event 0x3004 (s.unitLink i)).stick fNW_STATUS_LINK_REMOVED)

/-- R219, R231: the lane groups of a flit lane, four of them; the spare, numbered behind the others, is one of those of the lane in
which it stands. -/
def State.laneOf (s : State) (i g : Nat) : Nat :=
  if g < 4 * s.fld fGL_TOPOLOGY_LANES_FULL 0 i then g / 4
  else ((s.net.retired.find? (fun k => k / 64 == i)).map (fun k => k % 64 / 4)).getD (g / 4)

/-- Lane groups out of service, with their charges forgotten. -/
def State.retireLanes (s : State) (i : Nat) (gs : List Nat) : State :=
  let ks := gs.map (fun g => 64 * i + g)
  { s with net := { s.net with retired := s.net.retired ++ ks, charges := s.net.charges.filter (fun p => !ks.contains p.1) } }

/-- R231: a lane group taken out of service: spared, or its flit lane retired, or the link removed. -/
def State.retireGroup (s : State) (i g : Nat) : State :=
  let now := s.fld fGL_TOPOLOGY_LANES_NOW 0 i
  if !s.is fGL_TOPOLOGY_SPARE_USED 0 i then
    ((((s.retireLanes i [g]).put fGL_TOPOLOGY_SPARE_USED 0 i 1).stick fNW_STATUS_LANE_SPARED).event 0x3002 (s.unitLink i)).retrain i
  else if 2 * (now - 1) < s.fld fGL_TOPOLOGY_LANES_FULL 0 i then (s.retireLanes i [g]).removeLink i
  else
    let lane := (List.range 64).filter (fun x => s.laneOf i x == s.laneOf i g)
    ((((s.retireLanes i lane).put fGL_TOPOLOGY_LANES_NOW 0 i (now - 1)).stick fNW_STATUS_LINK_NARROWED).event 0x3003
      (s.unitLink i)).retrain i

/-- R219: the lane groups of a link, with the spare once it is in use. -/
def State.laneGroup (s : State) (i g : Nat) : Bool :=
  decide (g < 4 * s.fld fGL_TOPOLOGY_LANES_FULL 0 i) ||
    (g == 4 * s.fld fGL_TOPOLOGY_LANES_FULL 0 i && s.is fGL_TOPOLOGY_SPARE_USED 0 i)

/-- R230: lane groups charged now; those that reach NW_LINK_THRESH within 1 ms are retired. -/
def State.chargeGroups (s : State) (i : Nat) (groups : List Nat) : State :=
  s.forEach (groups.filter (s.laneGroup i)) (fun g s =>
    let k := 64 * i + g
    if s.net.retired.contains k || !s.inService i then s
    else
      let l := s.net.charges.filter (fun p => p.1 != k || decide (s.now < p.2 + 250000)) ++ [(k, s.now)]
      let s := { s with net := { s.net with charges := l } }
      if (l.filter (fun p => p.1 == k)).length < s.fld fNW_LINK_THRESH_CHARGES then s else s.retireGroup i g)

/-- R230: a flit fails its CRC on a link. -/
def State.crcRetry (s : State) (i flit : Nat) (groups : List Nat) (again : Bool) : State :=
  let s := (s.sat fGL_TOPOLOGY_RETRIES 0 i 1).eventSummed 0x3001 (s.unitLink i) i (fun _ => [])
  let s := s.chargeGroups i groups
  let k := 2 ^ 20 * i + flit
  let n := if again then nget s.net.flitFails k + 1 else 1
  if 4 ≤ n then { s with net := { s.net with flitFails := nput s.net.flitFails k 0 } }.retrain i
  else { s with net := { s.net with flitFails := nput s.net.flitFails k n } }

/-- `flit` names the flit on its link; `groups` are the lane groups in which the failed copy and the replayed one differ; `again`:
the copy that failed is itself a replay. -/
def execLinkCrcRetry (i flit : Nat) (groups : List Nat) (again : Bool) (s : State) : Outcome :=
  s.guard (decide (i < 140) && decide (flit < 2 ^ 20) && s.inService i && s.fld fGL_TOPOLOGY_STATE 0 i != 4)
    (fun s => s.crcRetry i flit groups again)

/-- R232: no valid flit for 1,024 network cycles. -/
def execLinkIdleTimeout (i : Nat) (s : State) : Outcome :=
  s.guard (decide (i < 140)) (fun s => s.retrain i)

/-- R232: a retraining that succeeds. -/
def State.trained (s : State) (i : Nat) : State :=
  let st := if s.fld fGL_TOPOLOGY_LANES_NOW 0 i < s.fld fGL_TOPOLOGY_LANES_FULL 0 i then 2 else 1
  let s := { s with net := { s.net with trainFails := nput s.net.trainFails i 0 } }
  (s.put fGL_TOPOLOGY_STATE 0 i st).event 0x3005 (s.unitLink i)

/-- R232: a retraining that fails; the third in a row removes the link. -/
def State.untrained (s : State) (i : Nat) : State :=
  let n := nget s.net.trainFails i + 1
  let s := { s with net := { s.net with trainFails := nput s.net.trainFails i n } }
  if 3 ≤ n then s.removeLink i else s

def execLinkRetrainDone (i : Nat) (ok : Bool) (s : State) : Outcome :=
  s.guard (decide (i < 140) && s.fld fGL_TOPOLOGY_STATE 0 i == 4) (fun s => if ok then s.trained i else s.untrained i)

/-- NW_LINK_CMD.OP 1. -/
def execLinkRetrain (rq : Rq) (i : Nat) (s : State) : Outcome :=
  .next (s.csAct rq (nwAddr 0x218) (fun s => s.when (decide (i < 140)) (fun s => s.retrain i)))

/-- NW_LINK_CMD.OP 2. -/
def execLinkRemove (rq : Rq) (i : Nat) (s : State) : Outcome :=
  .next (s.csAct rq (nwAddr 0x218) (fun s => s.when (decide (i < 140)) (fun s => s.removeLink i)))

/-- The links of a router (R236). -/
def State.linksOf (s : State) (r : Nat) : List Nat :=
  (List.range 140).filter (fun i => s.fld fGL_TOPOLOGY_STATE 0 i != 0 &&
    (s.fld fGL_TOPOLOGY_END_A 0 i == r || s.fld fGL_TOPOLOGY_END_B 0 i == r))

/-- Table 8.4: the links of a router that is fenced or off. -/
def State.endLinks (s : State) (r : Nat) : State :=
  s.forEach ((s.linksOf r).filter (fun i => s.inService i)) (fun i s => s.cutLink i 5)

/-- R233: a router fenced, and its cluster with it. -/
def State.fenceRouter (s : State) (r : Nat) : State :=
  if s.fld fNW_ROUTER_STATUS_STATE 0 r = 3 then s
  else
    let s := (s.event 0x3007 (unitRouter r 0)).stick fNW_STATUS_ROUTER_FENCED
    (((s.put fNW_ROUTER_STATUS_STATE 0 r 3).endLinks r).loseAt r).fenceCluster r 0

/-- R233: one router's heartbeat at a 1 ms boundary. -/
def State.routerBeat (s : State) (r : Nat) (silent : Bool) : State :=
  if s.fld fNW_ROUTER_STATUS_STATE 0 r ≠ 0 then s
  else if !silent then s.put fNW_ROUTER_STATUS_MISSED_BEATS 0 r 0
  else
    let n := s.fld fNW_ROUTER_STATUS_MISSED_BEATS 0 r + 1
    let s := s.put fNW_ROUTER_STATUS_MISSED_BEATS 0 r n
    if 2 ≤ n then s.fenceRouter r else s

/-- `silent` are the routers whose heartbeat has not come (R233). -/
def execRouterHeartbeatCheck (silent : List Nat) (s : State) : Outcome :=
  s.guard (s.atBoundary 250000 && s.mg.ctrl == 0) (fun s =>
    s.forEach (List.range 48) (fun r s => s.routerBeat r (silent.contains r)))

/-- R230, R233: an error in a router's storage: corrected, or the router is fenced. -/
def execRouterStorageError (r : Nat) (corrected : Bool) (s : State) : Outcome :=
  s.guard (decide (r < 48)) (fun s =>
    if corrected then (s.sat fNW_ROUTER_STATUS_ECC_CORRECTED 0 r 1).eventSummed 0x3006 (unitRouter r 0) r (fun _ => []) else s.fenceRouter r)

/-- R228: a switch of routing tables armed; a count already passed becomes the next 1 µs boundary. -/
def State.armSwitch (s : State) : State :=
  if s.is fNW_TOPO_CTRL_PENDING then s
  else
    let n := s.fld fNW_TOPO_SWITCH_COUNT
    let late := decide (n < s.now)
    let t := if late then 250 * (s.now / 250 + 1) else n
    ({ s with net := { s.net with switchAt := some t } }.put fNW_TOPO_CTRL_PENDING 0 0 1).when late (fun s =>
      s.stick fNW_STATUS_SWITCH_LATE)

def execTopoSwitchArm (rq : Rq) (s : State) : Outcome := .next (s.csAct rq (nwAddr 0x210) State.armSwitch)

/-- R228, R229, R233, R234: the switch at its count: banks, generation, record, standby attachments, sweeps; stranded messages go
on by the new tables, and every other keeps its route. -/
def State.switchTables (s : State) (t : Nat) : State :=
  let s := s.put fNW_TOPO_CTRL_ACTIVE_BANK 0 0 (1 - s.fld fNW_TOPO_CTRL_ACTIVE_BANK)
  let s := (s.put fNW_TOPO_CTRL_PENDING 0 0 0).wrap fNW_TOPO_CTRL_GEN 0 0 1
  let sw := s.net.sweeps ++ s.net.sweepArmed.map (fun r => ⟨t, r⟩)
  let sb := (List.range 48).filter (fun r => decide (2 ≤ s.fld fNW_ROUTER_STATUS_STATE 0 r))
  let s := { s with net := { s.net with switchAt := none, cut := [], standby := sb, sweeps := sw, sweepArmed := [] } }
  s.rejoinAll.event 0x300B unitHub (leBytes 4 (s.fld fNW_TOPO_CTRL_GEN))

def execTopoSwitch (s : State) : Outcome :=
  match s.net.switchAt with
  | none => .next s
  | some t => s.guard (decide (t ≤ s.now) && s.actFirst 2) (fun s => s.switchTables t)

/-- R234: a sweep armed for the next switch. -/
def State.armSweep (s : State) (r : Nat) : State := { s with net := { s.net with sweepArmed := s.net.sweepArmed ++ [r] } }

/-- R234: NW_SWEEP.START. -/
def execSweepStart (rq : Rq) (r : Nat) (s : State) : Outcome :=
  .next (s.csAct rq (nwAddr 0x230) (fun s => s.armSweep (r % 64)))

/-- The cluster whose interface absorbs a late response of a requester (R378). -/
def Rq.absorber : Rq → Nat
  | .core u _ => u / 28
  | .coreDma u _ => u / 28
  | .fetch u => u / 28
  | .part u _ _ => u / 28
  | .seqDma c _ => c
  | .seqFetch c _ => c
  | .router c _ => c
  | .walker c => c
  | .host _ _ => 63
  | .firmware => 63
  | .scrubber => 63

/-- R234, R378: a late response to request `id` will be absorbed by its requester's cluster interface. -/
def State.absorbLate (s : State) (id : Nat) (rq : Rq) : State :=
  let c := rq.absorber
  s.when (decide (c < 48)) (fun s => { s with net := { s.net with absorb := s.net.absorb ++ [(id, c)] } }.put
    fCL_RESET_STATUS_IN_ABSORB c 0 (s.fld fCL_RESET_STATUS_IN_ABSORB c + 1))

/-- R234: the record and the error response of a swept request. -/
def State.sweptEvent (s : State) (router : Nat) (rq who : Rq) (data : List Nat) : State :=
  (s.eventRq rq 0x3008 (unitRouter router 0)).emit .errorResponse who.unit 0x3008 data

/-- R234: one outstanding request given an error response by the sweep. -/
def State.sweepOne (s : State) (router : Nat) (r : Resp) : State :=
  let rq := s.opRq r.rq r.op
  (((s.freeResp r.id).absorbLate r.id r.rq).sweptEvent router rq r.rq []).respError r 0

/-- R234: an outstanding read, named by its requester, its instruction or command and its address. -/
def State.sweepRead (s : State) (router : Nat) (x : Rq × Nat × Nat) : State :=
  let id := s.net.nextResp
  let t := { s with net := { s.net with nextResp := id + 1 } }.absorbLate id x.1
  (t.sweptEvent router (s.opRq x.1 x.2.1) x.1 [x.2.2]).rqFault x.1 x.2.1 x.2.2

/-- The reply to a flit of an instruction is no longer awaited: the entry keeps it no more. -/
def State.forgetFlit (s : State) (op : Nat) : State :=
  let mine := fun (f : RedFlit) => f.entry.isNone && f.op == op
  { s with net := { s.net with
      flits := s.net.flits.filter (fun f => !mine f),
      reds := s.net.reds.map (fun e => { e with parts := e.parts.filter (fun f => !mine f) }) } }

/-- The reply of an entry: 1 performed, 2 not performed, 3 an error response. -/
def State.setReply (s : State) (id reply : Nat) : State :=
  let g := fun (e : RedEntry) => if e.id = id then { e with reply := reply } else e
  { s with net := { s.net with reds := s.net.reds.map g } }

/-- R234: the flits of REDUCE_ADDs issued before S and not yet acknowledged; those of a requester that has been reset await
nothing (R378). Entries lost with their router end with the last of their flits. -/
def State.sweepFlits (s : State) (router t : Nat) : State :=
  let old := fun (f : RedFlit) => decide (f.issued < t)
  let fw := s.net.flits.filter (fun f => f.entry.isSome && old f)
  let leaves := (s.net.flits ++ s.net.reds.flatMap (fun e => e.parts)).filter (fun f => f.entry.isNone && old f && f.op != 0)
  let s := { s with net := { s.net with flits := s.net.flits.filter (fun f => !(f.entry.isSome && old f)) } }
  let s := s.forEach fw (fun f s => (s.eventRq f.rq 0x3008 (unitRouter router 0)).setReply (f.entry.getD 0) 3)
  let s := s.forEach leaves (fun f s =>
    ((s.sweptEvent router f.rq f.rq [f.addr]).forgetFlit f.op).rqFault f.rq f.op f.addr)
  { s with net := { s.net with reds := s.net.reds.filter (fun e => !(e.lost && e.parts.all (fun f => f.op == 0))) } }

/-- R234: a sweep carried out. -/
def State.sweepNow (s : State) (w : Sweep) (reads : List (Rq × Nat × Nat)) : State :=
  let old := s.net.resps.filter (fun x => decide (x.issued < w.start))
  let s := { s with net := { s.net with sweeps := s.net.sweeps.erase w } }
  let s := s.forEach old (fun x s => s.sweepOne w.router x)
  (s.forEach reads (fun x s => s.sweepRead w.router x)).sweepFlits w.router w.start

/-- R234: S + 100 µs. `reads` are the reads and fetches sent before S and not yet answered: in this model a request that waits is
one whose command has not been performed (log 4). -/
def execSweepExpiry (reads : List (Rq × Nat × Nat)) (s : State) : Outcome :=
  match s.net.sweeps.find? (fun w => decide (w.start + 25000 ≤ s.now)) with
  | none => .next s
  | some w => .next (s.sweepNow w reads)

/-- The routers of a field (00_scope.md; R217). -/
def fieldRouters (f : Nat) : List Nat :=
  (List.range 8).map (fun k => 8 * (2 * (f / 2) + k / 4) + 4 * (f % 2) + k % 4)

/-- R235: the drained routers of a field are switched off; what is left in them is lost. -/
def State.routersOff (s : State) (f : Nat) : State :=
  s.forEach ((fieldRouters f).filter (fun r => s.fld fNW_ROUTER_STATUS_STATE 0 r == 1)) (fun r s =>
    ((s.put fNW_ROUTER_STATUS_STATE 0 r 2).endLinks r).loseAt r)

/-- R235: whether a message, or a sum of a reduction buffer, stands at a router of a field. -/
def State.fieldBusy (s : State) (f : Nat) : Bool :=
  s.traffic.any (fun m => !m.pos.hops.isEmpty && (fieldRouters f).contains m.pos.here) ||
    s.net.reds.any (fun e => (fieldRouters f).contains e.router)

/-- R235: the drain of a field's routers ends: when no flit is left, or after 50 µs. `flitsLeft`: packets that are no messages of the
state remain. -/
def execRouterDrainEnd (field : Nat) (flitsLeft : Bool) (s : State) : Outcome :=
  match s.net.draining.find? (fun d => d.1 == field) with
  | none => .next s
  | some d =>
    let left := flitsLeft || s.fieldBusy field
    s.guard (!left || decide (d.2 + 12500 ≤ s.now)) (fun s =>
      let sw := if left then [⟨s.now, (fieldRouters field).headD 0⟩] else []
      { s with net := { s.net with draining := s.net.draining.erase d, sweeps := s.net.sweeps ++ sw } }.routersOff field)

/-- R242: the unit of a hold-watched ostler: the memory of the transposing path, or the port. -/
def ostlerUnit (kind unit index : Nat) : Nat :=
  if kind = 4 then unitPort (index / 4)
  else if index = 0 then unitCl unit 0 else unitCore (28 * unit + index - 1) 11 0

/-- R96, R242: a tile cut off on its transposing path. -/
def State.cutTile (s : State) (unit index : Nat) (rq : Rq) (op addr : Nat) : State :=
  let slot := if index = 0 then none else some (28 * unit + index - 1)
  (s.refuse (s.opRq rq op) 0x2005 (ostlerUnit 2 unit index) slot unit addr).rqFault rq op addr

/-- R242: a grant that an ostler has seen held for WATCHDOG network cycles, 6 to a site-time count. -/
def State.heldTooLong (s : State) (kind unit index : Nat) : Option Holding :=
  s.holder? (ostlerAt kind unit index) (fun h => decide (s.watchdog kind ≤ 6 * (s.now - h.since)))

/-- R242: the hold watchdog fires: the grant is released and the transfer cut off; a frame ends with a bad frame check sequence. -/
def State.holdFires (s : State) (kind unit index : Nat) (h : Holding) : State :=
  let o := s.originRq h.rq
  let ev : Ev := { event := 0x300A, unit := ostlerUnit kind unit index, outcome := 4, waybill := h.way,
                   stream := o.stream, tag := o.tag, lodging := s.lodgingOf h.rq, detail := leBytes 4 h.rq.unit ++ leBytes 4 h.way }
  let s := ((s.record ev).stick fNW_STATUS_HOLD_FIRED).letGo (ostlerAt kind unit index) h
  if kind = 2 then s.cutTile unit index h.rq h.op h.addr
  else (s.emit .packet index 0x300A []).emit .errorResponse h.rq.unit 0x300A []

def execOstlerHoldWatchdog (kind unit index : Nat) (s : State) : Outcome :=
  match s.heldTooLong kind unit index with
  | none => .next s
  | some h => s.guard (kind == 2 || kind == 4) (fun s => s.holdFires kind unit index h)

/-- R243: whether an output port has parked requesters and nothing to grant, for want of credit. -/
def State.starved (s : State) (r port : Nat) : Bool :=
  (s.ostler (ostlerAt 0 r port)).parked != [] &&
    (s.waitingAt r port).all (fun w => !s.credit r port w.2.net (w.2.pos.hops.drop 1))

/-- R243: a stalled output port: the link retrains, and is removed when the stall outlives three retrainings. -/
def State.creditStall (s : State) (r port i other : Nat) : State :=
  let ev : Ev := { event := 0x300C, unit := unitRouter r port, outcome := 1,
                   detail := leBytes 4 (unitRouter r port) ++ leBytes 4 other }
  let s := (s.record ev).stick fNW_STATUS_CREDIT_STALL
  let o := s.ostler (ostlerAt 0 r port)
  let s := s.setOstler (ostlerAt 0 r port) { o with stalls := o.stalls + 1 }
  if 3 ≤ o.stalls then s.removeLink i else s.retrain i

def execCreditWatchdog (r port : Nat) (s : State) : Outcome :=
  match linkAt r port with
  | none => .next s
  | some (i, other) => s.guard (decide (r < 48) && s.inService i && s.fld fGL_TOPOLOGY_STATE 0 i != 4 && s.starved r port &&
      decide (s.watchdog 0 ≤ 6 * (s.now - (s.ostler (ostlerAt 0 r port)).grantAt)))
      (fun s => s.creditStall r port i other)

/-- R249: a flit of a core's instruction acknowledged. -/
def State.ackFlit (s : State) (op : Nat) : State :=
  match s.opAt op with
  | some o => s.setOp { o with writes := o.writes - 1 }
  | none => s

/-- R250: the requester of a flit reissues it once, with merging forbidden; a reissued flit draws an error response. A requester
that has been reset reissues nothing. -/
def State.reissueFlit (s : State) (f : RedFlit) : State :=
  if f.op = 0 then s
  else if !f.merge then (s.emit .errorResponse f.rq.unit 0x1008 [f.addr]).rqFault f.rq f.op f.addr
  else
    let g : RedFlit := { f with merge := false, reread := true, issued := s.now, pos := none }
    { s with net := { s.net with flits := s.net.flits ++ [g] } }

/-- R249, R250: the reply to a flit: 1 performed, 2 not performed, 3 an error response. -/
def State.replyFlit (s : State) (f : RedFlit) (reply : Nat) : State :=
  match f.entry with
  | some id => s.setReply id reply
  | none => match reply with
    | 1 => s.ackFlit f.op
    | 2 => s.reissueFlit f
    | _ => s.rqFault f.rq f.op f.addr

/-- The router a flit sets out from. -/
def State.flitFrom (s : State) (f : RedFlit) : Nat :=
  match f.entry with
  | some id => match s.net.reds.find? (fun e => e.id == id) with
    | some e => e.router
    | none => 0
  | none => (s.entryOf f.rq (clusterAt f.addr)).1

def flitTo (f : RedFlit) : Nat := clusterAt f.addr

/-- R250: a mismatch of the duplicated adders. -/
def State.redMismatch (s : State) (rq : Rq) (unit : Nat) (again : Bool) : State :=
  let o := s.originRq rq
  (s.record { event := 0x1008, unit := unit, outcome := if again then 4 else 2, waybill := o.way, stream := o.stream,
              tag := o.tag }).stick fNW_STATUS_REDUCE_MISMATCH

/-- A flit taken off the network. -/
def State.dropFlit (s : State) (n : Nat) : State :=
  { s with net := { s.net with flits := s.net.flits.eraseIdx n } }

/-- R248: the sum of two flits, lane by lane, in binary32 (R247). -/
def addLanes (a b : List (BitVec 32)) : List (BitVec 32) := List.zipWith (fun x y => (fadd x y).1) a b

/-- R247, R248: the destination's cluster interface adds a flit to memory. -/
def State.redPerform (s : State) (n : Nat) (f : RedFlit) (mismatch : Bool) : State :=
  if mismatch then
    let s := (s.dropFlit n).redMismatch f.rq (unitCl (flitTo f) 0) (!f.merge && f.entry.isNone)
    s.replyFlit f 2
  else match s.readMem f.rq f.addr 64 with
    | (.held, _) => s
    | (.err _, t) => (t.dropFlit n).replyFlit f 3
    | (.ok bs, t) => match t.writeAll f.rq f.addr ((addLanes (lanes16 bs) f.lanes).flatMap (fun w => leBytes 4 w.toNat)) with
      | (.held, _) => s
      | (.err _, t) => (t.dropFlit n).replyFlit f 3
      | (.ok _, t) => (t.dropFlit n).replyFlit f 1

/-- R248: a flit added to an entry. -/
def State.redMerge (s : State) (n : Nat) (f : RedFlit) (e : RedEntry) (mismatch : Bool) : State :=
  let s := s.dropFlit n
  if mismatch then
    let s := { s with net := { s.net with reds := s.net.reds.filter (fun x => x.id != e.id) } }
    (s.redMismatch f.rq (unitRouter e.router 0) false).forEach (e.parts ++ [f]) (fun p s => s.replyFlit p 2)
  else
    let g : RedEntry := { e with lanes := addLanes e.lanes f.lanes, merges := e.merges + 1, parts := e.parts ++ [f] }
    let f := fun (x : RedEntry) => if x.id = e.id then g else x
    { s with net := { s.net with reds := s.net.reds.map f } }.wrap
      fNW_ROUTER_STATUS_MERGES 0 e.router 1

/-- R248: a flit that finds no entry allocates one. -/
def State.redAllocate (s : State) (r n : Nat) (f : RedFlit) : State :=
  let s := s.dropFlit n
  let e : RedEntry := { id := s.net.nextRed, router := r, addr := f.addr, lodging := f.lodging, lanes := f.lanes, merges := 0,
                        parts := [f], since := s.now, sent := false, reply := 0 }
  { s with net := { s.net with reds := s.net.reds ++ [e], nextRed := s.net.nextRed + 1 } }

/-- R248, R250: a flit at a router of its route: merged into an entry that has merged fewer than 8, held in a new entry, or passed
on. -/
def State.redAt (s : State) (r n : Nat) (f : RedFlit) (mismatch : Bool) (pass : State → State) : State :=
  let may := f.merge && (f.entry.isNone || s.flitFrom f != r)
  let hold := s.fld fNW_REDUCE_CFG_HOLD != 0
  let mine := s.net.reds.filter (fun e => e.router == r && !e.lost)
  match mine.find? (fun e => !e.sent && e.addr == f.addr && e.lodging == f.lodging && decide (e.merges < 8)) with
  | some e => if may then s.redMerge n f e mismatch else pass s
  | none => if may && hold && decide (mine.length < 64) then s.redAllocate r n f else pass s

/-- R250: a reissued flit reads its source again before it leaves; none while that read is held. -/
def State.rereadFlit (s : State) (f : RedFlit) : Option (Except Nat RedFlit × State) :=
  if !f.reread then some (.ok f, s)
  else match s.readMem f.rq f.src 64 with
    | (.held, _) => none
    | (.err _, t) => some (.error f.src, t)
    | (.ok bs, t) => some (.ok { f with lanes := lanes16 bs, reread := false }, t)

/-- R227: a flit whose destination is unreachable. -/
def State.redUnreachable (s : State) (n : Nat) (f : RedFlit) : State :=
  ((s.dropFlit n).unreachable f.rq (s.flitFrom f) f.addr).replyFlit f 3

/-- R225, R247: a flit that has not left: its data is read, it is merged at its own router, or goes on from there. -/
def State.redEnter (s : State) (n : Nat) (f : RedFlit) (mismatch : Bool) : State :=
  let r := s.flitFrom f
  if s.reach r (flitTo f) [] = 1 then s.redUnreachable n f
  else match s.rereadFlit f with
    | none => s
    | some (.error a, t) => (t.dropFlit n).rqFault f.rq f.op a
    | some (.ok g, t) => { t with net := { t.net with flits := t.net.flits.set n g } }.redAt r n g mismatch (fun t =>
        if r = flitTo f then t.redPerform n g mismatch else t.enterNet 4 n rankREQ r 0 (flitTo f) 0)

/-- A flit in the network takes its next output, if it can: it comes to the next router, or to its destination. -/
def State.redMove (s : State) (n : Nat) (f : RedFlit) (mismatch : Bool) : State :=
  let (moved, t) := State.oneHop 4 n 64 s
  match t.msgAt 4 n with
  | none => t
  | some m =>
    if t.cutOff m then t.redUnreachable n f
    else if !moved then t
    else match t.net.flits[n]? with
      | none => t
      | some g => if m.pos.hops = [] then t.redPerform n g mismatch else t.redAt m.pos.here n g mismatch (fun t => t)

/-- The router at which the next event of a flit takes place. -/
def State.flitNext (s : State) (f : RedFlit) : Nat :=
  match f.pos with
  | none => s.flitFrom f
  | some p => match p.hops with
    | [] => flitTo f
    | [_] => flitTo f
    | h :: _ => (behind h.1 h.2.1).1

/-- REDUCE_ADD flit number n on its way comes to router r; `mismatch`: the duplicated adders disagree on its sum. -/
def execReduceAddMerge (r n : Nat) (mismatch : Bool) (s : State) : Outcome :=
  match s.net.flits[n]? with
  | none => .next s
  | some f => s.guard (s.flitNext f == r) (fun s => match f.pos with
    | none => s.redEnter n f mismatch
    | some p => if p.lot = 0 ∧ p.hops = [] then s.redPerform n f mismatch else s.redMove n f mismatch)

/-- R248: an entry is forwarded when it has merged 8 flits or HOLD network cycles (6 to a site-time count) have passed. -/
def State.redForward (s : State) (e : RedEntry) : State :=
  let f : RedFlit := { rq := (e.parts.head?.map RedFlit.rq).getD .firmware, op := 0, addr := e.addr, lodging := e.lodging,
                       lanes := e.lanes, merge := true, src := 0, issued := s.now, entry := some e.id, reread := false }
  let g := fun (x : RedEntry) => if x.id = e.id then { x with sent := true } else x
  { s with net := { s.net with reds := s.net.reds.map g,
                                flits := s.net.flits ++ [f] } }

def execReduceEntryForward (id : Nat) (s : State) : Outcome :=
  match s.net.reds.find? (fun e => e.id == id && !e.sent && !e.lost) with
  | none => .next s
  | some e => s.guard (decide (8 ≤ e.merges) || decide (s.fld fNW_REDUCE_CFG_HOLD ≤ 6 * (s.now - e.since)))
      (fun s => s.redForward e)

/-- R249, R250: the reply to a forwarded flit returns to its router, which replies to each requester of its entry. -/
def execReduceAck (id : Nat) (s : State) : Outcome :=
  match s.net.reds.find? (fun e => e.id == id && e.reply != 0 && !e.lost) with
  | none => .next s
  | some e =>
    let s := { s with net := { s.net with reds := s.net.reds.filter (fun x => x.id != id) } }
    .next (s.forEach e.parts (fun f s => s.replyFlit f e.reply))

end Sys2Proof.Machine
end

