-- ==== Sys2Proof/Machine/Hbm.lean ====
section
/-! DEFINITION. Commands of HBM and translation (09_hbm_and_translation.md R252-R276): accesses with parity and ECC, the
error-check-and-scrub counts, data-rate changes, walks, invalidation, the scrubber, refresh and temperature readout. -/

namespace Sys2Proof.Machine

/-- R255 inverted: the device physical address of a DRAM location. -/
def State.physOfKey (s : State) (k : Nat) : Nat :=
  let n := k / 2 ^ 36
  let sa := k % 2 ^ 36
  let b := sa / 0x40000000
  let g := sa % 0x40000000 / 4096
  let o := if (s.fld fGL_BAND_MODE_FIELD_LOCAL).testBit b then 0x80000000 * (n / 2) + 4096 * (2 * g + n % 2)
    else 4096 * (g * 12 + n)
  0x300000000 * b + o + sa % 4096

/-- R263, R370: a frame that cannot be relied on: listed, and not granted again before the next start. -/
def State.badFrame (s : State) (pa : Nat) : State :=
  let f := pa / 65536
  { s with hbm := { s.hbm with badFrames := s.hbm.badFrames ++ [f] } }.addDefect 6 (unitStack 0) f

/-- R261: parity retries of one access. -/
def State.parityRetries (s : State) (pa n : Nat) : State :=
  if n = 0 then s
  else
    let k := s.stackOf pa
    let sa := s.stackAddr pa
    ((s.sat fHB_ECC_PARITY_RETRIES k 0 n).stick fHB_STATUS_PARITY k).eventSummed 0x2104 (unitStack k) k (fun _ => leBytes 8 sa)

/-- R262: the summary of a stack's corrected reads holds the count and the last address. -/
def State.corrected (s : State) (pa : Nat) : State :=
  let k := s.stackOf pa
  let sa := s.stackAddr pa
  ((s.sat fHB_ECC_CORRECTED k 0 1).stick fHB_STATUS_CORRECTED k).eventSummed 0x2101 (unitStack k) k
    (fun n => leBytes 4 n ++ leBytes 8 sa)

/-- The lodging that owns the frame of a physical address. -/
def State.frameOwner (s : State) (pa : Nat) : Option Nat :=
  match nget s.mg.frames (pa / 65536) with
  | 0 => none
  | n + 1 => if n < 8 then some n else none

/-- R263: an uncorrectable read; `retried`: the second read was delivered. The record names the lodging that owns the frame, so
that its host is notified (R439), or else the requester's. -/
def State.uncorrectable (s : State) (rq : Rq) (pa : Nat) (retried : Bool) : State :=
  let k := s.stackOf pa
  let s := (s.sat fHB_ECC_UNCORRECTABLE k 0 1).stick fHB_STATUS_UNCORRECTABLE k
  let o := s.originRq rq
  let ev : Ev := { event := 0x2103, unit := unitStack k, outcome := if retried then 2 else 5, waybill := o.way,
                   stream := o.stream, tag := o.tag, lodging := (s.frameOwner pa).or (s.lodgingOf rq),
                   detail := BitVec.ofNat 8 retried.toNat :: leBytes 8 (s.stackAddr pa) }
  s.record ev

/-- R263: an access that has failed for good. -/
def State.hbmFail (s : State) (rq : Rq) (op pa : Nat) : State :=
  (((s.uncorrectable (s.opRq rq op) pa false).badFrame pa).emit .errorResponse rq.unit 0x2103 [pa]).rqFault rq op pa

/-- R261-R263: what a read of the 64 bytes at pa meets, where it is delivered: `parity` retries are needed, 3 standing for a
read that fails after the second; `ecc`: 0 clean, 1 corrected, 2 uncorrectable and clean at the second read, 4
uncorrectable and corrected at the second read. -/
def State.readMeets (s : State) (rq : Rq) (pa parity ecc : Nat) : State :=
  let s := s.when (decide (2 < parity) || ecc == 2 || ecc == 4) (fun s => s.uncorrectable rq pa true)
  s.when (ecc == 1 || ecc == 4) (fun s => s.corrected pa)

/-- R259, R261-R263: a read of the 64 bytes at pa. -/
def State.hbmRead (s : State) (rq : Rq) (op pa parity ecc : Nat) : State :=
  let s := s.parityRetries pa (min parity 2)
  if ecc = 3 then s.hbmFail rq op pa
  else (s.readMeets (s.opRq rq op) pa parity ecc).emit .response rq.unit pa ((s.physRead pa 64).map BitVec.toNat)

/-- R253: whether a write leaves some of the 64 bytes as they are: the front end reads them first. -/
def narrow (bs : List (Option (BitVec 8))) : Bool := decide (bs.length < 64) || bs.any Option.isNone

/-- R253, R259, R261: a write of bytes of the 64 at pa; `ecc` is met by the read that a narrow write begins with. -/
def State.hbmWrite (s : State) (rq : Rq) (op pa parity ecc : Nat) (bs : List (Option (BitVec 8))) : State :=
  let s := s.parityRetries pa (min parity 2)
  let ecc := if narrow bs then ecc else 0
  if 2 < parity ∨ ecc = 3 then s.hbmFail rq op pa
  else ((s.readMeets (s.opRq rq op) pa 0 ecc).storeBytes pa (bs.take 64)).emit .response rq.unit pa []

/-- R270: a lodging's request to a physical HBM address, or to the reserved area. -/
def State.physRefused (s : State) (rq : Rq) (op pa : Nat) : State :=
  (s.transFault (s.opRq rq op) 4 ((s.lodgingOf rq).getD 0xFF) pa pa).rqFault rq op pa

/-- An access of a requester, for its request `op`, granted at a front end: a read, or a write of the bytes given. `raw`: the
request named the physical address itself. `parity` retries are needed, 3 standing for one that fails after the second;
`ecc`: 0 clean, 1 corrected, 2 uncorrectable and clean at the second read, 3 uncorrectable twice, 4 uncorrectable and
corrected at the second read. -/
def execHbmAccess (rq : Rq) (op pa : Nat) (raw : Bool) (write : Option (List (Option (BitVec 8)))) (parity ecc : Nat)
    (s : State) : Outcome :=
  s.guard (decide (pa < hbmSize) && pa % 64 == 0) (fun s =>
    if !rq.platform && (raw || decide (12566528 ≤ pa / 65536)) then s.physRefused rq op pa
    else s.when (!s.stackHeld rq pa) (fun s =>
      let s := s.frontGrant pa (s.dataAsker rq)
      match write with
      | some bs => s.hbmWrite rq op pa parity ecc bs
      | none => s.hbmRead rq op pa parity ecc))

/-- R264: the counts of the DRAM's own error check and scrub, by stack, read at a 1 s boundary. -/
def execHbmEcsPoll (counts : List Nat) (s : State) : Outcome :=
  s.guard (s.atBoundary 250000000 && s.mg.ctrl == 0) (fun s => s.forEach (List.range 12) (fun k s =>
    let n := counts.getD k 0
    let old := nget s.hbm.ecs k
    let s := { s with hbm := { s.hbm with ecs := nput s.hbm.ecs k n } }
    if old < n then s.event 0x2105 (unitStack k) else s))

/-- R260: HB_RATE_SWITCH written: the change is armed for its count, or for the next 1 µs boundary. -/
def State.armRate (s : State) (k n : Nat) : State :=
  let t := if n < s.now then 250 * (s.now / 250 + 1) else n
  { s with hbm := { s.hbm with rateAt := nput s.hbm.rateAt k (t + 1) } }

/-- The rate a stack changes to: its target, held down by failed regulator phases (Table 12.2). -/
def State.rateTarget (s : State) (k : Nat) : Nat := min s.hbm.rateMax (s.fld fHB_RATE_CTRL_TARGET k)

/-- R260 steps 1 to 3. -/
def execHbmRateChange (k : Nat) (s : State) : Outcome :=
  s.guard (s.rateDue k && s.actFirst 3) (fun s =>
    let s := { s with hbm := { s.hbm with rateAt := nput s.hbm.rateAt k 0 } }
    if s.rateTarget k = s.fld fHB_STATUS_RATE_NOW k then s else s.put fHB_STATUS_SWITCHING k 0 1)

/-- R260 step 4. -/
def execHbmRateChangeDone (k : Nat) (s : State) : Outcome :=
  s.guard (s.is fHB_STATUS_SWITCHING k) (fun s =>
    let old := s.fld fHB_STATUS_RATE_NOW k
    let new := s.rateTarget k
    ((s.put fHB_STATUS_RATE_NOW k 0 new).put fHB_STATUS_SWITCHING k 0 0).event 0x2107 (unitStack k)
      [BitVec.ofNat 8 old, BitVec.ofNat 8 new])

/-- R268, R269: whether a request's walk reads its entry from the DRAM: the page has an entry, no cache that serves the request
holds it, and the way and the front end are free. -/
def State.walkReads (s : State) (rq : Rq) (l v : Nat) : Bool :=
  let pa := s.pteAddr l v
  decide (l < 8) && decide (v < s.fld fGL_PT_REGION_COUNT 0 l) && nget s.hbm.tlb (tlbKey rq.cache l v) == 0 &&
    nget s.hbm.tlb (tlbKey (128 + s.stackOf pa) l v) == 0 && s.reachTo rq.walks (s.hbmRouter pa) 5 [82 + s.hbmRouter pa] == 0 &&
    !s.frontHeld (some l) pa

/-- The unit of a cache of translations, for R279's records: a cluster interface, a port or a stack. -/
def cacheUnit (cache : Nat) : Nat :=
  if cache < 64 then unitCl cache 0 else if cache < 128 then unitPort (cache - 64) else unitStack (cache - 128)

/-- R279, Table 10.2: an entry of a cache that fails its parity is dropped; the walk is repeated. -/
def State.dropEntry (s : State) (rq : Rq) (cache l v : Nat) : State :=
  let k := tlbKey cache l v
  if nget s.hbm.tlb k = 0 then s else (s.tlbSetTo k 0).eventRq rq 0x2009 (cacheUnit cache) (leBytes 8 (65536 * v))

/-- R279, Table 10.2: a record fetched ahead that fails its parity is dropped; it is fetched again. -/
def State.dropRecord (s : State) (rq : Rq) (c i pos : Nat) : State :=
  let hit := fun (p : Nat × Nat × List Word) => p.1 == slotKey c i && p.2.1 == pos
  if s.sq.prefetch.any hit then
    { s with sq := { s.sq with prefetch := s.sq.prefetch.filter (fun p => !hit p) } }.eventRq rq 0x2009 (unitSeq c) (leBytes 8 pos)
  else s

/-- R279: what has failed its parity for a request: 1 the entry of the cluster's or port's cache, 2 that of the controller's, 3
the record at va fetched ahead for a slot. -/
def State.lostEntry (s : State) (rq : Rq) (op va lost : Nat) : State :=
  let l := (s.lodgingOf rq).getD 0xFF
  let v := va / 65536
  match lost with
  | 1 => s.dropEntry (s.opRq rq op) rq.cache l v
  | 2 => s.dropEntry (s.opRq rq op) (128 + s.stackOf (s.pteAddr l v)) l v
  | 3 => (match rq with
    | .seqFetch c _ => s.dropRecord (s.opRq rq op) c op va
    | _ => s)
  | _ => s

/-- R268: a walk for request `op` of a requester. Where it reads the DRAM, it meets what any read does (R261-R263); an
uncorrectable entry is cause 5. -/
def State.walkRow (s : State) (rq : Rq) (op va : Nat) (wr ex : Bool) (parity ecc lost : Nat) : State :=
  let s := s.lostEntry rq op va lost
  let l := (s.lodgingOf rq).getD 0xFF
  let v := va / 65536
  let pa := s.pteAddr l v
  let r := s.opRq rq op
  let reads := s.walkReads rq l v
  let s := s.when reads (fun s => s.parityRetries pa (min parity 2))
  if reads && ecc == 3 then
    ((((s.frontGrant pa (walkAsker rq.walks l)).uncorrectable r pa false).badFrame pa).transFault r 5 l va pa).rqFault rq op va
  else
    let s := s.when reads (fun s => s.readMeets r pa parity ecc)
    match s.translate r va wr ex with
    | (.ok _, t) => t
    | (.held, _) => s
    | (.err _, t) => t.rqFault rq op va

def execTranslationWalk (rq : Rq) (op va : Nat) (wr ex : Bool) (parity ecc lost : Nat) (s : State) : Outcome :=
  s.guard (!rq.platform && decide (va < 2 ^ 40)) (fun s => s.walkRow rq op va wr ex parity ecc lost)

/-- R271: GL_TLB_INVAL written. -/
def State.tlbInval (s : State) (l first pages : Nat) : State :=
  if s.is fGL_TLB_STATUS_PENDING then s.busyWrite fGL_TLB_STATUS_CFG_WHILE_BUSY 0 0
  else { s with hbm := { s.hbm with inval := some (l, first, pages) } }.put fGL_TLB_STATUS_PENDING 0 0 1 |>.put
    fGL_TLB_STATUS_DONE 0 0 0

def execTlbInvalidate (rq : Rq) (l first pages : Nat) (s : State) : Outcome :=
  .next (s.csAct rq (glAddr 0x580) (fun s => s.tlbInval (l % 8) first pages))

/-- R271 steps 1 to 4: the entries of the range have left every cache. -/
def State.dropTlb (s : State) (l first pages : Nat) : State :=
  let keep := fun (p : Nat × Nat) =>
    let v := p.1 % 2 ^ 24
    !(p.1 / 2 ^ 24 % 16 == l && (pages == 0 || (decide (first ≤ v) && decide (v < first + pages))))
  { s with hbm := { s.hbm with tlb := s.hbm.tlb.filter keep } }

/-- R271 step 4. -/
def State.invalDone (s : State) (l first pages : Nat) : State :=
  let s := s.dropTlb l first pages
  ({ s with hbm := { s.hbm with inval := none } }.put fGL_TLB_STATUS_PENDING 0 0 0).put fGL_TLB_STATUS_DONE 0 0 1

/-- R272: the fields of GL_SCRUB_STATUS that show the queue. -/
def State.scrubShow (s : State) : State :=
  (s.put fGL_SCRUB_STATUS_QUEUED 0 0 s.hbm.scrubs.length).put fGL_SCRUB_STATUS_BUSY 0 0
    (if s.hbm.scrubs.isEmpty then 0 else 1)

/-- R272: a job queued; a full queue ignores it. -/
def State.scrubSubmit (s : State) (first frames : Nat) : State :=
  if frames = 0 then s
  else if 16 ≤ s.hbm.scrubs.length then s.stick fGL_SCRUB_STATUS_QUEUE_FULL
  else { s with hbm := { s.hbm with scrubs := s.hbm.scrubs ++ [(first, frames)] } }.scrubShow

def execScrubSubmit (rq : Rq) (first frames : Nat) (s : State) : Outcome :=
  .next (s.csAct rq (glAddr 0x590) (fun s => s.scrubSubmit (first % 2 ^ 24) (frames % 2 ^ 24)))

/-- R272: zeros over a range of frames, but for the 64-byte pieces whose writes failed. -/
def State.zeroFrames (s : State) (first frames : Nat) (bad : List Nat) : State :=
  let hit := fun (c : Host.Cell) => decide (c.1 < 12 * 2 ^ 36) &&
    (let a := s.physOfKey c.1
     decide (first ≤ a / 65536) && decide (a / 65536 < first + frames) && !bad.contains (64 * (a / 64)))
  { s with mem := s.mem.filter (fun c => !hit c) }

/-- R272: a scrub write that failed. -/
def State.scrubFail (s : State) (pa : Nat) : State :=
  ((s.stick fGL_SCRUB_STATUS_WRITE_FAILED).event 0x2106 (unitStack (s.stackOf pa)) (leBytes 8 (s.stackAddr pa))).badFrame pa

/-- The numbers below x that leave remainder r by m. -/
def countMod (x m r : Nat) : Nat := (x + (m - 1 - r)) / m

/-- R255: the granules of a stack in a range of granules of one band, by the band's mode. -/
def bandGranules (fieldLocal : Bool) (b lo hi k : Nat) : Nat :=
  let base := 3145728 * b
  if fieldLocal then
    let lo := max lo (base + 524288 * (k / 2))
    let hi := min hi (base + 524288 * (k / 2 + 1))
    if hi ≤ lo then 0 else countMod hi 2 (k % 2) - countMod lo 2 (k % 2)
  else
    let lo := max lo base
    let hi := min hi (base + 3145728)
    if hi ≤ lo then 0 else countMod hi 12 k - countMod lo 12 k

/-- R255, R272: the 4 KiB granules of a stack in a range of frames. -/
def State.granulesOf (s : State) (first frames k : Nat) : Nat :=
  let lo := 16 * first
  let hi := 16 * (first + frames)
  (List.range 64).foldl (fun n b => n + bandGranules ((s.fld fGL_BAND_MODE_FIELD_LOCAL).testBit b) b lo hi k) 0

/-- R241, R260, R272: whether the scrubber is held on a range: a stack of it has its scrubbing paused (RATE 0), changes its rate,
or has a front end frozen. -/
def State.scrubPaused (s : State) (first frames : Nat) : Bool :=
  (List.range 12).any (fun k => s.granulesOf first frames k != 0 &&
    (s.fld fHB_SCRUB_CFG_RATE k == 0 || s.is fHB_STATUS_SWITCHING k || (List.range 64).any (fun p => s.frozen 3 k p none)))

/-- R258: the grants of a job's writes, of every front end of each stack. -/
def State.scrubGrants (s : State) (first frames : Nat) : State :=
  s.forEach (List.range 12) (fun k s =>
    { s with hbm := { s.hbm with scrubbed := nput s.hbm.scrubbed k (nget s.hbm.scrubbed k + s.granulesOf first frames k) } })

/-- R261, R272: a write of a job that needed retries, or failed after the second. -/
def State.scrubRetried (s : State) (pa retries : Nat) : State :=
  (s.parityRetries pa (min retries 2)).when (decide (2 < retries)) (fun s => s.scrubFail pa)

/-- R272: the running job is done; `bad` are the 64-byte writes whose interface parity failed, with the retries they needed, 3
standing for one that failed after the second. -/
def State.scrubDone (s : State) (j : Nat × Nat) (rest : List (Nat × Nat)) (bad : List (Nat × Nat)) : State :=
  let hit := (bad.map (fun p => (64 * (p.1 / 64), p.2))).filter (fun p => decide (65536 * j.1 ≤ p.1) &&
    decide (p.1 < min hbmSize (65536 * (j.1 + j.2))))
  let lost := (hit.filter (fun p => decide (2 < p.2))).map (fun p => p.1)
  let s := ((s.scrubGrants j.1 j.2).zeroFrames j.1 j.2 lost).forEach hit (fun p s => s.scrubRetried p.1 p.2)
  ({ s with hbm := { s.hbm with scrubs := rest } }.scrubShow).wrap fGL_SCRUB_STATUS_COMPLETED 0 0 1

/-- Table 9.6: STRETCH as it is taken: 0 as 1, values above 16 as 16. -/
def stretchOf (w : Nat) : Nat := if w = 0 then 1 else min w 16

/-- R252, R265: the refresh interval in force at a stack: stretched, and halved while it is HOT. -/
def State.refreshEvery (s : State) (k : Nat) : Nat :=
  Config.refreshInterval * stretchOf (s.fld fHB_REFRESH_STRETCH k) / (if s.is fHB_STATUS_HOT k then 2 else 1)

/-- R252, R265: whether a bank's refresh is due, or, where `mgmt`, its refresh management. -/
def State.refreshDue (s : State) (k b : Nat) (mgmt : Bool) : Bool :=
  if mgmt then decide (Config.rfmThreshold ≤ nget s.hbm.acts b)
  else nget s.hbm.refreshed b == 0 || decide (nget s.hbm.refreshed b + s.refreshEvery k ≤ s.now + 1)

/-- R252, R258, R265: a bank of a pseudo-channel is refreshed, or gets a refresh-management command (`mgmt`), at rank 3 of the
front end. Refresh goes on at all times: while the stack changes its rate or the front end is frozen it runs as self
refresh, which takes no grant (DEDUCED, log 52). -/
def execHbmRefresh (k pc bank : Nat) (mgmt : Bool) (s : State) : Outcome :=
  let b := 64 * (64 * k + pc) + bank
  s.guard (decide (k < 12) && decide (pc < 64) && decide (bank < 64) && s.refreshDue k b mgmt) (fun s =>
    let s := s.when (!s.is fHB_STATUS_SWITCHING k && !s.frozen 3 k pc none) (fun s => s.served 3 k pc refreshAsker)
    let s := s.when (!mgmt) (fun s => { s with hbm := { s.hbm with refreshed := nput s.hbm.refreshed b (s.now + 1) } })
    { s with hbm := { s.hbm with rows := nput s.hbm.rows b 0, acts := nput s.hbm.acts b 0 } })

/-- R252: the temperatures of the stacks (1/16 degree, two's complement) read at a 1 ms boundary; above 85 degrees the
refresh rate doubles. -/
def execHbmTemperatureReadout (temps : List Nat) (s : State) : Outcome :=
  s.guard (s.atBoundary 250000 && s.mg.ctrl == 0) (fun s => s.forEach (List.range 12) (fun k s =>
    let t := temps.getD k 0 % 65536
    let s := { s with hbm := { s.hbm with temp := nput s.hbm.temp k t } }
    s.put fHB_STATUS_HOT k 0 (if 85 * 16 < signed 16 t then 1 else 0)))

end Sys2Proof.Machine
end

