-- ==== Sys2Proof/Machine/Time.lean ====
section
/-! DEFINITION. Commands of site time and clocks (11_site_time_and_clocks.md R314-R332): discipline by PTP and SITE_TICK, steps
and writes of the count, SITE_TICK_OUT, the step table, and frequency switches. -/

namespace Sys2Proof.Machine

/-- R331: the TM block is active for R10 while PENDING is set. -/
def State.tmBusy (s : State) : Bool := s.is fTM_STEP_STATUS_PENDING

def State.tmIgnore (s : State) : State := s.busyWrite fTM_DISC_STATUS_CFG_WHILE_BUSY 0 0

/-- R332: the unit of a region. -/
def regionUnit (r : Nat) : Nat := if r < 48 then unitCl r 0 else unitHub

/-- R319, R331: a change of SOURCE: FREE, or ACQUIRING. -/
def State.discSelect (s : State) : State :=
  let k := s.fld fTM_DISC_CFG_SOURCE
  let s := { s with tm := { s.tm with samples := 0, lastSample := s.now, everTicked := false, foreign := [], syncAt := none,
                                      lastSync := none, pathDelay := 0, slewBase := none } }
  s.put fTM_DISC_STATUS_DISC_STATE 0 0 (if k = 1 ∨ k = 2 then 1 else 0)

/-- The limit of TM_FREQ_ADJ, 300 ppm in units of 2^-40 (R314), and n ppm in those units. -/
def ppmUnits (n : Nat) : Nat := 2 ^ 40 * n / 1000000

/-- The most a trim may change TM_FREQ_ADJ (R319), and TM_FREQ_ADJ kept within 300 ppm. -/
def State.slew (s : State) : Int := ppmUnits (min 200 (max 1 (s.fld fTM_DISC_CFG_SLEW)))

def State.setAdj (s : State) (x : Int) : State :=
  let top : Int := ppmUnits 300
  s.put fTM_FREQ_ADJ_ADJ 0 0 ((max (-top) (min top x)) % 2 ^ 32).toNat

/-- R319: the servo trims TM_FREQ_ADJ, at most SLEW away and within 300 ppm; what it chooses the spec leaves free. -/
def State.trim (s : State) : State :=
  let (k, s) := s.draw
  let old := signed 32 (s.fld fTM_FREQ_ADJ_ADJ)
  s.setAdj (max (old - s.slew) (min (old + s.slew) (Config.free32 k).toInt))

/-- R320: a count that lies ahead is slewed at SLEW: the ticks grow longer by it. -/
def State.slewBack (s : State) : State :=
  let base := s.tm.slewBase.getD (s.fld fTM_FREQ_ADJ_ADJ)
  { s with tm := { s.tm with slewBase := some base } }.setAdj (signed 32 base - s.slew)

/-- R320: an offset beyond STEP_LIMIT: a step is needed; one that lies ahead is slewed all the same. -/
def State.stepNeeded (s : State) (off : Int) : State :=
  let s := { s with tm := { s.tm with samples := 0 } }
  let s := (s.put fTM_DISC_STATUS_DISC_STATE 0 0 3).put fTM_DISC_STATUS_STEP_NEEDED 0 0 1
  let s := s.event 0x5104 unitHub (leBytes 4 ((off / 256) % 2 ^ 32).toNat)
  if 0 < off then s.slewBack else s

/-- R323: a sample within STEP_LIMIT: counted when below LOCK_NS (64 units of 1/256 count to the nanosecond); the sixteenth
in a row locks. -/
def State.goodSample (s : State) (off : Int) : State :=
  let st := s.fld fTM_DISC_STATUS_DISC_STATE
  let n := if off.natAbs < 64 * s.fld fTM_DISC_CFG_LOCK_NS then min 16 (s.tm.samples + 1) else 0
  let s := { s with tm := { s.tm with samples := n, slewBase := none } }
  let s := s.put fTM_DISC_STATUS_STEP_NEEDED 0 0 0
  let s := s.when (st != 2) (fun s => s.put fTM_DISC_STATUS_DISC_STATE 0 0 1)
  let s := s.when (st != 2 && n == 16) (fun s => (s.put fTM_DISC_STATUS_DISC_STATE 0 0 2).event 0x5101 unitHub
    [BitVec.ofNat 8 (s.fld fTM_DISC_CFG_SOURCE)])
  s.trim

/-- R319-R323: a valid sample: the offset in 1/256 count. An offset beyond the field's 32 bits leaves it a free value. -/
def State.sample (s : State) (off : Int) : State :=
  let s := { s with tm := { s.tm with lastSample := s.now, everTicked := true } }
  let (k, s) := s.draw
  let shown := if -(2 ^ 31) ≤ off ∧ off < 2 ^ 31 then (off % 2 ^ 32).toNat else (Config.free32 k).toNat
  let s := s.put fTM_DISC_STATUS_OFFSET 0 0 shown
  if 64000 * s.fld fTM_DISC_CFG_STEP_LIMIT < off.natAbs then s.stepNeeded off else s.goodSample off

/-! ### PTP (R321) -/

/-- A foreign time transmitter heard, if there is room for it among the 4. -/
def State.heard (s : State) (who : List Nat) : State :=
  if s.tm.foreign.contains who ∨ 4 ≤ s.tm.foreign.length then s
  else { s with tm := { s.tm with foreign := s.tm.foreign ++ [who] } }

/-- Default data set comparison: the transmitter whose numbers come first in order. -/
def State.bestForeign (s : State) : Option (List Nat) :=
  s.tm.foreign.foldl (fun a x => match a with
    | none => some x
    | some y => if x < y then some x else some y) none

/-- A Sync sent at t1 and arrived at t2: the offset is what their difference exceeds the path delay by. -/
def State.syncTaken (s : State) (t1 t2 : Nat) : State :=
  { s with tm := { s.tm with syncAt := none, lastSync := some (t1, t2) } }.sample ((t2 : Int) - t1 - s.tm.pathDelay)

/-- The mean path delay, from the last Sync and a Delay_Req that arrived at t4. -/
def State.delayTaken (s : State) (t4 : Nat) : State :=
  match s.tm.lastSync with
  | none => s
  | some (t1, t2) => { s with tm := { s.tm with pathDelay := (((t2 : Int) - t1) + ((t4 : Int) - s.tm.delayStamp)) / 2 } }

/-- A PTP frame of a transmitter, stamped `t` by the hardware; `time` is the time it carries. `kind`: 0 Announce, 1 one-step Sync,
2 two-step Sync, 3 Follow_Up, 4 Delay_Resp (PRESUMED, log 23: the numbers and the arithmetic are those of IEEE 1588). -/
def State.ptpFrame (s : State) (kind : Nat) (who : List Nat) (time t : Nat) : State :=
  let best := decide (s.bestForeign = some who)
  match kind with
  | 0 => s.heard who
  | 1 => s.when best (fun s => s.syncTaken time t)
  | 2 => s.when best (fun s => { s with tm := { s.tm with syncAt := some (who, t) } })
  | 3 => (match s.tm.syncAt with
    | some (w, t2) => s.when (best && w == who) (fun s => s.syncTaken time t2)
    | none => s)
  | 4 => s.when best (fun s => s.delayTaken time)
  | _ => s

/-- Whether the device is ready: until then no Ethernet port carries other traffic than a start's (R361). -/
def State.ready (s : State) : Bool := s.fld fMG_START_STATUS_STATE == 1

/-- R319, R321: a PTP frame of the domain on the port and sub-port of TM_DISC_CFG, stamped `frac` / 256 of a count after the count
now; the servo runs in the innkeeper's firmware (R432). `time` is in 1/256 count. -/
def execPtpSample (kind port sub domain : Nat) (who : List Nat) (time frac : Nat) (s : State) : Outcome :=
  s.guard (s.ready && s.fld fTM_DISC_CFG_SOURCE == 1 && s.mg.ctrl == 0 && s.fld fTM_DISC_CFG_PORT == port &&
    s.fld fTM_DISC_CFG_SUBPORT == sub && s.fld fTM_DISC_CFG_DOMAIN == domain)
    (fun s => s.ptpFrame kind who time (256 * s.now + frac % 256))

/-- R321: a Delay_Req sent on the port of TM_DISC_CFG and stamped, to 1/256 count. -/
def execDelayReq (frac : Nat) (s : State) : Outcome :=
  s.guard (s.ready && s.fld fTM_DISC_CFG_SOURCE == 1 && s.mg.ctrl == 0 &&
    s.txOpen (s.fld fTM_DISC_CFG_PORT) (s.fld fTM_DISC_CFG_SUBPORT) none)
    (fun s =>
    ({ s with tm := { s.tm with delayStamp := 256 * s.now + frac % 256 } }.mgmtFrame (s.fld fTM_DISC_CFG_PORT)
      (s.fld fTM_DISC_CFG_SUBPORT)).emit .packet
      (unitPort (s.fld fTM_DISC_CFG_PORT)) 1 [s.fld fTM_DISC_CFG_SUBPORT, s.fld fTM_DISC_CFG_DOMAIN])

/-- R322: the counts between two edges. -/
def State.tickPeriod (s : State) : Nat := if s.is fTM_DISC_CFG_TICK_RATE then 250000 else 250000000

/-- R322: a rejected edge; one record a second. -/
def State.tickRejected (s : State) : State :=
  let sec := s.now / 250000000 + 1
  let first := s.tm.rejectedSec != sec
  let s := (s.sat fTM_DISC_STATUS_REJECTED 0 0 1).when first (fun s => s.event 0x5103 unitHub)
  { s with tm := { s.tm with rejectedSec := sec } }

/-- R322: an edge stamped `frac` / 256 of a count after the count now. The hardware stamps, accepts or rejects it; the sample goes to
the innkeeper's servo (R319), which a controller that is down does not run (R432). -/
def State.tickEdge (s : State) (frac : Nat) : State :=
  let off : Int := (256 * s.now + frac % 256 : Nat) - (256 * s.fld fTM_TICK_NEXT_COUNT : Nat)
  let first := s.fld fTM_DISC_STATUS_DISC_STATE == 0 || !s.tm.everTicked
  let next := s.wrap fTM_TICK_NEXT_COUNT 0 0 s.tickPeriod
  if 256 * s.fld fTM_DISC_CFG_TICK_WINDOW < off.natAbs && !first then next.tickRejected
  else next.when (s.mg.ctrl == 0) (fun s => s.sample off)

def execSiteTickEdge (frac : Nat) (s : State) : Outcome :=
  s.guard (s.fld fTM_DISC_CFG_SOURCE == 2) (fun s => s.tickEdge frac)

/-- R323: no valid sample for 3 s, or for 3 expected ticks. -/
def execDisciplineHoldover (s : State) : Outcome :=
  let st := s.fld fTM_DISC_STATUS_DISC_STATE
  let src := s.fld fTM_DISC_CFG_SOURCE
  let gap := if src = 1 then 750000000 else 3 * s.tickPeriod
  s.guard ((st == 1 || st == 2) && (src == 1 || src == 2) && decide (s.tm.lastSample + gap ≤ s.now)) (fun s =>
    let s := { s with tm := { s.tm with samples := 0 } }
    ((s.put fTM_DISC_STATUS_DISC_STATE 0 0 4).event 0x5102 unitHub).stick fTM_DISC_STATUS_LOST)

/-- The master count set, forward or backward; a forward move skips counts (R320). -/
def State.setCount (s : State) (v : Nat) : State :=
  let old := s.now
  let s := s.put fTM_SITE_NOW_COUNT 0 0 v
  { s with tm := { s.tm with jump := if old < s.now then some (old, s.now) else none } }

/-- R320: TM_STEP_FWD. -/
def State.stepForward (s : State) (amount : Nat) : State :=
  if !s.is fTM_DISC_STATUS_STEP_NEEDED then s
  else ((s.setCount (s.now + amount)).put fTM_DISC_STATUS_STEP_NEEDED 0 0 0).event 0x5104 unitHub (leBytes 4 amount)

def execStepForward (rq : Rq) (amount : Nat) (s : State) : Outcome :=
  .next (s.csAct rq (tmAddr 0x20) (fun s => s.stepForward amount))

/-- R320: TM_SITE_NOW written. -/
def State.siteNowWrite (s : State) (v : Nat) : State :=
  if s.anyOpen || s.tmBusy then s.tmIgnore
  else
    let old := s.now
    ({ s with tm := { s.tm with skew := [] } }.setCount v).event 0x5104 unitHub (leBytes 8 old ++ leBytes 8 v)

def execSiteNowWrite (rq : Rq) (v : Nat) (s : State) : Outcome :=
  .next (s.csAct rq (tmAddr 0) (fun s => s.siteNowWrite (v % 2 ^ 64)))

/-- R324: a pulse begins at a 1 s boundary. -/
def execSiteTickOutPulse (s : State) : Outcome :=
  s.guard (s.atBoundary 250000000 && s.fld fTM_DISC_CFG_OUT_WIDTH != 0) (fun s =>
    { s with pins := { s.pins with siteTickOut := true }, tm := { s.tm with pulseAt := s.now } })

/-- R324: it ends OUT_WIDTH ms later. -/
def execSiteTickOutEnd (s : State) : Outcome :=
  s.guard (s.pins.siteTickOut && decide (s.tm.pulseAt + 250000 * s.fld fTM_DISC_CFG_OUT_WIDTH ≤ s.now)) (fun s =>
    { s with pins := { s.pins with siteTickOut := false } })

/-- R325: the least voltage the fused points allow at a frequency. -/
def State.fusedMv (s : State) (mhz : Nat) : Option Nat :=
  ((List.range 8).find? (fun i => decide (mhz ≤ s.fld fTM_FUSE_VF_MHZ 0 i))).map (fun i => s.fld fTM_FUSE_VF_MV 0 i)

/-- R325: whether an entry's value is acceptable. -/
def State.stepEntryOk (s : State) (i mhz mv unc : Nat) : Bool :=
  let lo := i == 0 || (decide (s.fld fTM_STEP_TABLE_MHZ 0 (i - 1) ≤ mhz) && decide (s.fld fTM_STEP_TABLE_MV 0 (i - 1) ≤ mv))
  let hi := i == 7 || (decide (mhz ≤ s.fld fTM_STEP_TABLE_MHZ 0 (i + 1)) && decide (mv ≤ s.fld fTM_STEP_TABLE_MV 0 (i + 1)))
  let fused := match s.fusedMv mhz with
    | some v => decide (v ≤ mv)
    | none => false
  mhz != 0 && unc != 0 && mhz % 25 == 0 && unc % 25 == 0 && decide (mhz ≤ s.fld fTM_FUSE_LIMITS_FMAX) &&
    decide (s.fld fTM_FUSE_LIMITS_VMIN ≤ mv) && decide (mv ≤ s.fld fTM_FUSE_LIMITS_VMAX) && fused && lo && hi

/-- R325: whether an entry is in force in a region, or the target of a pending switch. -/
def State.stepEntryUsed (s : State) (i : Nat) : Bool :=
  (List.range 49).any (fun r => s.fld fTM_REGION_STEP_IN_FORCE 0 r == i) ||
    (match s.tm.switch with
      | some w => w.target == i
      | none => false)

/-- R325: TM_STEP_TABLE[i] written. -/
def State.stepTableWrite (s : State) (i w : Nat) : State :=
  if s.tmBusy || s.stepEntryUsed i then s.tmIgnore
  else if s.stepEntryOk i (fieldOf 0 12 w) (fieldOf 12 10 w) (fieldOf 32 12 w) then
    s.writeRw rTM_STEP_TABLE 0 i (BitVec.ofNat 64 w)
  else (s.stick fTM_DISC_STATUS_STEP_REFUSED).event 0x5108 unitHub

def execStepTableWrite (rq : Rq) (i w : Nat) (s : State) : Outcome :=
  s.guard (decide (i < 8)) (fun s => s.csAct rq (tmAddr (0x100 + 8 * i)) (fun s => s.stepTableWrite i w))

/-- R327 step 1: S of a switch asked for now. -/
def State.switchCount (s : State) (count : Nat) : Nat × Bool :=
  let lead := max 50000 (s.fld fTM_STEP_CFG_MIN_LEAD)
  if s.now + lead ≤ count then (count, false) else (250 * ((s.now + lead + 249) / 250), true)

/-- R327: TM_SWITCH_COUNT written. -/
def State.startSwitch (s : State) (target count : Nat) : State :=
  if s.tmBusy then s.tmIgnore
  else
    let s := (s.put fTM_SWITCH_COUNT_TARGET 0 0 target).put fTM_SWITCH_COUNT_COUNT 0 0 count
    let c := s.switchCount count
    let w : Switch := ⟨c.1, target, s.fld fTM_STEP_TARGET_TARGET, false, []⟩
    (({ s with tm := { s.tm with switch := some w } }.put fTM_STEP_STATUS_PENDING 0 0 1).cutRuns (fun _ => true)).when c.2 (fun s =>
      s.stick fTM_STEP_STATUS_SWITCH_LATE)

def execSwitchCountWrite (rq : Rq) (target count : Nat) (s : State) : Outcome :=
  .next (s.csAct rq (tmAddr 0x200) (fun s => s.startSwitch (target % 8) (count % 2 ^ 61)))

/-- R335: a step that its regulator carries needs no limit of issue duty. -/
def State.easeDuty (s : State) (r : Nat) : State :=
  s.when (decide (s.fld fTM_REGION_STEP_IN_FORCE 0 r ≤ s.ceilAt .regulator r)) (fun s =>
    { s with pw := { s.pw with currentLeft := nput s.pw.currentLeft r 0 } })

/-- A region's clock moved to the step due. -/
def State.moveClock (s : State) (r : Nat) : State := ((s.put fTM_REGION_STEP_IN_FORCE 0 r (s.stepDue r)).ceilShow r).easeDuty r

/-- R317, R327 step 3: whether a region's count has reached S. -/
def State.reached (s : State) (w : Switch) (r : Nat) : Bool := decide (w.at_ ≤ s.regionNow r)

/-- R327 step 3: the switch at S; the regions of `late` are not ready, each for its reason. A region whose count has not reached S
yet is noted with reason 0. -/
def State.switchAtS (s : State) (w : Switch) (late : List (Nat × Nat)) : State :=
  let behind := ((List.range 49).filter (fun r => !s.reached w r)).map (fun r => (r, 0))
  let l := late.filter (fun p => decide (p.1 < 49) && s.reached w p.1) ++ behind
  let s := s.put fTM_STEP_TARGET_TARGET 0 0 w.target
  let s := { s with tm := { s.tm with switch := some { w with done := true, notReady := l } } }
  s.forEach (List.range 49) (fun r s => if l.any (fun p => p.1 == r) then s.ceilShow r else s.moveClock r)

def execFrequencySwitch (late : List (Nat × Nat)) (s : State) : Outcome :=
  match s.tm.switch with
  | none => .next s
  | some w => s.guard (!w.done && (List.range 49).any (fun r => s.reached w r)) (fun s => s.switchAtS w late)

/-- A region of a switch leaves the list of those still to move, and moves. -/
def State.switchRegion (s : State) (w : Switch) (p : Nat × Nat) : State :=
  { s with tm := { s.tm with switch := some { w with notReady := w.notReady.erase p } } }.moveClock p.1

/-- R327 step 4: a late region switches at a 1 µs boundary. -/
def State.lateSwitch (s : State) (w : Switch) (p : Nat × Nat) : State :=
  ((s.switchRegion w p).stick fTM_STEP_STATUS_SWITCH_LATE).event 0x5107 (regionUnit p.1)
    [BitVec.ofNat 8 p.1, BitVec.ofNat 8 p.2]

/-- R327 steps 3 and 4: a region that was not ready at S switches at a 1 µs boundary of its own; one whose count comes to S after
the others', then. -/
def execRegionLateSwitch (r : Nat) (s : State) : Outcome :=
  match s.tm.switch with
  | none => .next s
  | some w => match w.notReady.find? (fun p => p.1 == r) with
    | none => .next s
    | some p =>
      if p.2 = 0 then s.guard (w.done && s.reached w r) (fun s => s.switchRegion w p)
      else s.guard (w.done && s.regionBoundary r 250 && decide (w.at_ < s.regionNow r)) (fun s => s.lateSwitch w p)

/-! ### Reloading a region's copy (R318) -/

/-- R318: acts of a region whose counts lay between its wrong copy and the count loaded take place at once, marked late where
their record has a place for it: its part of a frequency switch, then WAIT_TIME records of its sequencer. -/
def State.skippedActs (s : State) (r : Nat) : State :=
  let s : State := match s.tm.switch with
    | some w => (match w.notReady.find? (fun p => p.1 == r) with
      | some p => s.when (p.2 == 0 && decide (w.at_ ≤ s.now)) (fun s => s.lateSwitch w p)
      | none => s)
    | none => s
  s.forEach (List.range 16) (fun i s => match s.waitOf (slotKey r i) with
    | some w => s.when (decide (r < 48) && s.fld fSQ_SLOT_WAIT r i == 4 && decide (w.need ≤ s.now)) (fun s => s.waitMet r i)
    | none => s)

/-- R318: a region whose copy is wrong loads the master count. -/
def State.reloadRegion (s : State) (r : Nat) : State :=
  s.when (nget s.tm.skew r != 0) (fun s =>
    ({ s with tm := { s.tm with skew := nput s.tm.skew r 0 } }.event 0x5105 (regionUnit r)).skippedActs r)

/-- A region's copy goes wrong by k counts. -/
def State.skewRegion (s : State) (r k : Nat) : State :=
  s.when (decide (r < 49)) (fun s => { s with tm := { s.tm with skew := nput s.tm.skew r (k % 2 ^ 64) } })

/-- R318: at a 1 ms boundary every region compares its copy with the sync word. `faults` are the regions whose copies go wrong
before the next one, each with what it then lies ahead by, modulo 2^64. -/
def execRegionSyncCheck (faults : List (Nat × Nat)) (s : State) : Outcome :=
  s.guard (s.atBoundary 250000) (fun s =>
    (s.forEach (List.range 49) (fun r s => s.reloadRegion r)).forEach faults (fun (p : Nat × Nat) s => s.skewRegion p.1 p.2))

/-- R327 step 6: every region has switched and settled. -/
def execFrequencySwitchComplete (s : State) : Outcome :=
  match s.tm.switch with
  | none => .next s
  | some w => s.guard (w.done && w.notReady == []) (fun s =>
      ({ s with tm := { s.tm with switch := none } }.put fTM_STEP_STATUS_PENDING 0 0 0).event 0x5106 unitHub
        ([BitVec.ofNat 8 w.old, BitVec.ofNat 8 w.target] ++ leBytes 8 w.at_))

/-- R329: a region moves to the step its ceilings now allow, at a 1 µs boundary, once its synthesiser and voltage are
ready. A region late for a switch moves with REGION_LATE_SWITCH. A dressing run of its cluster is interrupted (R299). -/
def execRegionCeilingSwitch (r : Nat) (s : State) : Outcome :=
  let late := match s.tm.switch with
    | some w => w.notReady.any (fun p => p.1 == r)
    | none => false
  s.guard (decide (r < 49) && s.regionBoundary r 250 && !late) (fun s =>
    (s.moveClock r).when (s.stepDue r != s.fld fTM_REGION_STEP_IN_FORCE 0 r) (fun s => s.cutRuns (fun c => c == r)))

/-- R299: at a 1 s boundary the innkeeper starts a dressing run; the runs of leases come first (R445). -/
def execDressingSchedule (s : State) : Outcome :=
  s.guard (s.atBoundary 250000000 && s.is fMG_DRESS_CFG_EN && s.mg.ctrl == 0 && s.fld fMG_START_STATUS_STATE == 1 &&
      s.actFirst 8)
    (fun s =>
      let s := ((s.forEach s.allActive (fun u s => s.overdueCheck u)).showOverdue).leaseRuns
      if max 1 (s.fld fMG_DRESS_CFG_MAX_CONC) ≤ s.runsIn (fun _ => true) then s
      else match s.earliest (s.allActive.filter (fun u => s.dressReady u)) with
        | none => s
        | some u => s.startDress u)

end Sys2Proof.Machine
end

