-- ==== Sys2Proof/Machine/Power.lean ====
section
/-! DEFINITION. Commands of power, capping, ramps and heat (12_power_delivery_and_capping.md R333-R357): regulator phases,
measurement and calibration, the limiter and its throttles, caps, shedding, ramp notices, the cap schedule, the sensors, the
thermal loop and the switching off of a field's routers. -/

namespace Sys2Proof.Machine

/-- R357: a power event of the device names a power domain; which, the spec leaves open (log 9). -/
def State.pwEvent (s : State) (e outcome way stream : Nat) (detail : List (BitVec 8)) : State :=
  let (k, s) := s.draw
  let ev : Ev := { event := e, unit := unitDomain ((Config.free32 k).toNat % 50), outcome := outcome, waybill := way,
                   stream := stream, detail := detail }
  s.record ev

/-- R355: limits that start to bind below the target are counted, one kind at a time, for each cluster they bind. The power
limit's duty and pause bind every cluster alike. -/
def State.overridePower (s : State) : State :=
  let below := (List.range 48).filter (fun c => decide (s.ceilAt .power c < s.fld fTM_STEP_TARGET_TARGET))
  let n := if s.pw.dutyLowSince.isSome || s.pw.gangPause then 48 else below.length
  let b := n != 0
  let s := s.when (b && !s.pw.bindPower) (fun s => (s.wrap fPW_OVERRIDE_COUNT_POWER 0 0 n).stick fPW_STATUS_OVR_POWER)
  { s with pw := { s.pw with bindPower := b } }

def State.boundBy (s : State) (k : Loop) : List Nat :=
  (List.range 48).filter (fun c => decide (s.ceilAt k c < s.fld fTM_STEP_TARGET_TARGET))

def State.overrideHeat (s : State) : State :=
  let b := s.boundBy .thermal
  let n := (b.filter (fun c => !s.pw.bindThermal.contains c)).length
  let s := s.when (n != 0) (fun s => (s.wrap fPW_OVERRIDE_COUNT_THERMAL 0 0 n).stick fPW_STATUS_OVR_THERMAL)
  { s with pw := { s.pw with bindThermal := b } }

def State.overrideRegulator (s : State) : State :=
  let b := s.boundBy .regulator
  let n := (b.filter (fun c => !s.pw.bindRegulator.contains c)).length
  let s := s.when (n != 0) (fun s => (s.wrap fPW_OVERRIDE_COUNT_REGULATOR 0 0 n).stick fPW_STATUS_OVR_REGULATOR)
  { s with pw := { s.pw with bindRegulator := b } }

def State.overrides (s : State) : State := (s.overridePower.overrideHeat).overrideRegulator

/-- Table 12.1: phases of a domain. -/
def phasesOf (d : Nat) : Nat := if d < 48 then 4 else if d = 48 then 24 else 16

/-- R334, R352, R354: every clock outside the VSTBY domain stops. -/
def State.stopDevice (s : State) : State := { s with pw := { s.pw with stopped := true } }

def State.failedPhases (s : State) (d : Nat) : Nat :=
  ((List.range (phasesOf d)).filter (fun i => (s.fld fPW_PHASE_STATUS_FAILED 0 d).testBit i)).length

/-- R335: a cluster that runs at a step its remaining phases cannot carry keeps within the rated current left, by its issue duty. -/
def State.limitDuty (s : State) (c amps : Nat) : State :=
  s.when (decide (s.ceilAt .regulator c < s.fld fTM_REGION_STEP_IN_FORCE 0 c)) (fun s =>
    { s with pw := { s.pw with currentLeft := nput s.pw.currentLeft c amps } })

/-- Table 12.2: a core domain with failed phases. -/
def State.coreDomain (s : State) (d phase n : Nat) : State :=
  if n = 1 then s.event 0x5201 (unitDomain d) [BitVec.ofNat 8 phase]
  else if n = 2 then ((s.event 0x5202 (unitDomain d)).setCeil .regulator d (some 4)).limitDuty d 32
  else (s.event 0x5203 (unitDomain d)).fenceCluster d 3

/-- Table 12.2: a regulator ceiling of step 4 on every cluster. -/
def State.ceilAll (s : State) : State :=
  s.forEach (List.range 48) (fun c s => s.setCeil .regulator c (some 4))

/-- R260, Table 12.2: HBM held at 8.0 Gbit/s or below. -/
def State.holdHbm (s : State) : State :=
  let s := { s with hbm := { s.hbm with rateMax := 1 } }
  s.forEach ((List.range 12).filter (fun k => decide (1 < s.fld fHB_STATUS_RATE_NOW k))) (fun k s => s.armRate k (s.now + 2500))

/-- Table 12.2: the device stopped, with FAULT_N asserted (R441). -/
def State.stopFaulted (s : State) : State :=
  let t := s.stopDevice
  { t with pins := { t.pins with faultN := false } }

/-- Table 12.2: VNET and VSRAM: no change up to `keep` failed phases, a ceiling up to twice as many, then a stop. -/
def State.sharedDomain (s : State) (d n : Nat) : State :=
  let keep := if d = 48 then 4 else 2
  if n ≤ keep then s.event 0x5204 (unitDomain d)
  else if n ≤ 2 * keep then
    let s := (s.event 0x5204 (unitDomain d) [4#8]).ceilAll
    s.when (d == 48) State.holdHbm
  else (s.event 0x5205 (unitDomain d)).stopFaulted

/-- R334: a phase disabled, listed, and its domain's behaviour. -/
def State.phaseFault (s : State) (d phase : Nat) : State :=
  let s := (s.putBit fPW_PHASE_STATUS_FAILED 0 d phase true).stick fPW_STATUS_PHASE_FAILED
  let s := s.addDefect 5 (unitDomain d) phase
  let n := s.failedPhases d
  (if d < 48 then s.coreDomain d phase n else s.sharedDomain d n).overrides

def execPhaseFault (d phase : Nat) (s : State) : Outcome :=
  s.guard (decide (d < 50) && decide (phase < phasesOf d) && !(s.fld fPW_PHASE_STATUS_FAILED 0 d).testBit phase)
    (fun s => s.phaseFault d phase)

/-- R336, R337: the means over the last whole 1 ms of one domain: voltage (mV), current (0.1 A), estimate. -/
def State.measureDomain (s : State) (d mv cur : Nat) : State :=
  let n := max 1 s.pw.ticks
  let s := (s.put fPW_DOMAIN_CURRENT_MV 0 d mv).put fPW_DOMAIN_CURRENT_CURRENT 0 d cur
  let s := s.put fPW_DOMAIN_CURRENT_EST 0 d (nget s.pw.estSum d / (100 * n))
  { s with pw := { s.pw with actMean := nput s.pw.actMean d (nget s.pw.actSum d / n),
                             leakMean := nput s.pw.leakMean d (nget s.pw.leakSum d / n) } }

/-- R336: `vals` are the voltage and current means that the regulators measured, by domain. -/
def execDomainMeasure (vals : List (Nat × Nat)) (s : State) : Outcome :=
  s.guard (s.atBoundary 250000) (fun s =>
    let s := s.forEach (List.range 50) (fun d s =>
      let v := vals.getD d (0, 0)
      s.measureDomain d v.1 v.2)
    { s with pw := { s.pw with estSum := [], actSum := [], leakSum := [], ticks := 0 } })

/-- R338: gain (2^-16) and offset (0.01 W) of the least-squares line through the pairs; none when they fix no line. -/
def fitLine (ps : List (Int × Int)) : Option (Int × Int) :=
  let n : Int := ps.length
  let sx := ps.foldl (fun a p => a + p.1) 0
  let sy := ps.foldl (fun a p => a + p.2) 0
  let sxx := ps.foldl (fun a p => a + p.1 * p.1) 0
  let sxy := ps.foldl (fun a p => a + p.1 * p.2) 0
  let den := n * sxx - sx * sx
  if den = 0 then none
  else some (65536 * (n * sxy - sx * sy) / den, (sy * den - (n * sxy - sx * sy) * sx) / (n * den))

/-- R338: the limits of a fit. -/
def fitOk (d : Nat) (f : Int × Int) : Bool :=
  let r : Int := (Config.ratedPower d).toNat
  decide (32768 ≤ f.1) && decide (f.1 ≤ 131072) && decide (5 * f.2 ≤ r) && decide (-r ≤ 5 * f.2)

/-- R338: one domain's new pair, and the refit over its newest 64 pairs. With pairs of one activity the line is not fixed,
and its gain is a free value (log 9). -/
def State.calibrate (s : State) (d : Nat) : State :=
  let power : Int := (s.fld fPW_DOMAIN_CURRENT_CURRENT 0 d * s.fld fPW_DOMAIN_CURRENT_MV 0 d / 100 : Nat)
  let x : Int := nget s.pw.actMean d
  let mine := ((d, x, power - nget s.pw.leakMean d) :: s.pw.pairs.filter (fun p => p.1 == d)).take 64
  let s := { s with pw := { s.pw with pairs := mine ++ s.pw.pairs.filter (fun p => p.1 != d) } }
  if mine.length < 64 then s
  else
    let ps := mine.map (fun p => p.2)
    let (k, s) := s.draw
    let g : Int := (Config.free32 k).toNat
    let mean := ps.foldl (fun a p => a + (65536 * p.2 - g * p.1)) 0 / (65536 * 64)
    let f := (fitLine ps).getD (g, mean)
    if fitOk d f then
      (s.put fPW_DOMAIN_CAL_GAIN 0 d f.1.toNat).put fPW_DOMAIN_CAL_OFFSET 0 d (f.2 % 2 ^ 32).toNat
    else (s.event 0x5209 (unitDomain d)).stick fPW_STATUS_CAL_LIMIT

def execEstimatorCalibration (s : State) : Outcome :=
  s.guard (s.atBoundary 250000) (fun s => s.forEach (List.range 50) (fun d s => s.calibrate d))

/-- R337: a domain's estimate, 0.01 W, from its activity and leakage. -/
def State.domainEst (s : State) (d act leak : Nat) : Nat :=
  ((s.fld fPW_DOMAIN_CAL_GAIN 0 d * act / 65536 : Nat) + signed 32 (s.fld fPW_DOMAIN_CAL_OFFSET 0 d) + (leak : Int)).toNat

/-- R337: the estimates of the microsecond that has passed, added to the sums of the current 1 ms; the package estimate
in mW. -/
def State.estimate (s : State) (acts leaks : List Nat) (board : Nat) : Nat × State :=
  let es := (List.range 50).map (fun d => (d, s.domainEst d (acts.getD d 0) (leaks.getD d 0)))
  let add := fun (m : SMap Nat) (f : Nat → Nat) => (List.range 50).foldl (fun m d => nput m d (nget m d + f d)) m
  let est := es.foldl (fun m p => nput m p.1 (nget m p.1 + p.2)) s.pw.estSum
  let s := { s with pw := { s.pw with estSum := est, actSum := add s.pw.actSum (fun d => acts.getD d 0),
                                      leakSum := add s.pw.leakSum (fun d => leaks.getD d 0), ticks := s.pw.ticks + 1 } }
  let total := es.foldl (fun a p => a + p.2) 0
  (10 * (1000 * total / max 1 Config.regulatorEff.toNat + board), s)

/-- R340: g times a cap in W, in mW. -/
def State.guarded (s : State) (cap : Nat) : Nat := (1000 - s.fld fPW_CFG_GUARD) * cap

/-- R339, R340: the caps take effect; a fall limits the history. -/
def State.takeCaps (s : State) : State :=
  let su := s.fld fPW_CAP_SUSTAINED_CAP
  let pk := s.fld fPW_CAP_PEAK_CAP
  let hs := if su < s.pw.sustNow then s.pw.hs.map (fun x => min x (s.guarded su)) else s.pw.hs
  let hp := if pk < s.pw.peakNow then s.pw.hp.map (fun x => min x (s.guarded pk)) else s.pw.hp
  { s with pw := { s.pw with hs := hs, hp := hp, sustNow := su, peakNow := pk } }

def sumNat (l : List Nat) : Nat := l.foldl (fun a x => a + x) 0

/-- R340: the power permitted for the coming microsecond, mW. -/
def State.permitted (s : State) (p : Nat) : Nat :=
  let a1 := 1000000 * s.guarded s.pw.sustNow - sumNat (s.pw.hs.take 999999)
  let a2 := 1000 * s.guarded s.pw.peakNow - sumNat (s.pw.hp.take 999)
  let a := min a1 a2
  let a := if s.pins.shedN then a else min a (s.guarded (s.fld fPW_SHED_CAP_CAP))
  min a (p + 1000 * s.riseNow)

/-- Classes of Table 12.3 that are throttled, and those at their limit, for throttle settings. -/
def classOn (duty gate pace hbm : Nat) (k : Nat) : Bool :=
  match k with
  | 0 => decide (duty < 16)
  | 1 => gate != 0 || hbm == 1
  | _ => decide (pace < 1000)

def State.classFull (s : State) (duty : Nat) (pause : Bool) (gate pace : Nat) (k : Nat) : Bool :=
  match k with
  | 0 => duty == 1 && pause && (List.range 48).all (fun c => s.ceilAt .power c == 0)
  | 1 => gate == 2 && (List.range 12).all (fun n => s.fld fHB_STATUS_RATE_NOW n == 0)
  | _ => pace == 250

/-- Settings of a class than which there are no tighter ones: what is left to it, ceilings and data rates, takes time. -/
def classMost (duty : Nat) (pause : Bool) (gate pace : Nat) (k : Nat) : Bool :=
  match k with
  | 0 => duty == 1 && pause
  | 1 => gate == 2
  | _ => pace == 250

/-- R343: whether throttles are tighter, or looser, than those in force. -/
def State.tighter (s : State) (duty : Nat) (pause : Bool) (gate pace hbm : Nat) : Bool :=
  decide (duty < s.fld fPW_STATUS_DUTY + 1) || (pause && !s.pw.gangPause) || decide (s.pw.cmGate < gate) ||
    decide (pace < s.pw.linkPace) || hbm == 1

def State.looser (s : State) (duty : Nat) (pause : Bool) (gate pace hbm : Nat) : Bool :=
  decide (s.fld fPW_STATUS_DUTY + 1 ≤ duty) && (!pause || s.pw.gangPause) && decide (gate ≤ s.pw.cmGate) &&
    decide (s.pw.linkPace ≤ pace) && hbm != 1

/-- R340, R343: settings that keep the order of the classes; that throttle where the demand exceeds a, and the more while the
estimate p exceeds it, up to the limits; and that tighten nothing while the demand is permitted. -/
def State.throttlesOk (s : State) (duty : Nat) (pause : Bool) (gate pace hbm demand p a : Nat) : Bool :=
  let on := classOn duty gate pace hbm
  let full := s.classFull duty pause gate pace
  let most := classMost duty pause gate pace
  let c1 := s.fld fPW_PRIORITY_FIRST
  let c2 := s.fld fPW_PRIORITY_SECOND
  let c3 := s.fld fPW_PRIORITY_LAST
  let order := (!on c2 || full c1) && (!on c3 || (full c1 && full c2))
  let range := decide (1 ≤ duty) && decide (duty ≤ 16) && (!pause || duty == 1) && decide (gate ≤ 2) &&
    decide (250 ≤ pace) && decide (pace ≤ 1000) && decide (hbm ≤ 2) && (hbm != 1 || gate == 2)
  let waits := (most c1 && !full c1) || (full c1 && most c2 && !full c2) || (full c1 && full c2 && most c3)
  let enough := decide (p ≤ a) || s.tighter duty pause gate pace hbm || waits
  order && range && (if a < demand then on c1 && enough else s.looser duty pause gate pace hbm)

/-- R260, R343: the data rate of every stack one lower (1) or one higher (2), 10 µs ahead. -/
def State.moveRates (s : State) (hbm : Nat) : State :=
  let f := fun (s : State) (k : Nat) (r : Nat) => (s.put fHB_RATE_CTRL_TARGET k 0 r).armRate k (s.now + 2500)
  match hbm with
  | 1 => s.forEach ((List.range 12).filter (fun k => s.fld fHB_STATUS_RATE_NOW k != 0)) (fun k s =>
      f s k (s.fld fHB_STATUS_RATE_NOW k - 1))
  | 2 => s.forEach ((List.range 12).filter (fun k => decide (s.fld fHB_STATUS_RATE_NOW k < 2))) (fun k s =>
      f s k (s.fld fHB_STATUS_RATE_NOW k + 1))
  | _ => s

/-- R344: since when duty has been reduced, or full with a tenth to spare. -/
def State.dutyTimes (s : State) (duty p a : Nat) : State :=
  let low := if duty < 16 then some (s.pw.dutyLowSince.getD s.now) else none
  let full := if duty = 16 ∧ 11 * p ≤ 10 * a then some (s.pw.dutyFullSince.getD s.now) else none
  { s with pw := { s.pw with dutyLowSince := low, dutyFullSince := full } }

/-- R353: every throttle at its limit and the estimate above a. -/
def State.unreachableCheck (s : State) (duty : Nat) (pause : Bool) (gate pace p a : Nat) : State :=
  let u := decide (a < p) && (List.range 3).all (fun k => s.classFull duty pause gate pace k)
  let s := s.when (u && !s.pw.unreachable) (fun s => (s.stick fPW_STATUS_CAP_UNREACHABLE).pwEvent 0x520C 0 0 0 [])
  { s with pw := { s.pw with unreachable := u } }

/-- R346: windows that open now are counted from the estimate of this microsecond. -/
def State.openWindows (s : State) (p : Nat) : State :=
  let f := fun (n : Notice) => if n.start ≤ s.now ∧ n.base = none then { n with base := some p } else n
  { s with pw := { s.pw with notices := s.pw.notices.map f } }

/-- The estimate of the microsecond that has passed takes its place in the histories. -/
def State.history (s : State) (p : Nat) : State :=
  let s := { s with pw := { s.pw with hs := (p :: s.pw.hs).take 1000000, hp := (p :: s.pw.hp).take 1000,
                                      limitAt := s.now + 1 } }
  (s.put fPW_STATUS_P 0 0 (min 65535 (p / 1000))).openWindows (p / 1000)

/-- R342: whether falls of the estimate are limited: BALLAST, SHED_N high, no cluster stopped for heat. -/
def State.ballastOn (s : State) : Bool :=
  s.is fPW_SLOPE_BALLAST && s.pins.shedN && (List.range 48).all (fun c => nget s.pw.thermStop c == 0)

/-- R340, R342: the least the estimate of the coming microsecond falls to; ceilings win over the floor. -/
def State.setFloor (s : State) (p a : Nat) : State :=
  let fall := 1000 * max 1 (min 1000 (s.fld fPW_SLOPE_FALL))
  { s with pw := { s.pw with floor := if s.ballastOn then min a (p - fall) else 0 } }

/-- R340-R345, R353, R355: the limiter at a 1 µs boundary, once the past microsecond's estimate stands. -/
def State.limit (s : State) (p demand duty : Nat) (pause : Bool) (gate pace hbm : Nat) : State :=
  let a := s.permitted p
  let s := (s.put fPW_STATUS_A 0 0 (min 65535 (a / 1000))).setFloor p a
  if !s.throttlesOk duty pause gate pace hbm demand p a then s
  else
    let s := s.put fPW_STATUS_DUTY 0 0 (duty - 1)
    let s := { s with pw := { s.pw with gangPause := pause, cmGate := gate, linkPace := pace } }
    (((s.moveRates hbm).dutyTimes duty p a).unreachableCheck duty pause gate pace p a).overrides

/-- R342: an estimate with the ballast passes that keep it at the floor. -/
def State.ballasted (s : State) (p : Nat) : Nat := if s.ballastOn then max p s.pw.floor else p

/-- R337, R340, R343: at a 1 µs boundary. The past microsecond's activity and leakage of each domain and the draw of the
board-supplied rails (0.01 W) and the demand of the coming one (mW) are measured; the throttles are set as given, where
Table 12.3 lets them: issue duty in 16ths, gang pause, bank gating, transmit pace per mille, HBM rates (1 lower, 2 higher). -/
def execLimiterTick (acts leaks : List Nat) (board demand duty : Nat) (pause : Bool) (gate pace hbm : Nat) (s : State) :
    Outcome :=
  s.guard (s.atBoundary 250 && s.pw.limitAt != s.now + 1 && !s.pw.stopped) (fun s =>
    let e := s.estimate acts leaks board
    let p := e.2.ballasted e.1
    (e.2.history p).takeCaps.limit p demand duty pause gate pace hbm)

/-- R339: a value in a range, and whether it had to be moved. -/
def clampTo (lo hi x : Nat) : Nat × Bool := (max lo (min hi x), decide (x < lo) || decide (hi < x))

/-- R339: a cap written: 0 sustained, 1 peak, 2 shed. -/
def State.capWrite (s : State) (which v : Nat) : State :=
  let su := s.fld fPW_CAP_SUSTAINED_CAP
  let pk := s.fld fPW_CAP_PEAK_CAP
  let r := match which with
    | 0 => clampTo 600 (min 2400 pk) v
    | 1 => clampTo su 2800 v
    | _ => clampTo 600 pk v
  let f := match which with
    | 0 => fPW_CAP_SUSTAINED_CAP
    | 1 => fPW_CAP_PEAK_CAP
    | _ => fPW_SHED_CAP_CAP
  (s.put f 0 0 r.1).when r.2 (fun s => (s.stick fPW_STATUS_CAP_CLAMPED).pwEvent 0x520B 0 0 0 [])

def execCapWrite (rq : Rq) (which v : Nat) (s : State) : Outcome :=
  s.guard (decide (which < 3)) (fun s => s.csAct rq (pwAddr (8 * which)) (fun s => s.capWrite which (v % 4096)))

/-- R341, R463: SHED_N has been low for 1 µs; it is not sampled while PWR_GOOD is low. -/
def execShedAssert (s : State) : Outcome :=
  s.guard (s.pins.shedN && s.pins.pwrGood) (fun s =>
    let s := { s with pins := { s.pins with shedN := false } }
    ((s.put fPW_STATUS_SHED 0 0 1).stick fPW_STATUS_SHED_SEEN).pwEvent 0x5206 0 0 0 [])

/-- R341, R463: SHED_N has been high for 1 µs. -/
def execShedRelease (s : State) : Outcome :=
  s.guard (!s.pins.shedN && s.pins.pwrGood) (fun s =>
    let s := { s with pins := { s.pins with shedN := true } }
    (s.put fPW_STATUS_SHED 0 0 0).pwEvent 0x5207 0 0 0 [])

/-- R344: the power ceiling of every cluster falls one step. -/
def execPowerCeilingLower (s : State) : Outcome :=
  match s.pw.dutyLowSince with
  | none => .next s
  | some t => s.guard (decide (t + 250000 * s.fld fPW_CFG_DWELL ≤ s.now)) (fun s =>
      let s := s.forEach (List.range 48) (fun c s => s.setCeil .power c (some (s.ceilAt .power c - 1)))
      { s with pw := { s.pw with dutyLowSince := some s.now } }.overrides)

/-- R344: it rises one step after 20 ms. -/
def execPowerCeilingRaise (s : State) : Outcome :=
  match s.pw.dutyFullSince with
  | none => .next s
  | some t => s.guard (decide (t + 5000000 ≤ s.now)) (fun s =>
      let s := s.forEach (List.range 48) (fun c s =>
        let n := s.ceilAt .power c + 1
        s.setCeil .power c (if 7 ≤ n then none else some n))
      { s with pw := { s.pw with dutyFullSince := some s.now } }.overrides)

/-- R346: the outputs show the largest code of the notices held. -/
def State.showNotices (s : State) : State :=
  let c := s.pw.notices.foldl (fun a n => max a n.code) 0
  { s with pins := { s.pins with rampNotice := c } }.put fPW_STATUS_NOTICES 0 0 s.pw.notices.length

/-- R347: a notice discarded, with event 0x520A where the rule says so. -/
def State.noticeRefused (s : State) (x : Iss) (event : Bool) : State :=
  (s.stick fPW_STATUS_NOTICE_REFUSED).when event (fun s => s.pwEvent 0x520A 4 x.way x.id [])

/-- R346: a notice held. -/
def State.holdNotice (s : State) (x : Iss) (start stop slope rise : Nat) : State :=
  let late := decide (start < s.now + 50000)
  let n : Notice := ⟨max start (s.now + 50000), stop, min slope (max 1 (s.fld fPW_SLOPE_NOTICE_MAX)), rise,
    min 15 ((rise + 199) / 200), none⟩
  let s := { s with pw := { s.pw with notices := s.pw.notices ++ [n] } }.showNotices
  s.when late (fun s => s.pwEvent 0x520A 0 x.way x.id [])

/-- R189, R346, R347: a notice delivered. -/
def State.deliverNotice (s : State) (x : Iss) : State :=
  let start := x.w 2
  let slope := x.bits 3 0 16
  let rise := x.bits 3 16 16
  let stop := start + 250 * x.bits 3 32 16
  if slope = 0 ∨ rise = 0 then s
  else if stop ≤ s.now then s.noticeRefused x false
  else if s.now + 250000000 < start then s.noticeRefused x true
  else if 8 ≤ s.pw.notices.length then s.noticeRefused x true
  else s.holdNotice x start stop slope rise

def execRampNotice (c i : Nat) (s : State) : Outcome :=
  s.issueNow c i 0x0C (fun x s => (s.deliverNotice x).recDone x)

/-- R346: notices whose windows have ended are held no more. -/
def execRampNoticeExpiry (s : State) : Outcome :=
  .next ({ s with pw := { s.pw with notices := s.pw.notices.filter (fun n => decide (s.now < n.stop)) } }.showNotices)

/-- A wanted cap, or the one in force for a field of 0. -/
def orKeep (v old : Nat) : Nat := if v = 0 then old else v

/-- R349: the caps of an entry settled in the order peak, sustained, shed, each within the values settled before it. -/
def State.schedCaps (s : State) (i : Nat) : (Nat × Nat × Nat) × Bool :=
  let su := orKeep (s.fld fPW_CAP_SCHED1_SUSTAINED 0 i) (s.fld fPW_CAP_SUSTAINED_CAP)
  let pk := clampTo 600 2800 (orKeep (s.fld fPW_CAP_SCHED1_PEAK 0 i) (s.fld fPW_CAP_PEAK_CAP))
  let su2 := clampTo 600 (min 2400 pk.1) su
  let sh := clampTo 600 pk.1 (orKeep (s.fld fPW_CAP_SCHED1_SHED 0 i) (s.fld fPW_SHED_CAP_CAP))
  ((su2.1, pk.1, sh.1), su2.2 || pk.2 || sh.2)

/-- R349: an entry applied as one write. -/
def State.applySched (s : State) (i : Nat) : State :=
  let r := s.schedCaps i
  let rise := orKeep (s.fld fPW_CAP_SCHED1_RISE 0 i) (s.fld fPW_SLOPE_RISE)
  let s := ((s.put fPW_CAP_SUSTAINED_CAP 0 0 r.1.1).put fPW_CAP_PEAK_CAP 0 0 r.1.2.1).put fPW_SHED_CAP_CAP 0 0 r.1.2.2
  let s := (s.put fPW_SLOPE_RISE 0 0 rise).put fPW_CAP_SCHED0_VALID 0 i 0
  let s := s.when r.2 (fun s => (s.stick fPW_STATUS_CAP_CLAMPED).pwEvent 0x520B 0 0 0 [])
  s.pwEvent 0x5208 0 0 0 (BitVec.ofNat 8 i :: (leBytes 4 r.1.1 ++ leBytes 4 r.1.2.1 ++ leBytes 4 r.1.2.2 ++ leBytes 4 rise))

/-- R349: an entry of the cap schedule acts. Entries of lower index that are due at the same count go first. -/
def execCapScheduleStep (i : Nat) (s : State) : Outcome :=
  s.guard (decide (i < 16) && s.capDue i && s.actFirst 4 &&
    !(List.range i).any (fun j => s.capDue j && decide (s.fld fPW_CAP_SCHED0_COUNT 0 j = s.fld fPW_CAP_SCHED0_COUNT 0 i)))
    (fun s => s.applySched i)

/-- R433: a reading entered in its minute's bin; the hour's extremes are those of the last 60 bins. -/
def State.binReading (s : State) (i : Nat) (t : Int) : State :=
  let m := s.now / 15000000000
  let old := s.pw.bins.find? (fun b => b.1 == i && b.2.1 == m)
  let b : Nat × Nat × Int × Int := match old with
    | some b => (i, m, max b.2.2.1 t, min b.2.2.2 t)
    | none => (i, m, t, t)
  let rest := s.pw.bins.filter (fun b => (b.1 != i || b.2.1 != m) && decide (m < b.2.1 + 60))
  let mine := b :: rest.filter (fun b => b.1 == i)
  let s := { s with pw := { s.pw with bins := b :: rest } }
  let hi := mine.foldl (fun a b => max a b.2.2.1) t
  let lo := mine.foldl (fun a b => min a b.2.2.2) t
  (s.put fMG_SENSOR_MAX_HOUR 0 i (hi % 65536).toNat).put fMG_SENSOR_MIN_HOUR 0 i (lo % 65536).toNat

/-- R350: a sensor is ignored, or heeded again. -/
def State.ignoreSensor (s : State) (i : Nat) (b : Bool) : State :=
  let was := s.is fMG_SENSOR_IGNORED 0 i
  (s.put fMG_SENSOR_IGNORED 0 i b.toNat).when (b && !was) (fun s => s.event 0x5307 (unitSensor i))

def State.tempOf (s : State) (i : Nat) : Int := signed 16 (s.fld fMG_SENSOR_TEMP 0 i)

/-- R350: twins more than 15 degrees apart: one of them is ignored, which the spec leaves open (log 9). -/
def State.twinCheck (s : State) (bad : List Nat) (c : Nat) : State :=
  let a := 2 * c
  let b := 2 * c + 1
  if bad.contains a || bad.contains b then (s.ignoreSensor a (bad.contains a)).ignoreSensor b (bad.contains b)
  else if 240 < (s.tempOf a - s.tempOf b).natAbs then
    if s.is fMG_SENSOR_IGNORED 0 a || s.is fMG_SENSOR_IGNORED 0 b then s
    else
      let (k, s) := s.draw
      s.ignoreSensor (if Config.freeBool k then a else b) true
  else (s.ignoreSensor a false).ignoreSensor b false

/-- R350, R357: the sensor that gives Tc, which the thermal events of a cluster name (log 26). -/
def State.hotSensor (s : State) (c : Nat) : Nat :=
  let a := 2 * c
  let b := 2 * c + 1
  if s.is fMG_SENSOR_IGNORED 0 b then a
  else if s.is fMG_SENSOR_IGNORED 0 a || decide (s.tempOf a < s.tempOf b) then b else a

/-- R351: a thermal ceiling set, with event 0x5301. -/
def State.setThermal (s : State) (c n : Nat) : State :=
  (s.setCeil .thermal c (if 7 ≤ n then none else some n)).event 0x5301 (unitSensor (s.hotSensor c)) [BitVec.ofNat 8 n]

/-- R285, R351: the uncommitted steps of a cluster are discarded, to be carried out again. -/
def State.discardSteps (s : State) (c : Nat) : State :=
  let s := s.forEach (List.range 28) (fun x s => s.rewindPath (28 * c + x))
  { s with core := { s.core with ops := s.core.ops.map (fun o => if o.u / 28 = c then rewound o else o) } }

/-- R351: the compute clock of a cluster stops for heat: 1 at the next commit, 2 at once, its uncommitted steps discarded. -/
def State.heatStop (s : State) (c how : Nat) : State :=
  let first := nget s.pw.thermStop c == 0
  let before := if first then s.fld fTM_REGION_STEP_IN_FORCE 0 c else nget s.pw.stepBefore c
  let s := { s with pw := { s.pw with thermStop := nput s.pw.thermStop c how, stepBefore := nput s.pw.stepBefore c before } }
  let s := s.when (how == 2) (fun s => s.discardSteps c)
  (s.stick fPW_STATUS_THERM_STOP).event (if how = 1 then 0x5302 else 0x5303) (unitSensor (s.hotSensor c))

/-- R351: it restarts, two steps lower, and its steps are carried out again. -/
def State.heatRestart (s : State) (c : Nat) : State :=
  let n := nget s.pw.stepBefore c - 2
  let s := ({ s with pw := { s.pw with thermStop := nput s.pw.thermStop c 0 } }).setThermal c n
  s.forEach (List.range 28) (fun x s => s.feed (28 * c + x))

/-- R350, R351: the thermal stops of a cluster; a cluster both of whose sensors are ignored holds step 0. -/
def State.heatCluster (s : State) (c : Nat) : State :=
  let t := signed 16 (s.tcOf c)
  let st := nget s.pw.thermStop c
  let both := s.is fMG_SENSOR_IGNORED 0 (2 * c) && s.is fMG_SENSOR_IGNORED 0 (2 * c + 1)
  let s := s.when (both && s.ceilAt .thermal c != 0) (fun s => s.setThermal c 0)
  if 1760 ≤ t ∧ st ≠ 2 then s.heatStop c 2
  else if 1680 ≤ t ∧ st = 0 then s.heatStop c 1
  else if st ≠ 0 ∧ t < 1600 then s.heatRestart c else s

/-- R350: a field's temperature; a sensor that is ignored gives none. -/
def fieldClusters (f : Nat) : List Nat := fieldRouters f
def State.fieldTemp (s : State) (f : Nat) : Int :=
  let a := (fieldClusters f).foldl (fun a c => max a (signed 16 (s.tcOf c))) (-32768)
  let dies := ((List.range 3).map (fun k => 96 + 3 * f + k)).filter (fun i => !s.is fMG_SENSOR_IGNORED 0 i)
  dies.foldl (fun a i => max a (s.tempOf i)) a

/-- R351: a router switched on again; its links come up at the width they have. -/
def State.restoreRouter (s : State) (r : Nat) : State :=
  let s := s.put fNW_ROUTER_STATUS_STATE 0 r 0
  s.forEach ((s.linksOf r).filter (fun i => s.fld fGL_TOPOLOGY_STATE 0 i == 5)) (fun i s =>
    let a := s.fld fGL_TOPOLOGY_END_A 0 i
    let b := s.fld fGL_TOPOLOGY_END_B 0 i
    let up := s.fld fNW_ROUTER_STATUS_STATE 0 a == 0 && (decide (47 < b) || s.fld fNW_ROUTER_STATUS_STATE 0 b == 0)
    if !up then s
    else s.put fGL_TOPOLOGY_STATE 0 i
      (if s.fld fGL_TOPOLOGY_LANES_NOW 0 i < s.fld fGL_TOPOLOGY_LANES_FULL 0 i then 2 else 1))

/-- R351: a field's routers restored; firmware then draws the tables anew and switches them in (R228). -/
def State.restoreField (s : State) (f : Nat) : State :=
  let s := { s with pw := { s.pw with fieldOff := s.pw.fieldOff.filter (fun x => x != f) },
                    net := { s.net with draining := s.net.draining.filter (fun d => d.1 != f) } }
  let rs := (fieldRouters f).filter (fun r => s.fld fNW_ROUTER_STATUS_STATE 0 r == 1 || s.fld fNW_ROUTER_STATUS_STATE 0 r == 2)
  (s.forEach rs (fun r s => s.restoreRouter r)).event 0x5305 (unitSensor (96 + 3 * f))

/-- R351: since when a field has been at 115 degrees; a field below 100 degrees is restored. -/
def State.heatField (s : State) (f : Nat) : State :=
  let t := s.fieldTemp f
  let since := if 1840 ≤ t then (if nget s.pw.hotSince f = 0 then s.now + 1 else nget s.pw.hotSince f) else 0
  let s := { s with pw := { s.pw with hotSince := nput s.pw.hotSince f since } }
  if s.pw.fieldOff.contains f ∧ t < 1600 then s.restoreField f else s

/-- R352: THERMTRIP. -/
def State.thermtrip (s : State) (i : Nat) : State :=
  let s := (s.event 0x5306 (unitSensor i)).stopDevice
  { s with pins := { s.pins with thermtripN := false } }

/-- One reading taken. -/
def State.readSensor (s : State) (i t : Nat) : State :=
  ((s.put fMG_SENSOR_TEMP 0 i t).put fMG_SENSOR_VALID 0 i 1).binReading i (signed 16 t)

/-- R350: `temps` are the 120 readings (1/16 degree, two's complement), `bad` the sensors that read out of range. -/
def State.scan (s : State) (temps bad : List Nat) : State :=
  let s := s.forEach (List.range 120) (fun i s => s.readSensor i (temps.getD i 0 % 65536))
  let s := s.forEach (List.range 48) (fun c s => s.twinCheck bad c)
  let s := s.forEach ((List.range 24).map (fun k => k + 96)) (fun i s => s.ignoreSensor i (bad.contains i))
  let s := s.forEach (List.range 48) (fun c s => s.heatCluster c)
  let s := s.forEach (List.range 6) (fun f s => s.heatField f)
  match (List.range 120).find? (fun i => !bad.contains i && decide (2000 ≤ s.tempOf i)) with
  | some i => if s.pins.thermtripN then s.thermtrip i else s
  | none => s

def execSensorScan (temps bad : List Nat) (s : State) : Outcome :=
  s.guard (s.atBoundary 5000) (fun s => (s.scan temps bad).overrides)

/-- R351: PW_THERM_CFG.TARGET as it is taken, in 1/16 degree. -/
def State.heatTarget (s : State) : Int := 16 * (max 70 (min 100 (s.fld fPW_THERM_CFG_TARGET)) : Nat)

/-- R351: every 10 ms while Tc exceeds TARGET. -/
def execThermalCeilingFall (c : Nat) (s : State) : Outcome :=
  let last := nget s.pw.fallAt c
  s.guard (decide (c < 48) && decide (s.heatTarget < signed 16 (s.tcOf c)) && s.ceilAt .thermal c != 0 &&
    (last == 0 || decide (last + 2500000 ≤ s.now + 1))) (fun s =>
      let s := { s with pw := { s.pw with fallAt := nput s.pw.fallAt c (s.now + 1) } }
      (s.setThermal c (s.ceilAt .thermal c - 1)).overrides)

/-- R350, R351: every 100 ms while Tc is below TARGET - 3 degrees; a cluster without a sensor stays at step 0. -/
def execThermalCeilingRise (c : Nat) (s : State) : Outcome :=
  let last := nget s.pw.riseAt c
  let both := s.is fMG_SENSOR_IGNORED 0 (2 * c) && s.is fMG_SENSOR_IGNORED 0 (2 * c + 1)
  s.guard (decide (c < 48) && decide (signed 16 (s.tcOf c) < s.heatTarget - 48) && s.ceilAt .thermal c != 7 && !both &&
    (last == 0 || decide (last + 25000000 ≤ s.now + 1))) (fun s =>
      let n := s.ceilAt .thermal c + 1
      let s := { s with pw := { s.pw with riseAt := nput s.pw.riseAt c (s.now + 1) } }
      (s.setCeil .thermal c (if 7 ≤ n then none else some n)).overrides)

/-- R235, R351: a field at 115 degrees for 1 ms: its routers drain, with their ostlers frozen. The tables that avoid them
have been switched in by firmware. -/
def execFieldRoutersOff (f : Nat) (s : State) : Outcome :=
  let since := nget s.pw.hotSince f
  s.guard (decide (f < 6) && since != 0 && decide (since + 250000 ≤ s.now + 1) && !s.pw.fieldOff.contains f) (fun s =>
    let rs := (fieldRouters f).filter (fun r => s.fld fNW_ROUTER_STATUS_STATE 0 r == 0)
    let s := s.forEach rs (fun r s => s.put fNW_ROUTER_STATUS_STATE 0 r 1)
    let s := { s with net := { s.net with draining := s.net.draining ++ [(f, s.now)] },
                      pw := { s.pw with fieldOff := s.pw.fieldOff ++ [f] } }
    s.event 0x5304 (unitSensor (96 + 3 * f)))

end Sys2Proof.Machine
end

