-- ==== Sys2Proof/Machine/Conns.lean ====
section
/-! DEFINITION. Connections (15_ethernet_and_training_continuity.md R410-R413, R425, R426): where one is found, its state in
ET_CONN_POST, its transmit key slot, and its end in ERROR. -/

namespace Sys2Proof.Machine

/-- The index of a connection's ET_CONN_POST. -/
def connIx (l c : Nat) : Nat := 1024 * l + c

def State.conn (s : State) (l c : Nat) : Option Conn := s.ck.conns.find? (fun x => x.l == l && x.req.c == c)

def State.putConn (s : State) (x : Conn) : State :=
  let f := fun (y : Conn) => if y.l = x.l ∧ y.req.c = x.req.c then x else y
  { s with ck := { s.ck with conns := s.ck.conns.map f } }

def State.connState (s : State) (x : Conn) : Nat := s.fld fET_CONN_POST_STATE 0 (connIx x.l x.req.c)

/-- R430: a record about a connection. -/
def State.connEvent (s : State) (x : Conn) (e outcome way tag : Nat) (detail : List (BitVec 8)) : State :=
  s.record { event := e, unit := unitPort x.req.port, outcome := outcome, waybill := way, tag := tag, lodging := some x.l,
             detail := detail }

/-- R430: a record about a lodging's checkpoints names the port of its drain connection; port 0 while that is closed. -/
def State.ckEvent (s : State) (l e outcome : Nat) (detail : List (BitVec 8)) : State :=
  let p := match s.conn l (s.fld fET_CKPT_CFG1_CONN 0 l) with
    | some x => x.req.port
    | none => 0
  s.record { event := e, unit := unitPort p, outcome := outcome, lodging := some l, detail := detail }

/-- R429: words 1 to 7 of ET_CKPT_CFG written during a capture or a drain take effect at its end. -/
def State.ckCfgCommit (s : State) (l : Nat) : State :=
  s.forEach (List.range 7) (fun k s => s.takeSh (rET_CKPT_CFG1 + k) 0 l)

/-- R425: a drain that has failed or is abandoned. -/
def State.drainFail (s : State) (l : Nat) : State :=
  if nget s.ck.phase l = 3 then
    let ck := { s.ck with phase := nput s.ck.phase l 0, drains := s.ck.drains.filter (fun d => d.l != l) }
    let s := ({ s with ck := ck }.put fET_CKPT_STATUS_DRAINING 0 l 0).stick fET_CKPT_STATUS_DRAIN_FAILED 0 l
    (s.ckEvent l 0x8014 4 []).ckCfgCommit l
  else s

/-- R411: a connection enters ERROR; its posted requests complete without their signals. -/
def State.connError (s : State) (l c why : Nat) : State :=
  match s.conn l c with
  | none => s
  | some x =>
    let st := s.connState x
    if st ≠ 1 ∧ st ≠ 3 then s
    else
      let i := connIx l c
      let r := (Config.connReason why).toNat
      let tail := s.fld fET_CONN_POST_TAIL 0 i
      let s := ((s.put fET_CONN_POST_STATE 0 i 2).put fET_CONN_POST_REASON 0 i r).put fET_CONN_POST_HEAD 0 i tail
      let y := { x with works := [], next := tail, incoming := none }
      let s := (s.putConn y).connEvent y 0x8002 4 0 0 [BitVec.ofNat 8 r]
      if s.ck.drains.any (fun d => d.l == l && d.c == c) then s.drainFail l else s

/-- R426: the connections of a lodging at t0 of its reset, and what that abandons. -/
def State.resetConns (s : State) (l : Nat) : State :=
  let cs := (s.ck.conns.filter (fun x => x.l == l)).map (fun x => x.req.c)
  let was := nget s.ck.phase l
  let s := s.forEach cs (fun c s => s.connError l c 4)
  let s := s.drainFail l
  if was = 1 ∨ was = 2 then
    let s := { s with ck := { s.ck with phase := nput s.ck.phase l 0 } }
    let s := (s.put fET_CKPT_STATUS_PENDING 0 l 0).put fET_CKPT_STATUS_TAKING 0 l 0
    ((s.stick fET_CKPT_STATUS_ABANDONED 0 l).ckEvent l 0x8012 4 []).ckCfgCommit l
  else s

/-- R400: the state of a key slot. -/
def State.slotLoaded (s : State) (k : Nat) : Bool := s.fld fSC_SLOT0_STATE 0 k == 1

/-- R403, R412, R413: a packet to be sent under a slot: the invocation counter it takes; none while the slot cannot be
used. The slot becomes EXHAUSTED at 2^48 - 1. -/
def State.invoke (s : State) (k : Nat) : Option (Nat × State) :=
  if !s.slotLoaded k then none
  else
    let n := s.fld fSC_SLOT1_INVOCATIONS 0 k
    let s := s.put fSC_SLOT1_INVOCATIONS 0 k (n + 1)
    let ev : Ev := { event := 0x700A, unit := unitInn, outcome := 0, lodging := some (s.fld fSC_SLOT0_LODGING 0 k) }
    if n + 1 = 2 ^ 48 - 1 then some (n, (s.put fSC_SLOT0_STATE 0 k 2).record ev) else some (n, s)

/-- R412: the packet of a connection leaves: what it is (an operation code of RoCE v2 or an acknowledgement), the header
values it carries, and its payload, encrypted; the sub-port's ostler grants it (R237). A slot that cannot be used ends the connection (R411, R413). -/
def State.sendPacket (s : State) (x : Conn) (op : Nat) (header : List Nat) (payload : List (BitVec 8)) : State :=
  match s.invoke x.req.txSlot with
  | none => s.connError x.l x.req.c 3
  | some (n, s) =>
    let key := nget s.mg.keys x.req.txSlot
    let body := Config.gcm key n payload
    (s.frameGrant (.host x.l x.req.port) x.req.port x.req.sub x.l x.req.c).emit .packet (connIx x.l x.req.c) op (n :: header ++ body.map BitVec.toNat)

/-- The pieces of a payload in packets of at most the path MTU. -/
def pieces (mtu : Nat) : Nat → List (BitVec 8) → List (List (BitVec 8))
  | 0, l => [l]
  | k + 1, l => if l.length ≤ mtu then [l] else l.take mtu :: pieces mtu k (l.drop mtu)

/-- R412: the packets of a message, each with its own invocation; the header goes with the first. -/
def State.sendMessage (s : State) (l c op : Nat) (header : List Nat) (bs : List (BitVec 8)) : State :=
  match s.conn l c with
  | none => s
  | some x =>
    let ps := pieces x.req.mtu (bs.length / 256) bs
    (ps.foldl (fun (a : Bool × State) p =>
      if a.2.connState x ≠ 1 ∧ a.2.connState x ≠ 3 then a
      else (false, a.2.sendPacket x op (if a.1 then header else []) p)) (true, s)).2

/-- How many packets a message of n bytes takes. -/
def packetCount (mtu n : Nat) : Nat := max 1 ((n + mtu - 1) / mtu)

end Sys2Proof.Machine
end

