-- ==== Sys2Proof/Machine/Resets.lean ====
section
/-! DEFINITION. Core, cluster and lodging resets (13_bring_up_and_reset.md R377-R383): their starts, what each clears, and
their ends; the commands that complete a cluster or a lodging reset stand with the grants, which wait for them. -/

namespace Sys2Proof.Machine

/-- CL_RESET_STATUS.CORE_BUSY follows the core resets under way. -/
def State.showCoreBusy (s : State) (c : Nat) : State :=
  s.put fCL_RESET_STATUS_CORE_BUSY c 0 (s.rst.cores.any (fun u => u / 28 == c)).toNat

/-- R379 step 4: the broadcasts and program starts queued for a logical core dropped. -/
def State.dropQueues (s : State) (c l : Nat) : State :=
  let k := s.core
  let core := { k with bq := k.bq.filter (fun e => !(e.c == c && e.l == l)),
                       starts := k.starts.filter (fun x => !(x.c == c && x.l == l)) }
  { s with core := core }

/-- R159, R379: a core reset begins: the slot's state is cleared, it shows that it is in reset, and the stream responsible for its
program faults. -/
def State.coreReset (s : State) (u : Nat) : State :=
  let c := u / 28
  let l := s.logicalOf u
  let s := { s with rst := { s.rst with cores := s.rst.cores ++ [u] } }.showCoreBusy c
  let s := (s.clearSlot u).cutRuns (fun x => x == c)
  let s := if s.fld fCO_CORE_STATUS_STATE u = 5 then s else s.put fCO_CORE_STATUS_STATE u 0 6
  if l = 31 then s else (s.strandCore c l).dropQueues c l

/-- CL_RESET with OP 1. A slot whose core reset, takeover or cluster reset is under way merges it (R383). -/
def execCoreReset (rq : Rq) (c slot : Nat) (s : State) : Outcome :=
  .next (s.csAct rq (clAddr c 0x180) (fun s =>
    if 28 ≤ slot ∨ s.slotHeld (28 * c + slot) ∨ s.clusterHeld c then s else s.coreReset (28 * c + slot)))

/-- Table 13.10: the fences that fell due during a reset, now that it is over. -/
def State.fencesDue (s : State) (p : Nat → Bool) : State :=
  let due := s.rst.fences.filter (fun x => p x.1)
  let s := { s with rst := { s.rst with fences := s.rst.fences.filter (fun x => !p x.1) } }
  s.forEach due (fun x s => if x.1 < 1344 then s.fenceCore x.1 x.2 else s.fenceCluster (x.1 - 1344) x.2)

/-- The units of a cluster in that list. -/
def inCluster (c x : Nat) : Bool := if x < 1344 then x / 28 == c else x == 1344 + c

/-- R379 step 5: held accesses and broadcasts go on, and event 0x6101 is written. -/
def execCoreResetComplete (u : Nat) (s : State) : Outcome :=
  s.guard (s.rst.cores.contains u) (fun s =>
    let s := { s with rst := { s.rst with cores := s.rst.cores.filter (fun x => x != u) } }.showCoreBusy (u / 28)
    let s := if s.fld fCO_CORE_STATUS_STATE u = 6 then s.put fCO_CORE_STATUS_STATE u 0 0 else s
    (s.event 0x6101 (unitCore u 0 0)).fencesDue (fun x => x == u))

/-- R380 step 1: a stream in a slot of the cluster, or READY for it, becomes STOPPED; its notify flag comes with the end
of the reset. -/
def State.resetStream (s : State) (c id : Nat) : State :=
  let s := (s.withdraw id).freeSlot id
  let sq := { s.sq with ready := s.sq.ready.filter (fun x => x != id), ending := s.sq.ending.filter (fun e => e.1 != id) }
  { s with sq := sq, rst := { s.rst with notify := s.rst.notify ++ [(c, id)] } }.put fGL_STREAM7_STATE 0 id 6

/-- R193: a faulted stream whose issued commands a reset ends: its slot is free, and its notify flag comes with the end of the
reset. -/
def State.resetFaulted (s : State) (c id : Nat) : State :=
  let s := (s.dropEnding id).freeSlot id
  { s with rst := { s.rst with notify := s.rst.notify ++ [(c, id)] } }

/-- R380 step 1: the streams of a cluster that its reset stops. A stream that is ending as FAULTED keeps that state. -/
def State.resetStreams (s : State) (c : Nat) : State :=
  let s := s.forEach (s.faultedEnding c) (fun id s => s.resetFaulted c id)
  s.forEach (s.streamsAt c [2, 3]) (fun id s => s.resetStream c id)

/-- R96, R380 step 1: the tiles on the transposing paths of a cluster are refused. -/
def State.cutTiles (s : State) (c : Nat) : State :=
  s.forEach (List.range 29) (fun i s => s.forEach (s.ostler (ostlerAt 2 c i)).holds (fun h s =>
    (s.letGo (ostlerAt 2 c i) h).cutTile c i h.rq h.op h.addr))

/-- R380: a cluster reset begins; core resets under way in the cluster become part of it (R383). -/
def State.clusterReset (s : State) (c : Nat) (scrub : Bool) : State :=
  let s := ((s.resetStreams c).cutTiles c).cutRuns (fun x => x == c)
  let rst := { s.rst with cores := s.rst.cores.filter (fun u => u / 28 != c), clusters := s.rst.clusters ++ [(c, scrub)] }
  (({ s with rst := rst }.showCoreBusy c).put fCL_RESET_STATUS_CLUSTER_BUSY c 0 1).put fCL_RESET_STATUS_SCRUBBING c 0
    scrub.toNat

/-- R383: a request for a cluster reset: it begins, or merges with the one under way, which scrubs if either does. A
cluster of a lodging whose reset has come to its cluster resets is part of that one. -/
def State.clusterResetReq (s : State) (c : Nat) (scrub : Bool) : State :=
  if s.clusterHeld c then
    let f := fun (p : Nat × Bool) => if p.1 = c then (c, p.2 || scrub) else p
    let s := { s with rst := { s.rst with clusters := s.rst.clusters.map f } }
    if scrub then s.put fCL_RESET_STATUS_SCRUBBING c 0 1 else s
  else s.clusterReset c scrub

/-- CL_RESET with OP 2. -/
def execClusterReset (rq : Rq) (c : Nat) (scrub : Bool) (s : State) : Outcome :=
  .next (s.csAct rq (clAddr c 0x180) (fun s => s.clusterResetReq c scrub))

/-- R203, R215: the router unit of a cluster reset: no job queued or running, its registers cleared but for the RWS bits. -/
def State.resetRouterUnit (s : State) (c : Nat) : State :=
  let s := s.absorb c (fun r => rqOfRouter c r)
  let s := { s with rt := { queue := s.rt.queue.filter (fun q => q.1 != c), jobs := s.rt.jobs.filter (fun j => j.c != c) } }
  let s := ((s.put fCL_ROUTE_STATUS_COMPLETED c 0 0).put fCL_ROUTE_STATUS_QUEUED c 0 0).put fCL_ROUTE_STATUS_FENCED c 0 0
  (s.put fCL_ROUTE_STATUS_BUSY c 0 0).setReg rCL_ROUTE_LAST c 0 0#64

/-- R382: every part of a cluster that is off is powered, with no change of power pending. -/
def State.powerAll (s : State) (c : Nat) : State :=
  let ks := (List.range 28).flatMap (fun k => (List.range 4).map (fun q => halfPart (28 * c + k) q)) ++
    (List.range 32).map (fun b => bankPart c b)
  let s := { s with ms := { s.ms with powerQueue := s.ms.powerQueue.filter (fun p => !ks.contains p.1) } }
  s.forEach ks (fun k s => s.setPart k true false)

/-- R382: the memories of a cluster cleared to zero with valid parity: WM, AM and PM of every slot, CM, and the
instruction caches. -/
def State.scrubCluster (s : State) (c : Nat) : State :=
  let s := s.powerAll c
  let s := (s.clearRange (clWindow c) 0x10000000).cleanRange (clWindow c) 0x10000000
  { s with core := { s.core with icache := s.core.icache.filter (fun x => x.u / 28 != c) } }

/-- R380 step 3, R382: what a cluster reset clears. -/
def State.clusterClear (s : State) (c : Nat) (scrub : Bool) : State :=
  let s := s.forEach (List.range 28) (fun k s => s.clearSlot (28 * c + k))
  let s := ((s.resetSeq c).resetRouterUnit c).wipeSync c
  let s := (s.cleanRange (clWindow c) 0x01800000).put fCL_MEM_STATUS_PARITY_ERRORS c 0 0
  if scrub then s.scrubCluster c else s

/-- R193, R380: the notify flags of the streams that a cluster reset stopped. -/
def State.resetNotify (s : State) (c : Nat) : State :=
  let ids := (s.rst.notify.filter (fun p => p.1 == c)).map (fun p => p.2)
  let s := { s with rst := { s.rst with notify := s.rst.notify.filter (fun p => p.1 != c) } }
  s.forEach ids (fun id s => s.notify id)

/-- Table 13.10: the takeovers that fell due in a cluster during its reset. -/
def State.resumeTakeovers (s : State) (c : Nat) : State :=
  let ls := (s.integ.afterReset.filter (fun p => p.1 == c)).map (fun p => p.2)
  let s := { s with integ := { s.integ with afterReset := s.integ.afterReset.filter (fun p => p.1 != c) } }
  s.forEach ls (fun l s => s.startTakeover c l false false)

/-- R380: a cluster reset ends: what it clears, then the release, the record and what waited. -/
def State.clusterResetEnd (s : State) (c : Nat) : State :=
  let scrub := s.rst.clusters.any (fun p => p.1 == c && p.2)
  let s := s.clusterClear c scrub
  let s := { s with rst := { s.rst with clusters := s.rst.clusters.filter (fun p => p.1 != c) } }
  let s := (s.put fCL_RESET_STATUS_CLUSTER_BUSY c 0 0).put fCL_RESET_STATUS_SCRUBBING c 0 0
  let s := (s.resetNotify c).event 0x6102 (unitCl c 0) [BitVec.ofNat 8 scrub.toNat]
  (s.fencesDue (inCluster c)).resumeTakeovers c

/-- The clusters of a lodging. -/
def State.clustersOf (s : State) (l : Nat) : List Nat := (List.range 48).filter (fun c => s.ownerOf c == some l)

/-- R381 step 1: a lodging reset begins; cluster and core resets under way on its clusters become part of it (R383). -/
def State.lodgingReset (s : State) (l : Nat) (scrub : Bool) : State :=
  let mine := fun (c : Nat) => s.ownerOf c == some l
  let scrub := scrub || s.rst.clusters.any (fun p => mine p.1 && p.2)
  let held := (s.rst.clusters.filter (fun p => mine p.1)).map (fun p => p.1)
  let rst := { s.rst with cores := s.rst.cores.filter (fun u => !mine (u / 28)),
                          clusters := s.rst.clusters.filter (fun p => !mine p.1),
                          lodgings := s.rst.lodgings ++ [⟨l, s.now, 0, scrub⟩] }
  let s := { s with rst := rst }.cutRuns mine
  let s := s.forEach (s.clustersOf l) (fun c s => s.showCoreBusy c)
  let s := s.forEach held (fun c s => (s.put fCL_RESET_STATUS_CLUSTER_BUSY c 0 0).put fCL_RESET_STATUS_SCRUBBING c 0 0)
  (s.putBit fGL_RESET_STATUS_BUSY 0 0 l true).resetConns l

/-- R381, R383: a request for a lodging reset: it begins, or merges with the one under way. A reset of a closed lodging
finds nothing to reset. -/
def State.lodgingResetReq (s : State) (l : Nat) (scrub : Bool) : State :=
  if s.rst.lodgings.any (fun x => x.l == l) then
    let f := fun (x : LodgingReset) => if x.l = l then { x with scrub := x.scrub || scrub } else x
    { s with rst := { s.rst with lodgings := s.rst.lodgings.map f } }
  else if s.is fGL_LODGING_CFG_OPEN 0 l then s.lodgingReset l scrub
  else s

/-- GL_LODGING_RESET with START. -/
def execGlLodgingResetStart (rq : Rq) (l : Nat) (scrub : Bool) (s : State) : Outcome :=
  .next (s.csAct rq (glAddr 0x600) (fun s => s.lodgingResetReq (l % 8) scrub))

/-- The phase of a lodging's reset. -/
def State.resetPhase (s : State) (l : Nat) : Option LodgingReset := s.rst.lodgings.find? (fun x => x.l == l)

def State.setPhase (s : State) (l n : Nat) : State :=
  let f := fun (x : LodgingReset) => if x.l = l then { x with phase := n } else x
  { s with rst := { s.rst with lodgings := s.rst.lodgings.map f } }

/-- R239, R381 step 2: the parked requesters of a lodging leave their queues at the ostlers of kinds 1 to 5. -/
def State.unpark (s : State) (l : Nat) : State :=
  let ks := (s.net.ostlers.map (fun p => p.1)).filter (fun k => decide (1 ≤ k / 65536) && decide (k / 65536 ≤ 5))
  s.forEach ks (fun k s => s.setOstler k ((s.ostler k).leave (fun a => a.lodging == some l)))

/-- R381 step 2: at t0 + 200 µs the lodging is frozen at the ostlers of kinds 1 to 5. -/
def execLodgingFreezePoint (l : Nat) (s : State) : Outcome :=
  match s.resetPhase l with
  | none => .next s
  | some x => s.guard (x.phase == 0 && decide (x.start + 50000 ≤ s.now)) (fun s => (s.unpark l).setPhase l 1)

/-- R381 step 3: a request of the lodging still outstanding has an error response, and its entry is absorbed. -/
def State.sweepAbsorb (s : State) (r : Resp) : State :=
  let s := (s.freeResp r.id).emit .errorResponse r.rq.unit 0x6104 [r.id]
  let c := r.rq.absorber
  if c < 48 then
    { s with net := { s.net with absorb := s.net.absorb ++ [(r.id, c)] } }.put fCL_RESET_STATUS_IN_ABSORB c 0
      (s.fld fCL_RESET_STATUS_IN_ABSORB c + 1)
  else s

/-- The replies to flits of REDUCE_ADDs that a lodging's instructions still await. -/
def State.lodgingFlits (s : State) (l : Nat) : List RedFlit :=
  (s.net.flits ++ s.net.reds.flatMap (fun e => e.parts)).filter (fun f =>
    f.entry.isNone && f.op != 0 && s.lodgingOf f.rq == some l)

/-- R381 step 3: the requests of a lodging still outstanding. -/
def State.sweepLodging (s : State) (l : Nat) : State :=
  let mine := s.net.resps.filter (fun r => s.lodgingOf r.rq == some l)
  let flits := s.lodgingFlits l
  let n := mine.length + flits.length
  let s := s.forEach mine (fun r s => s.sweepAbsorb r)
  let s := s.forEach flits (fun f s => (s.emit .errorResponse f.rq.unit 0x6104 [f.addr]).forgetFlit f.op)
  let s := s.put fGL_RESET_STATUS_SWEPT 0 0 (min 65535 n)
  if n = 0 then s else s.eventL 0x6104 unitInn l

/-- R381 step 3: at t0 + 4 ms, or as soon as nothing of the lodging is outstanding. -/
def execLodgingResetSweep (l : Nat) (s : State) : Outcome :=
  match s.resetPhase l with
  | none => .next s
  | some x => s.guard (x.phase == 1 && (decide (x.start + 1000000 ≤ s.now) ||
      (s.net.resps.all (fun r => s.lodgingOf r.rq != some l) && (s.lodgingFlits l).isEmpty))) (fun s => (s.sweepLodging l).setPhase l 2)

/-- R381 step 4: a stream entry of the lodging in ARMED, READY or RUNNING becomes STOPPED. -/
def State.stopEntry (s : State) (id : Nat) : State :=
  let running := decide (2 ≤ s.fld fGL_STREAM7_STATE 0 id)
  let s := (s.withdraw id).freeSlot id
  let sq := { s.sq with ready := s.sq.ready.filter (fun x => x != id), ending := s.sq.ending.filter (fun e => e.1 != id),
                        examine := s.sq.examine.filter (fun x => x != id),
                        overdue := s.sq.overdue.filter (fun x => x != id) }
  let s := { s with sq := sq }.put fGL_STREAM7_STATE 0 id 6
  if running then { s with rst := { s.rst with notify := s.rst.notify ++ [(s.fld fGL_STREAM7_HOME 0 id, id)] } } else s

/-- The entries of a lodging's range in some states. -/
def State.entriesOf (s : State) (l : Nat) (states : List Nat) : List Nat :=
  (s.regs.filterMap (fun p => if p.1 / 2 ^ 32 = rGL_STREAM7 then some (p.1 % 2 ^ 20) else none)).filter
    (fun id => s.inRange l id && states.contains (s.fld fGL_STREAM7_STATE 0 id))

/-- R381 step 4: a barrier of the lodging reads COUNT = EXPECTED = GENERATION = 0. -/
def State.clearBarrier (s : State) (b : Nat) : State :=
  let s := ((s.put fGL_BARRIER_COUNT 0 b 0).put fGL_BARRIER_EXPECTED 0 b 0).put fGL_BARRIER_GENERATION 0 b 0
  { s with sq := { s.sq with barrierWait := s.sq.barrierWait.filter (fun w => w.1 != b),
                             waves := s.sq.waves.filter (fun w => w.1 != b) } }

/-- The barriers of a lodging. -/
def State.barriersOf (s : State) (l : Nat) : List Nat := (List.range 64).filter (fun b => s.ownsBarrier l b)

/-- R381 steps 4 and 5: the resets of the lodging's clusters, its entries, barriers and cached translations, and the
end. -/
def State.lodgingResetEnd (s : State) (l : Nat) (scrub : Bool) : State :=
  let cs := s.clustersOf l
  let s := s.forEach cs (fun c s => s.forEach (s.faultedEnding c) (fun id s => s.resetFaulted c id))
  let s := s.forEach (s.entriesOf l [1, 2, 3]) (fun id s => s.stopEntry id)
  let s := s.forEach cs (fun c s => (s.cutTiles c).clusterClear c scrub)
  let s := s.forEach (s.barriersOf l) (fun b s => s.clearBarrier b)
  let s := s.dropTlb l 0 16777216
  let s := { s with rst := { s.rst with lodgings := s.rst.lodgings.filter (fun x => x.l != l) } }
  let s := (s.putBit fGL_RESET_STATUS_BUSY 0 0 l false).wrap fGL_RESET_STATUS_RESETS 0 0 1
  let s := (s.put fET_CKPT_STATUS_NEXT_BUFFER 0 l 0).put fET_CKPT_STATUS_CAPTURES 0 l 0
  let s := s.forEach (List.range 48) (fun c s => if cs.contains c then s.resetNotify c else s)
  let s := s.eventL 0x6103 unitInn l [BitVec.ofNat 8 scrub.toNat]
  s.forEach cs (fun c s => (s.fencesDue (inCluster c)).resumeTakeovers c)

/-- R378: a response or acknowledgement arrives for an absorbed entry: it is discarded, and both entries are free. -/
def execAbsorbedResponse (id : Nat) (s : State) : Outcome :=
  match s.net.absorb.find? (fun a => a.1 == id) with
  | none => .next s
  | some a =>
    let s := { s with net := { s.net with absorb := s.net.absorb.erase a } }
    let s := s.put fCL_RESET_STATUS_IN_ABSORB a.2 0 (s.fld fCL_RESET_STATUS_IN_ABSORB a.2 - 1)
    .next ((s.wrap fCL_RESET_STATUS_ABSORBED a.2 0 1).eventSummed 0x6106 (unitCl a.2 0) a.2 (fun _ => []))

end Sys2Proof.Machine
end

