-- ==== Sys2Proof/Machine/Messages.lean ====
section
/-! DEFINITION. The management protocol's messages (16_management_subsystem.md R434-R438): which are taken, dropped,
answered again or refused, and replies and the ends of sessions. -/

namespace Sys2Proof.Machine

def State.session (s : State) (n : Nat) : Option Session := s.mg.sessions.find? (fun x => x.number == n)

def State.putSession (s : State) (x : Session) : State :=
  let f := fun (y : Session) => if y.number = x.number then x else y
  { s with mg := { s.mg with sessions := s.mg.sessions.map f } }

/-- R434, Table 16.3: RESULT of a reply: the event of a refusal, its reason, and the status. -/
def resultOf (status event reason : Nat) : Nat := event + 65536 * reason + 16777216 * status

/-- R436: a reply sent and stored; a repeated message gets it again. -/
def State.reply (s : State) (n type status event reason : Nat) (body : List Nat) : State :=
  let data := [type, resultOf status event reason] ++ body
  let s := s.emit .reply n type data
  match s.session n with
  | none => s
  | some x => s.putSession { x with reply := data }

/-- An act done, and one refused with status 1. -/
def State.done (s : State) (n type : Nat) (body : List Nat) : State := s.reply n type 0 0 0 body
def State.refused (s : State) (n type event reason : Nat) : State := s.reply n type 1 event reason []

/-- R435: a session ends. Cause codes are named, not numbered, by the spec: 0 replaced, 1 DETACH, 2 silence, 3 close of
its lodging, 4 whole-device reset. -/
def State.endSession (s : State) (n why : Nat) : State :=
  match s.session n with
  | none => s
  | some x =>
    let dst := if x.role = 0 then 0 else 1 + x.lodging
    let mg := { s.mg with sessions := s.mg.sessions.filter (fun y => y.number != n),
                          pushes := s.mg.pushes.filter (fun p => p.dst != dst) }
    let ev : Ev := { event := 0x6205, unit := unitInn, outcome := 0,
                     lodging := if x.role = 0 then none else some x.lodging,
                     detail := [BitVec.ofNat 8 x.role, Config.code 0x6205 why] }
    { s with mg := mg }.record ev

/-- R437: a message dropped for its session or MAC; one record a second. -/
def State.authDrop (s : State) : State :=
  let s := s.stick fMG_STICKY3_AUTH_FAIL
  let sec := s.now / 250000000 + 1
  if s.mg.dropSec = sec then s
  else { s with mg := { s.mg with dropSec := sec } }.event 0x6203 unitInn

/-- R438: a message refused for its role or its lodging. -/
def State.roleRefused (s : State) (x : Session) (type : Nat) : State :=
  let l := if x.role = 0 then 0xFF else x.lodging
  let ev : Ev := { event := 0x7001, unit := unitInn, outcome := 4, lodging := some l,
                   detail := BitVec.ofNat 8 l :: leBytes 8 0 }
  (s.record ev).refused x.number type 0x7001 0

/-- Who may send a type (Table 16.4). -/
inductive Role where
  | owner | host | either
  deriving DecidableEq, Repr

/-- Whether a session may send a message for a lodging. -/
def Role.may (r : Role) (x : Session) (l : Option Nat) : Bool :=
  match r with
  | .owner => x.role == 0
  | .host => x.role == 1 && l.getD x.lodging == x.lodging
  | .either => x.role == 0 || l.getD x.lodging == x.lodging

/-- R434-R438: a message with a header arrives; `l` is the lodging its body names, `act` what it does. -/
def State.message (s : State) (h : MsgHdr) (type : Nat) (r : Role) (l : Option Nat) (act : Session → State → State) :
    State :=
  if s.mg.ctrl ≠ 0 ∨ !h.wellFormed ∨ !s.ready then s
  else if h.queueFull then s.stick fMG_STICKY0_MSG_DROPPED
  else match s.session h.session with
    | none => s.authDrop
    | some x =>
      if !h.macOk then s.authDrop
      else if h.seq = x.seq ∧ x.seq ≠ 0 then
        let s := s.putSession { x with lastValid := s.now }
        if x.reply.isEmpty then s.emit .reply x.number type [type, resultOf 3 0 0] else s.emit .reply x.number type x.reply
      else if h.seq ≤ x.seq then s
      else
        let y := { x with seq := h.seq, lastValid := s.now, reply := [] }
        let s := s.putSession y
        if r.may y l then act y s else s.roleRefused y type

end Sys2Proof.Machine
end

