-- ==== Sys2Proof/Machine/Images.lean ====
section
/-! DEFINITION. Firmware images and defect lists as they are transferred and verified (13_bring_up_and_reset.md R358-R360,
R366, R367; 16_management_subsystem.md R443; 17_package_and_electrical.md R466), and the whole-device reset (R377). -/

namespace Sys2Proof.Machine

/-- The word of n bytes at an offset of an image. -/
def imgNat (bs : List (BitVec 8)) (o n : Nat) : Nat := leNat ((bs.drop o).take n)

/-- Whether n bytes of an image from an offset on are 0. -/
def imgZero (bs : List (BitVec 8)) (o n : Nat) : Bool := ((bs.drop o).take n).all (fun b => b == 0#8)

/-- R360: the firmware measurement: the hash over all but the signature. -/
def imgMeasure (bs : List (BitVec 8)) : Nat := Config.sha256 (bs.take (bs.length - 384))

/-- Table 13.2: the layout of an image: its marks, the part sizes and their limits, and the fields that must be 0. -/
def imgLayout (bs : List (BitVec 8)) : Bool :=
  let size := imgNat bs 12 4
  let inn := imgNat bs 16 4
  let core := imgNat bs 20 4
  let seq := imgNat bs 24 4
  imgNat bs 0 4 == 0x57464B48 && imgNat bs 4 2 == 1 && size == bs.length && 768 + inn + core + seq + 384 == size &&
    decide (core ≤ 32768) && decide (seq ≤ 16384) && imgZero bs 28 228 && imgZero bs 644 124

/-- The minimum firmware version in force: the highest word burnt (Table 14.3). -/
def State.minVersion (s : State) : Nat := s.otp.minVersions.foldl max 0

/-- R360: what fails first of an image: 0 nothing, 1 its layout, 2 its key, 3 its signature, 4 its version. -/
def State.imageFails (s : State) (bs : List (BitVec 8)) : Nat :=
  if !imgLayout bs then 1
  else if Config.sha256 ((bs.drop 256).take 512) ≠ Config.fwKeyHash.toNat then 2
  else if !Config.verifies bs then 3
  else if imgNat bs 8 4 < s.minVersion then 4
  else 0

/-- R359, R443: an offer begins a transfer; above 393,216 B it is refused. -/
def State.offer (s : State) (dst source : Nat) (staged : Bool) (version size : Nat) (list : Bool) : State :=
  if 393216 < size then s.emit .refusalReply dst 0x02 [source, size]
  else
    let t : Transfer := { source := source, staged := staged, version := version, size := size, list := list, bytes := [],
                          ahead := [], heard := s.now, host := none }
    { s with boot := { s.boot with transfer := some t, lastSource := source } }.emit .reply dst 0x02 [0]

/-- Chunks held beyond the contiguous bytes join them as these reach them. The first argument bounds their number. -/
def joinChunks : Nat → List (BitVec 8) → List (Nat × List (BitVec 8)) → List (BitVec 8) × List (Nat × List (BitVec 8))
  | 0, b, l => (b, l)
  | n + 1, b, l =>
    match l.find? (fun c => decide (c.1 ≤ b.length)) with
    | none => (b, l)
    | some c => joinChunks n (if b.length < c.1 + c.2.length then b.take c.1 ++ c.2 else b) (l.erase c)

/-- R359 step 3: a chunk is taken; the highest contiguous offset is acknowledged. A chunk of more than 1,024 B, or one
that ends beyond the image, is none. -/
def State.chunk (s : State) (dst offset : Nat) (bs : List (BitVec 8)) (t : Transfer) : State :=
  if 1024 < bs.length ∨ t.size < offset + bs.length then s
  else
    let l := t.ahead ++ [(offset, bs)]
    let (b, l) := joinChunks l.length t.bytes l
    let t := { t with bytes := b, ahead := l, heard := s.now }
    { s with boot := { s.boot with transfer := some t } }.emit .reply dst 0x04 [b.length]

/-- R366, R367: a defect list, or a further part of it. A list for another serial is refused altogether. -/
def State.listPart (s : State) (p : HostList) (t : Transfer) : State :=
  if p.serial ≠ Config.serial.toNat then
    (s.stick fMG_START_STATUS_HOST_LIST_REFUSED).event 0x600E unitInn
  else
    let h : HostList := match t.host with
      | none => p
      | some h => { h with entries := h.entries ++ p.entries }
    let t := { t with host := some h, heard := s.now }
    { s with boot := { s.boot with transfer := some t } }

/-- Whether a list has arrived whole. -/
def listWhole (h : HostList) : Bool := h.entries.length == h.count

/-- R366: whether a quick start may run with a list. -/
def State.quickOk (s : State) (h : Option HostList) : Bool :=
  let c := s.boot.cfg.toNat
  match h, s.boot.lastFull with
  | some h, some (n, t) => c.testBit 0 && listWhole h && h.serial == Config.serial.toNat && decide (n ≤ h.start) &&
      decide (s.now ≤ t + 250000000 * (86400 * fieldOf 48 16 c))
  | _, _ => false

/-- R361, R366: the image is there, so the kind of start is settled: event 0x6001, and 0x600A for a quick start that is
refused. -/
def State.settleMode (s : State) (image : List (BitVec 8)) (h : Option HostList) : State :=
  let h := match h with
    | some x => if listWhole x && x.serial == Config.serial.toNat then some x else none
    | none => none
  let s := { s with boot := { s.boot with image := image, host := h, transfer := none } }
  let s := s.put fMG_DEFECT_STATUS_HOST_ENTRIES 0 0 ((h.map (fun x => x.entries.length)).getD 0)
  let quick := s.quickOk h
  let s := s.put fMG_START_STATUS_MODE 0 0 quick.toNat
  let s := if quick then s else (s.stick fMG_START_STATUS_QUICK_REFUSED).event 0x600A unitInn
  s.event 0x6001 unitInn [BitVec.ofNat 8 quick.toNat, BitVec.ofNat 8 (s.fld fMG_START_STATUS_BOOT_SRC)]

/-- R359 step 5: a refused image: back to step 1. -/
def State.imageRefused (s : State) (dst why : Nat) : State :=
  let s := { s with boot := { s.boot with transfer := none } }.emit .imageVerdict dst 2 [why]
  (s.stick fMG_START_STATUS_IMAGE_REFUSED).event 0x6002 unitInn [Config.code 0x6002 why]

/-- R359, R360: the end of a boot transfer: the verdict. -/
def State.bootEnd (s : State) (dst : Nat) (t : Transfer) : State :=
  let bs := if t.bytes.length = t.size then t.bytes else []
  match s.imageFails bs with
  | 0 => (s.settleMode bs t.host).emit .imageVerdict dst 0 []
  | n => s.imageRefused dst n

/-- R443: the end of a staged transfer: the image is kept in the reserved area of HBM, or discarded. -/
def State.stageEnd (s : State) (dst : Nat) (t : Transfer) : State :=
  let bs := if t.bytes.length = t.size then t.bytes else []
  let s := { s with boot := { s.boot with transfer := none } }
  match s.imageFails bs with
  | 0 =>
    let m := imgMeasure bs
    let g : Staged := { bytes := bs, measure := m, host := t.host }
    let d := leBytes 4 (imgNat bs 8 4) ++ leBytes 24 m
    ({ s with mg := { s.mg with staged := some g } }.event 0x6207 unitInn d).emit .imageVerdict dst 0 []
  | n => ((s.stick fMG_STICKY0_UPDATE_FAILED).event 0x6209 unitInn).emit .imageVerdict dst 2 [n]

/-- R374: the journal index of the newest entry. -/
def State.newestEntry (s : State) : Nat := (s.boot.journalNext + 31) % 32

/-- OUTCOME of the entry of the step under way. -/
def State.outcomeSet (s : State) (v : Nat) : State := s.put fMG_BOOT_JOURNAL1_OUTCOME 0 s.newestEntry v

/-- The registers that lie in the VSTBY domain and are kept: site time, the ledger's, the journal's, the start number,
the sensors, the configuration of the next start, and what OTP and the runtime list show (R303, R314, R377, R433). -/
def keptRow (r : Nat) : Bool :=
  [rTM_SITE_NOW, rMG_LEDGER_STATUS, rMG_LEDGER_READ, rMG_START_CFG, rMG_DEFECT_STATUS, rMG_BOOT_PROGRESS, rMG_BOOT_FAILS,
    rMG_BOOT_JOURNAL0, rMG_BOOT_JOURNAL1, rMG_SENSOR].contains r

/-- The state after a whole-device reset, the start not yet begun. A READ index written and not yet in force takes effect,
since its register is kept (R376). -/
def State.afterReset (s : State) : State :=
  let n := s.fld fMG_START_STATUS_START_NUMBER
  let b : BootSt := { s.boot with due := s.pins.resetN && s.pins.vstby, running := false, transfer := none,
                                  host := if s.boot.commit.isSome then s.boot.host else none,
                                  image := if s.boot.commit.isSome then s.boot.image else [],
                                  findings := [], outNow := [], instruct := none, alt := false }
  let pins := { s.pins with rampNotice := 0, faultN := true, siteTickOut := false }
  let t : State := { pending := s.pending, regs := s.regs.filter (fun p => keptRow (p.1 / 2 ^ 32)), otp := s.otp, boot := b,
                     pins := pins, out := s.out, fresh := s.fresh }
  let t := t.put fMG_DEFECT_STATUS_HOST_ENTRIES 0 0 0
  let integ : IntegSt := { ledger := s.integ.ledger, defects := s.integ.defects }
  let t := { t with integ := integ, pw := { t.pw with bins := s.pw.bins }, tm := { t.tm with jump := s.tm.jump } }
  let t := (t.put fMG_START_STATUS_START_NUMBER 0 0 n).put fPW_STATUS_SHED 0 0 (!s.pins.shedN).toNat
  match s.pendingSh (rkey rMG_LEDGER_READ 0 0) with
  | some w => t.ledgerAdvance (w.toNat % 1024)
  | none => t

/-- R377, R383: a whole-device reset. Causes, named and not numbered by the spec: 0 RESET_N, 1 PWR_GOOD, 2 MG_START_CTRL,
3 the start watchdog, 4 a stopped device, 5 a committed update. A pin marks the step under way as interrupted. -/
def State.deviceReset (s : State) (cause : Nat) : State :=
  let s := if s.boot.running ∧ cause < 2 then s.outcomeSet 6 else s
  let s := s.event 0x6105 unitInn [Config.code 0x6105 cause]
  let s := s.forEach (s.mg.sessions.map (fun x => x.number)) (fun n s => s.endSession n 4)
  s.afterReset

/-- MG_START_CTRL with OP 1. -/
def execWholeDeviceReset (rq : Rq) (s : State) : Outcome :=
  .next (s.csAct rq (mgAddr 0x2000) (fun s => s.deviceReset 2))

end Sys2Proof.Machine
end

