-- ==== Sys2Proof/Machine/Placement.lean ====
section
/-! DEFINITION. What a start makes of the defect lists (13_bring_up_and_reset.md R363, R367-R369; 04_core_and_cluster_memories.md
R111-R114): the topology check, the union, the placement of logical cores, the capacities, and the links. -/

namespace Sys2Proof.Machine

/-- An entry with another source. -/
def withSource (w n : Nat) : Nat := withField 25 3 w n

/-- R368: the entries of the generations that can be read, of the runtime list, of the host's list and of this start. -/
def State.defectUnion (s : State) : List Nat :=
  let gens := (s.otp.factory :: s.otp.gens).filter (fun g => g.crcOk && !g.void)
  gens.flatMap (fun g => g.entries) ++ s.integ.defects ++ ((s.boot.host.map (fun h => h.entries)).getD []) ++
    s.boot.findings

/-- Links and routers that the lists call bad. -/
def badLinks (u : List Nat) : List Nat := (u.filter (fun w => defKind w == 3)).map (fun w => unitInst (defUnit w))
def badRouters (u : List Nat) : List Nat := (u.filter (fun w => defKind w == 4)).map (fun w => unitCluster (defUnit w))

/-- R363: links of a router that the lists call bad are not in the expected topology. -/
def State.expectedOut (s : State) (u : List Nat) (i : Nat) : Bool :=
  (badLinks u).contains i || (badRouters u).contains (s.fld fGL_TOPOLOGY_END_A 0 i) ||
    (badRouters u).contains (s.fld fGL_TOPOLOGY_END_B 0 i)

/-- The routers that can be reached from some over links that work. The first argument bounds the length of a way. -/
def spread (s : State) (dead : List Nat) (out : List Nat) : Nat → List Nat → List Nat
  | 0, seen => seen
  | n + 1, seen =>
    let more := (List.range 82).filterMap (fun i =>
      let a := s.fld fGL_TOPOLOGY_END_A 0 i
      let b := s.fld fGL_TOPOLOGY_END_B 0 i
      if dead.contains i || out.contains a || out.contains b then none
      else if seen.contains a && !seen.contains b then some b
      else if seen.contains b && !seen.contains a then some a else none)
    if more.isEmpty then seen else spread s dead out n (seen ++ more.eraseDups)

/-- R358: the attachments of the boot source: that of Ethernet port 0, when it is one. -/
def State.bootLinks (s : State) : List Nat :=
  let src := s.fld fMG_START_STATUS_BOOT_SRC
  if src = 1 ∨ (src = 2 ∧ s.boot.lastSource = 1) then [130] else []

/-- R363: whether the check fails, for links and routers found absent; `u` is the union of the lists. -/
def State.topologyFails (s : State) (u links routers : List Nat) : Bool :=
  let dl := links.filter (fun i => !s.expectedOut u i)
  let dr := routers.filter (fun r => !(badRouters u).contains r)
  let dead := links ++ badLinks u
  let out := routers ++ badRouters u
  let roots := (if dead.contains 138 || out.contains 3 then [] else [3]) ++
    (if dead.contains 139 || out.contains 44 then [] else [44])
  let seen := spread s dead out 48 roots
  decide (fieldOf 40 8 s.boot.cfg.toNat < dl.length) || decide (fieldOf 32 4 s.boot.cfg.toNat < dr.length) ||
    (List.range 48).any (fun r => !out.contains r && !seen.contains r) || (dead.contains 138 && dead.contains 139) ||
    s.bootLinks.any (fun i => dead.contains i)

/-- R363, R364: a defect found by this start, for the union and for the runtime list. -/
def State.foundAtStart (s : State) (w : Nat) : State :=
  let w := withSource w 5
  { s with boot := { s.boot with findings := s.boot.findings ++ [w] } }.listDefect w

/-- R363: a difference within tolerance. -/
def State.topologyDiff (s : State) (u links routers : List Nat) : State :=
  let dl := links.filter (fun i => !s.expectedOut u i)
  let dr := routers.filter (fun r => !(badRouters u).contains r)
  if dl.isEmpty ∧ dr.isEmpty then s
  else
    let s := s.forEach dl (fun i s => s.foundAtStart (defectWord 3 (s.unitLink i) 5 0))
    let s := s.forEach dr (fun r s => s.foundAtStart (defectWord 4 (unitRouter r 0) 5 0))
    let d := dl.flatMap (fun i => leBytes 2 i) ++ dr.flatMap (fun r => leBytes 4 (unitRouter r 0))
    (s.stick fMG_START_STATUS_TOPO_DIFF).event 0x6004 unitInn d

/-- R231, R363: a link with n lane groups out of service: its spare first, then one flit lane for each. -/
def State.fillLanes (s : State) (i n : Nat) : State :=
  if n = 0 then s
  else
    let full := s.fld fGL_TOPOLOGY_LANES_FULL 0 i
    let now := full - (n - 1)
    let s := s.put fGL_TOPOLOGY_SPARE_USED 0 i 1
    if 2 * now < full then s.put fGL_TOPOLOGY_STATE 0 i 3
    else if n = 1 then s else (s.put fGL_TOPOLOGY_LANES_NOW 0 i now).put fGL_TOPOLOGY_STATE 0 i 2

/-- R236, R363: GL_TOPOLOGY filled: lane groups out of service, links absent or removed, and the links of routers that are
fenced. -/
def State.fillTopology (s : State) (u links routers : List Nat) : State :=
  let lanes := fun (i : Nat) => ((u.filter (fun w => defKind w == 2 && unitInst (defUnit w) == i)).map defIndex).eraseDups
  let s := s.forEach (List.range 140) (fun i s => s.fillLanes i (lanes i).length)
  let retired := (List.range 140).flatMap (fun i => (lanes i).map (fun g => 64 * i + g))
  let s := { s with net := { s.net with retired := retired } }
  let s := s.forEach (links.filter (fun i => decide (i < 140))) (fun i s => s.put fGL_TOPOLOGY_STATE 0 i 0)
  let s := s.forEach ((badLinks u).filter (fun i => decide (i < 140))) (fun i s =>
    if links.contains i then s else s.put fGL_TOPOLOGY_STATE 0 i 3)
  s.forEach ((routers ++ badRouters u).filter (fun r => decide (r < 48))) (fun r s =>
    (s.put fNW_ROUTER_STATUS_STATE 0 r 3).endLinks r)

/-- R369: a slot's shrink, from nominal sizes of 128, 128, 96, 96 and 48 units. -/
def shrinkOf (sz : List Nat) : Nat :=
  (([128, 128, 96, 96, 48].zip sz).map (fun p => p.1 - p.2)).foldl (fun a x => a + x) 0

/-- Table 12.2, R368: whether the lists leave a core domain one phase or none. -/
def domainOff (u : List Nat) (d : Nat) : Bool :=
  decide (3 ≤ ((u.filter (fun w => defKind w == 5 && unitInst (defUnit w) == d)).map defIndex).eraseDups.length)

/-- Whether a cluster is out of use: listed, its sequencer or its router bad, its domain off, or out for this start. -/
def State.clusterOut (s : State) (u : List Nat) (c : Nat) : Bool :=
  domainOff u c || u.any (fun w => (defKind w == 12 || defKind w == 9 || defKind w == 4) && unitCluster (defUnit w) == c) ||
    s.boot.outNow.contains (unitCl c 0)

/-- R368, R369: whether a slot is good. -/
def State.slotGood (s : State) (u : List Nat) (x : Nat) : Bool :=
  !(u.any (fun w => defKind w == 0 && defUnit w == unitCore x 0 0) || s.boot.outNow.contains (unitCore x 0 0) ||
    s.clusterOut u (x / 28))

/-- R369 step 2: the spare of a row: the good slot of the largest shrink, the highest of them. -/
def pickSpare (u : List Nat) (good : List Nat) : Option Nat :=
  good.foldl (fun (b : Option Nat) x => match b with
    | none => some x
    | some y => if shrinkOf (slotSizes u y) ≤ shrinkOf (slotSizes u x) then some x else b) none

/-- R112: the smaller of a slot's own size and the spare's, part by part. -/
def minSizes (a : List Nat) : Option (List Nat) → List Nat
  | none => a
  | some b => (a.zip b).map (fun p => min p.1 p.2)

/-- R113: the capacity registers of a slot. -/
def State.setSizes (s : State) (x : Nat) (z : List Nat) : State :=
  let w0 := z.getD 0 0
  let w1 := z.getD 1 0
  let a0 := z.getD 2 0
  let a1 := z.getD 3 0
  let s := ((s.put fCO_WM_CAPACITY_HALF0 x 0 w0).put fCO_WM_CAPACITY_HALF1 x 0 w1).put fCO_WM_CAPACITY_TOTAL x 0 (w0 + w1)
  let s := ((s.put fCO_AM_CAPACITY_HALF0 x 0 a0).put fCO_AM_CAPACITY_HALF1 x 0 a1).put fCO_AM_CAPACITY_TOTAL x 0 (a0 + a1)
  s.put fCO_PM_CAPACITY_TOTAL x 0 (z.getD 4 0)

/-- A slot that cannot be used at this start reads as fenced. -/
def State.slotOut (s : State) (x : Nat) : State :=
  (s.putBit fCL_ROW_SPARE_FENCED (x / 28) 0 (x % 28) true).put fCO_CORE_STATUS_STATE x 0 5

/-- R369 step 4: whether a spare is too small for its row's active slots. -/
def spareSmall (u : List Nat) (limit sp : Nat) (act : List Nat) : Bool :=
  (List.range 5).any (fun k =>
    let low := act.foldl (fun a x => min a ((slotSizes u x).getD k 0)) 1000
    decide (!act.isEmpty) && decide ((slotSizes u sp).getD k 0 + limit < low))

/-- R369: row r of cluster c placed. -/
def State.placeRow (s : State) (u : List Nat) (c r : Nat) : State :=
  let slots := (List.range 7).map (fun k => 28 * c + 7 * r + k)
  let good := slots.filter (fun x => s.slotGood u x)
  let spare := pickSpare u good
  let rest := good.filter (fun x => some x != spare)
  let act := rest.take 6
  let small := match spare with
    | some x => spareSmall u (fieldOf 16 16 s.boot.cfg.toNat) x act
    | none => false
  let keep := if small then none else spare
  let s := s.forEach (slots.filter (fun x => !good.contains x)) (fun x s => s.slotOut x)
  let s := s.forEach (List.range 6) (fun k s => match act[k]? with
    | some x => (s.setMap c (6 * r + k) (x % 28)).setPresent c (6 * r + k) true
    | none => (s.setMap c (6 * r + k) 31).setPresent c (6 * r + k) false)
  let s := s.setSpare c r (keep.map (fun x => x % 28))
  let s := s.forEach act (fun x s => s.setSizes x (minSizes (slotSizes u x) (keep.map (slotSizes u))))
  let s := match spare with
    | some x => s.setSizes x (slotSizes u x)
    | none => s
  match spare with
  | some x => if small then ((s.slotOut x).event 0x6006 (unitCore x 0 0)).listDefect (defectWord 0 (unitCore x 0 0) 5 0)
      else s
  | none => s

/-- R111, R113: a cluster's CM. -/
def State.placeCm (s : State) (u : List Nat) (c : Nat) : State :=
  let z := (List.range 32).map (fun b => usableUnits 12288 192 64 [badRows u (unitCl c b)])
  let s := s.forEach (List.range 32) (fun b s => s.put ⟨rCL_CM_BANK_CAP, 8 * (b % 8), 8⟩ c (b / 8) (z.getD b 0))
  let shrunk := (List.range 32).foldl (fun a b => if z.getD b 0 < 192 then a + 2 ^ b else a) 0
  (s.put fCL_CM_CAPACITY_SHRUNK c 0 shrunk).put fCL_CM_CAPACITY_TOTAL c 0 (z.foldl (fun a x => a + x) 0)

/-- R368: cluster c placed: its rows, its CM, and whether it and its router unit can be used. -/
def State.placeCluster (s : State) (u : List Nat) (c : Nat) : State :=
  let s := s.forEach (List.range 4) (fun r s => s.placeRow u c r)
  let s := s.placeCm u c
  let s := if u.any (fun w => defKind w == 10 && unitCluster (defUnit w) == c) then s.put fCL_ROUTE_STATUS_FENCED c 0 1 else s
  if s.clusterOut u c then
    let t := s.forEach (List.range 28) (fun k s => s.put fCO_INTEG_STATUS_FENCE_REASON (28 * c + k) 0 6)
    { t with integ := { t.integ with clusterFenced := nput t.integ.clusterFenced c 1 } }
  else s

/-- R114: the sums over the logical cores present. -/
def State.placeSums (s : State) : State :=
  let xs := (List.range 48).flatMap (fun c => ((List.range 24).filter (fun l => s.present c l)).map (fun l =>
    28 * c + s.slotOf c l))
  let sum := fun (f : Fld) => xs.foldl (fun a x => a + s.fld f x) 0
  let cm := (List.range 48).foldl (fun a c => a + s.fld fCL_CM_CAPACITY_TOTAL c) 0
  let s1 := (s.put fGL_CAPACITY0_AM 0 0 (sum fCO_AM_CAPACITY_TOTAL)).put fGL_CAPACITY0_WM 0 0 (sum fCO_WM_CAPACITY_TOTAL)
  (s1.put fGL_CAPACITY1_PM 0 0 (sum fCO_PM_CAPACITY_TOTAL)).put fGL_CAPACITY1_CM 0 0 cm

/-- Table 12.2, R368: a listed regulator phase stays disabled, with what that means for its domain. -/
def State.placePhase (s : State) (d phase : Nat) : State :=
  let s := s.putBit fPW_PHASE_STATUS_FAILED 0 d phase true
  let n := s.failedPhases d
  if d < 48 then (if n = 2 then s.setCeil .regulator d (some 4) else s)
  else if n ≤ (if d = 48 then 4 else 2) then s
  else if (if d = 48 then 8 else 4) < n then s.stopFaulted
  else { s.ceilAll with hbm := { s.hbm with rateMax := if d = 48 then 1 else s.hbm.rateMax } }

/-- R368: thermal sensors that the lists call bad are ignored. -/
def State.placeSensors (s : State) (u : List Nat) : State :=
  s.forEach (u.filter (fun w => defKind w == 11)) (fun w s => s.put fMG_SENSOR_IGNORED 0 (unitInst (defUnit w)) 1)

/-- Step 13 of Table 13.3. -/
def State.mergeDefects (s : State) : State :=
  let u := s.defectUnion
  let s := s.forEach (List.range 48) (fun c s => s.placeCluster u c)
  let s := s.forEach (u.filter (fun w => defKind w == 5)) (fun w s => s.placePhase (unitInst (defUnit w)) (defIndex w))
  let frames := (u.filter (fun w => defKind w == 6)).map defIndex
  let rows := u.filter (fun w => defKind w == 1)
  ({ s with hbm := { s.hbm with badFrames := frames }, ms := { s.ms with mapped := rows } }.placeSensors u).placeSums

end Sys2Proof.Machine
end

