-- ==== Sys2Proof/Machine/Boot.lean ====
section
/-! DEFINITION. The start sequence and its journal (13_bring_up_and_reset.md R358-R375): the start, each step's end, its
watchdog, the boot messages, and the burning of defect generations. -/

namespace Sys2Proof.Machine

/-- R375: the failure count of a step, and its change. -/
def State.failCount (s : State) (k : Nat) : Nat := fieldOf (4 * (k - 1)) 4 (s.fld fMG_BOOT_FAILS_COUNTS)
def State.setFails (s : State) (k n : Nat) : State :=
  s.put fMG_BOOT_FAILS_COUNTS 0 0 (withField (4 * (k - 1)) 4 (s.fld fMG_BOOT_FAILS_COUNTS) n)

/-- Whether Table 13.3 names an alternative for a step. -/
def State.hasAlt (s : State) (k : Nat) : Bool :=
  (k == 2 && s.fld fMG_START_STATUS_BOOT_SRC == 2) || [4, 6, 8, 9, 10, 11, 12].contains k

/-- R441: FAULT_N is asserted while the device or the controller is stopped or the start waits for a host or is stopped. -/
def State.driveFault (s : State) : State :=
  { s with pins := { s.pins with faultN := !(s.pw.stopped || s.mg.ctrl == 2 || decide (2 ≤ s.fld fMG_START_STATUS_STATE)) } }

/-- R374: the journal entry that a step writes before it begins. -/
def State.journalEntry (s : State) (k : Nat) : State :=
  let i := s.boot.journalNext
  let s := s.setReg rMG_BOOT_JOURNAL0 0 i (BitVec.ofNat 64 s.now)
  let w := 0xFFFFFFFF00000000 + 2 ^ 16 * k + s.fld fMG_START_STATUS_START_NUMBER
  { s.setReg rMG_BOOT_JOURNAL1 0 i (BitVec.ofNat 64 w) with boot := { s.boot with journalNext := (i + 1) % 32 } }

/-- R375: the start stops for a host's instruction. -/
def State.stopForHost (s : State) : State :=
  ((s.outcomeSet 5).put fMG_START_STATUS_STATE 0 0 2).driveFault.event 0x6008 unitInn

/-- R374, R375: step k begins, by its alternative where its count is 1 or 2 or a host says so; at a count of 3 it is not
run. -/
def State.beginStep (s : State) (k : Nat) : State :=
  let n := s.failCount k
  let s := (s.journalEntry k).put fMG_START_STATUS_STEP 0 0 k
  let s := s.put fMG_BOOT_PROGRESS_DONE 0 0 0
  if 3 ≤ n ∧ s.boot.instruct = none then { s with boot := { s.boot with stepAt := s.now, alt := false } }.stopForHost
  else
    let alt := s.hasAlt k && (match s.boot.instruct with
      | some w => w == 1
      | none => decide (1 ≤ n))
    { s with boot := { s.boot with stepAt := s.now, alt := alt, instruct := none } }

/-- R375: a step's failure counted at the next start, with the clusters its progress marks. -/
def State.countFailure (s : State) : State :=
  let i := s.newestEntry
  let k := s.fld fMG_BOOT_JOURNAL1_STEP 0 i
  let o := s.fld fMG_BOOT_JOURNAL1_OUTCOME 0 i
  let s := { s with boot := { s.boot with prev := (k, o) } }
  if k ≠ 0 ∧ k ≤ 14 ∧ (o = 0 ∨ o = 2) then
    let sus := nput s.boot.suspects k (s.fld fMG_BOOT_PROGRESS_DONE)
    { s with boot := { s.boot with suspects := sus } }.setFails k (min 3 (s.failCount k + 1))
  else s

/-- R361: at t0 the start begins: the straps are sampled, the previous start's newest entry is examined, and step 1 runs. -/
def State.startSequence (s : State) : State :=
  let s := (s.wrap fMG_START_STATUS_START_NUMBER 0 0 1).put fMG_START_STATUS_BOOT_SRC 0 0 s.pins.bootSrc
  let s := (s.put fMG_START_STATUS_STATE 0 0 0).put fMG_START_STATUS_MODE 0 0 0
  let s := s.countFailure
  let cfg := s.reg rMG_START_CFG 0 0
  let b := { s.boot with due := false, running := true, cfg := cfg, findings := [], outNow := [], transfer := none,
                         instruct := none }
  ({ s with boot := b }.driveFault).beginStep 1

def execStartSequence (s : State) : Outcome :=
  s.guard (s.boot.due && s.pins.vstby && s.pins.resetN) (fun s => s.startSequence)

/-- R444: step 2 looks for the commit mark first: with the copy whole, the start takes the image from the image area. -/
def State.takeCommit (s : State) : State :=
  match s.boot.commit with
  | none => s
  | some (m, h) =>
    let image := s.boot.image
    let list := s.boot.host
    let s := { s with boot := { s.boot with commit := none, image := [], host := none } }
    if m = h then s.settleMode image list else (s.stick fMG_STICKY0_UPDATE_FAILED).event 0x6209 unitInn

/-- R364, R374: the defects a test step found, for the lists, with one record for each unit. -/
def State.testFindings (s : State) (found : List Nat) : State :=
  let s := s.forEach found (fun w s => s.foundAtStart w)
  s.forEach ((found.map defUnit).eraseDups) (fun u s => s.event 0x6005 u)

/-- R375: units that an alternative leaves out for this start only. -/
def State.leaveOut (s : State) (units : List Nat) : State :=
  { s with boot := { s.boot with outNow := s.boot.outNow ++ units } }

/-- Clusters that a bit map does not mark. -/
def unmarked (done : Nat) : List Nat := (List.range 48).filter (fun c => !done.testBit c)

/-- Table 13.3: what a step's alternative does beyond the step itself; `p` is what MG_BOOT_PROGRESS held at the failure. -/
def State.alternative (s : State) (k p : Nat) (r : StepReport) : State :=
  match k with
  | 4 => s.leaveOut ((unmarked r.done).map (fun c => unitCl c 0))
  | 6 => s.leaveOut ((unmarked p).map (fun c => unitCl c 0))
  | 9 => s.leaveOut ((unmarked p).map (fun c => unitCl c 0))
  | 10 => s.leaveOut ((unmarked p).flatMap (fun c => (List.range 28).map (fun x => unitCore (28 * c + x) 0 0)))
  | 8 => s.forEach ((List.range 12).filter (fun n => !r.done.testBit n)) (fun n s =>
      (s.put fHB_STATUS_RATE_NOW n 0 0).put fHB_RATE_CTRL_TARGET n 0 0)
  | _ => s

/-- R371, R373: step 5 reads the generations. -/
def State.readOtp (s : State) : State :=
  let all := s.otp.factory :: s.otp.gens
  let good := all.filter (fun g => g.crcOk && !g.void)
  let n := good.foldl (fun a g => a + g.entries.length) 0
  let s := (s.put fMG_DEFECT_STATUS_GENS_USED 0 0 s.otp.gens.length).put fMG_DEFECT_STATUS_GENS_VOID 0 0
    ((s.otp.gens.filter (fun g => g.void)).length)
  let s := s.put fMG_DEFECT_STATUS_OTP_ENTRIES 0 0 n
  if all.any (fun g => !g.crcOk && !g.void) then s.stick fMG_START_STATUS_OTP_CRC_BAD else s

/-- R373: whether the generations keep the start from going on without a host's list. -/
def State.otpHolds (s : State) : Bool := s.is fMG_START_STATUS_OTP_CRC_BAD && s.boot.host.isNone

/-- R299: after a start, due times follow one another 75 s apart, in cluster and slot order. -/
def State.dressTimes (s : State) : State :=
  let t := s.now
  let l := s.allActive
  let due := (l.zip (List.range l.length)).foldl (fun m p => nput m p.1 (t + 18750000000 * (p.2 + 1))) []
  { s with integ := { s.integ with dueAt := due } }

/-- R361, R366, R375: the end of step 14: the device is ready. -/
def State.becomeReady (s : State) : State :=
  let full := s.fld fMG_START_STATUS_MODE == 0
  let s := { s with mem := [], core := {}, ms := { s.ms with poison := [], upsets := [] } }
  let b := { s.boot with running := false, measure := imgMeasure s.boot.image,
                         lastFull := if full then some (s.fld fMG_START_STATUS_START_NUMBER, s.now) else s.boot.lastFull }
  let s := ({ s with boot := b }.put fMG_START_STATUS_STATE 0 0 1).put fMG_START_STATUS_STEP 0 0 0
  (s.put fMG_BOOT_FAILS_COUNTS 0 0 0).dressTimes.event 0x6009 unitInn

/-- What step k leaves, when it has gone well. -/
def State.stepEffect (s : State) (k : Nat) (r : StepReport) : State :=
  match k with
  | 6 => s.forEach (if s.boot.alt then r.links.filter (fun i => decide (i < 140)) else []) (fun i s =>
      s.put fGL_TOPOLOGY_STATE 0 i 3)
  | 7 =>
    let u := s.defectUnion
    (s.topologyDiff u r.links r.routers).fillTopology u r.links r.routers
  | 8 => s.testFindings r.found
  | 9 => s.testFindings r.found
  | 10 => s.forEach r.found (fun w s => s.foundAtStart w)
  | 11 => s.testFindings r.found
  | 12 => if s.boot.alt then s else s.testFindings r.found
  | 13 =>
    let s := s.mergeDefects
    if Config.derivedHash = Config.identityHash then s else (s.stick fSC_STATUS_IDENTITY_BAD).event 0x700B unitInn
  | 14 => s.becomeReady
  | _ => s

/-- R374: a step ends as done, or as done by its alternative, and the next begins. -/
def State.stepDone (s : State) (k : Nat) (r : StepReport) : State :=
  let i := s.newestEntry
  let s := s.put fMG_BOOT_JOURNAL1_OUTCOME 0 i (if s.boot.alt then 4 else 1)
  let s := if s.boot.alt then (s.stick fMG_START_STATUS_STEP_ALTERED).event 0x6007 unitInn else s
  let s := if s.boot.alt then s.alternative k (nget s.boot.suspects k) r else s
  let s := s.stepEffect k r
  if k = 14 then s else if k = 1 then (s.beginStep 2).takeCommit else s.beginStep (k + 1)

/-- A step fails, and its watchdog will end the start (R375); UNIT names what failed. -/
def State.stepFail (s : State) (unit : Nat) : State :=
  (s.outcomeSet 2).put fMG_BOOT_JOURNAL1_UNIT 0 s.newestEntry unit

/-- R360, R361: verification refuses the image: back to the request for one. -/
def State.verifyStep (s : State) (r : StepReport) : State :=
  match s.imageFails s.boot.image with
  | 0 => s.stepDone 3 r
  | n =>
    let s := (s.outcomeSet 1).imageRefused s.boot.lastSource n
    ({ s with boot := { s.boot with image := [], host := none } }).beginStep 2

/-- R361: the step under way ends. -/
def State.stepEnd (s : State) (k : Nat) (r : StepReport) : State :=
  let s := if [4, 6, 9, 10].contains k then s.put fMG_BOOT_PROGRESS_DONE 0 0 r.done else s
  if !r.ok then s.stepFail r.unit
  else match k with
  | 3 => s.verifyStep r
  | 5 => if s.readOtp.otpHolds then s.readOtp.stopForHost else s.readOtp.stepDone 5 r
  | 7 => if s.topologyFails s.defectUnion r.links r.routers then (s.stepFail 0xFFFFFFFF).event 0x6003 unitInn
      else s.stepDone 7 r
  | _ => s.stepDone k r

/-- Whether step k is under way and can end: step 2 needs its image, and step 4 PWR_GOOD (R456). -/
def State.stepRuns (s : State) (k : Nat) : Bool :=
  s.boot.running && s.fld fMG_START_STATUS_STATE == 0 && s.fld fMG_START_STATUS_STEP == k && decide (1 ≤ k) &&
    decide (k ≤ 14) && s.fld fMG_BOOT_JOURNAL1_OUTCOME 0 s.newestEntry == 0 && (k != 2 || !s.boot.image.isEmpty) &&
    (k != 4 || s.pins.pwrGood)

def execStartStepComplete (k : Nat) (r : StepReport) (s : State) : Outcome :=
  s.guard (s.stepRuns k) (fun s => s.stepEnd k r)

/-- R375: a step's watchdog, ms: four times its full-start duration and at least 1 s. -/
def stepLimit (k : Nat) : Nat :=
  max 1000 (4 * [300, 200, 50, 100, 50, 1500, 300, 6000, 30000, 2000, 60000, 131000, 1000, 1500].getD (k - 1) 0)

/-- Table 13.1: the sources that are selected; the alternative of step 2 takes the other one. -/
def State.selected (s : State) : List Nat :=
  match s.fld fMG_START_STATUS_BOOT_SRC with
  | 0 => [0]
  | 1 => [1]
  | 2 => if s.boot.alt && s.fld fMG_START_STATUS_STEP == 2 then [1 - s.boot.lastSource] else [0, 1]
  | _ => [3]

/-- R456: the selected sources on which the innkeeper asks for firmware: port 0 needs PWR_GOOD. -/
def State.sources (s : State) : List Nat := s.selected.filter (fun x => x != 1 || s.pins.pwrGood)

/-- R456: whether the step waits for PWR_GOOD, so that its watchdog does not run. -/
def State.railsAwaited (s : State) : Bool :=
  let k := s.fld fMG_START_STATUS_STEP
  !s.pins.pwrGood && (k == 4 || (k == 2 && s.selected == [1]))

/-- R375: `done` marks the clusters that have finished the step. -/
def execStartStepWatchdog (done : Nat) (s : State) : Outcome :=
  s.guard (s.boot.running && s.fld fMG_START_STATUS_STATE == 0 && !s.railsAwaited &&
      decide (s.boot.stepAt + 250000 * stepLimit (s.fld fMG_START_STATUS_STEP) ≤ s.now)) (fun s =>
    let s := if [4, 6, 9, 10].contains (s.fld fMG_START_STATUS_STEP) then s.put fMG_BOOT_PROGRESS_DONE 0 0 done else s
    (s.outcomeSet 2).deviceReset 3)

/-- Whether a boot image is wanted: in step 2 until there is one, or while the start waits for a host (R375). -/
def State.wantsImage (s : State) : Bool :=
  s.boot.running && (s.fld fMG_START_STATUS_STATE == 2 ||
    (s.fld fMG_START_STATUS_STATE == 0 && s.fld fMG_START_STATUS_STEP == 2 && s.boot.image.isEmpty))

/-- R359 step 1: every 1 s until an offer comes. -/
def execBootRequest (s : State) : Outcome :=
  s.guard (s.wantsImage && s.boot.transfer.isNone && decide (s.boot.lastRequest + 250000000 ≤ s.now + 1 ∨
      s.boot.lastRequest = 0)) (fun s =>
    let body := [Config.serial.toNat, Config.romVersion.toNat, s.otp.gens.length, s.fld fMG_START_STATUS_START_NUMBER,
      s.boot.prev.1, s.boot.prev.2, s.fld fMG_START_STATUS_STATE]
    let s := { s with boot := { s.boot with lastRequest := s.now + 1 } }
    s.forEach s.sources (fun x s => s.emit .bootRequest x 0x01 body))

/-- Whether a boot message from a source belongs to the transfer under way. -/
def State.bootTransfer (s : State) (source : Nat) : Option Transfer :=
  match s.boot.transfer with
  | some t => if s.wantsImage && t.source == source && !t.staged then some t else none
  | none => none

/-- R359 step 2: a boot offer: the first on a selected source wins, and its sender may begin again. -/
def State.bootOffer (s : State) (source version size : Nat) (list : Bool) : State :=
  let mine : Bool := match s.boot.transfer with
    | some t => t.source == source
    | none => true
  if s.wantsImage ∧ s.sources.contains source ∧ mine then s.offer source source false version size list else s

/-- R443: an owner's offer with STAGE: it replaces any staged image. -/
def State.stageOffer (s : State) (n version size : Nat) (list : Bool) : State :=
  let s := if 393216 < size then s else { s with mg := { s.mg with staged := none } }
  s.offer n 4 true version size list

/-- Firmware and list messages of a staged transfer come in an owner's session (`h`); boot messages carry none, and name
the source on which they came. -/
def execImageOffer (h : Option MsgHdr) (source version size : Nat) (list : Bool) (s : State) : Outcome :=
  match h with
  | none => .next (if s.mg.ctrl = 0 then s.bootOffer source version size list else s)
  | some h => .next (s.message h 0x02 .owner none (fun x s => s.stageOffer x.number version size list))

/-- The staged transfer under way. -/
def State.staging (s : State) : Option Transfer :=
  match s.boot.transfer with
  | some t => if t.staged then some t else none
  | none => none

/-- What a message of a transfer does, if the transfer is under way. -/
def State.inTransfer (s : State) (t : Option Transfer) (f : Transfer → State → State) : State :=
  match t with
  | some t => if s.mg.ctrl = 0 then f t s else s
  | none => s

def execImageData (h : Option MsgHdr) (source offset : Nat) (bs : List (BitVec 8)) (s : State) : Outcome :=
  match h with
  | none => .next (s.inTransfer (s.bootTransfer source) (fun t s => s.chunk source offset bs t))
  | some h => .next (s.message h 0x03 .owner none (fun x s => s.inTransfer s.staging (fun t s => s.chunk x.number offset bs t)))

/-- R366, R367: a list may follow only if the offer said so. -/
def State.listMessage (s : State) (p : HostList) (t : Transfer) : State := if t.list then s.listPart p t else s

def execDefectList (h : Option MsgHdr) (source : Nat) (p : HostList) (s : State) : Outcome :=
  match h with
  | none => .next (s.inTransfer (s.bootTransfer source) (fun t s => s.listMessage p t))
  | some h => .next (s.message h 0x05 .owner none (fun _ s => s.inTransfer s.staging (fun t s => s.listMessage p t)))

def execImageEnd (h : Option MsgHdr) (source : Nat) (s : State) : Outcome :=
  match h with
  | none => .next (s.inTransfer (s.bootTransfer source) (fun t s => s.bootEnd source t))
  | some h => .next (s.message h 0x06 .owner none (fun x s => s.inTransfer s.staging (fun t s => s.stageEnd x.number t)))

/-- R359: a host silent for 60 s after its offer. -/
def execImageTransferTimeout (s : State) : Outcome :=
  match s.boot.transfer with
  | none => .next s
  | some t => s.guard (decide (t.heard + 15000000000 ≤ s.now)) (fun s => { s with boot := { s.boot with transfer := none } })

/-- R375: 0 retry normally, 1 retry by the alternative, 2 stay stopped. -/
def State.instructed (s : State) (what : Nat) : State :=
  if what = 2 then (s.put fMG_START_STATUS_STATE 0 0 3).driveFault
  else if what < 2 then
    let s := { s with boot := { s.boot with instruct := some what, transfer := none } }
    (s.put fMG_START_STATUS_STATE 0 0 0).driveFault.beginStep (s.fld fMG_START_STATUS_STEP)
  else s

def execBootInstruct (what : Nat) (s : State) : Outcome :=
  s.guard (s.mg.ctrl == 0 && s.boot.running && s.fld fMG_START_STATUS_STATE == 2) (fun s => s.instructed what)

/-- R372: entries in ascending KIND order, then ascending UNIT. -/
def burnKey (w : Nat) : Nat := 2 ^ 32 * defKind w + defUnit w

/-- An entry placed in that order, after those of its key. -/
def burnPlace (w : Nat) : List Nat → List Nat
  | [] => [w]
  | x :: l => if burnKey w < burnKey x then w :: x :: l else x :: burnPlace w l

/-- R372: the runtime entries that no generation of OTP holds. -/
def State.unburnt (s : State) : List Nat :=
  let otp := ((s.otp.factory :: s.otp.gens).filter (fun g => g.crcOk && !g.void)).flatMap (fun g => g.entries)
  s.integ.defects.filter (fun w => !otp.any (sameDefect w))

/-- R372: the entries burnt into the next free generation, and into the next again if it fails its read-back; `fails`
says how many do. `cut`: a whole-device reset meets the burn of a good one (Table 13.10), which is the next command: the words
burnt stand, and the generation fails its CRC. The first argument bounds the generations. -/
def State.burnInto (cut : Bool) : Nat → Nat → List Nat → State → State
  | 0, _, _, s => (s.stick fMG_START_STATUS_OTP_EXHAUSTED).event 0x600C unitInn
  | n + 1, fails, l, s =>
    let g := s.otp.gens.length
    if 4 ≤ g then (s.stick fMG_START_STATUS_OTP_EXHAUSTED).event 0x600C unitInn
    else
      let gen : OtpGen := { entries := l.map (fun w => withSource w (g + 1)), start := s.fld fMG_START_STATUS_START_NUMBER,
                            void := decide (0 < fails), crcOk := decide (fails = 0) && !cut }
      let s := { s with otp := { s.otp with gens := s.otp.gens ++ [gen] } }.put fMG_DEFECT_STATUS_GENS_USED 0 0 (g + 1)
      if 0 < fails then (s.wrap fMG_DEFECT_STATUS_GENS_VOID 0 0 1).burnInto cut n (fails - 1) l
      else if cut then s
      else (s.wrap fMG_DEFECT_STATUS_OTP_ENTRIES 0 0 l.length).event 0x600B unitInn
        (BitVec.ofNat 8 (g + 1) :: leBytes 2 l.length)

/-- R372: a burn, by firmware or at a host's request. -/
def State.burn (s : State) (fails : Nat) (cut : Bool) : State :=
  if s.ready then s.burnInto cut 5 fails ((s.unburnt.foldl (fun l w => burnPlace w l) []).take 62) else s

/-- MG_START_CTRL with OP 2. -/
def execBurnGeneration (rq : Rq) (fails : Nat) (cut : Bool) (s : State) : Outcome :=
  .next (s.csAct rq (mgAddr 0x2000) (fun s => s.burn fails cut))

/-- MG_START_CTRL with OP 3. -/
def execClearFailureCounts (rq : Rq) (s : State) : Outcome :=
  .next (s.csAct rq (mgAddr 0x2000) (fun s => s.put fMG_BOOT_FAILS_COUNTS 0 0 0))

end Sys2Proof.Machine
end

