-- ==== Sys2Proof/Machine/Frames.lean ====
section
/-! DEFINITION. Frames and bands (09_hbm_and_translation.md R256, R257, R271-R273; 14_lodgings_and_security.md R394): which
frames are free for a lodging, the bands converted for it, and the innkeeper's invalidations and scrubs. -/

namespace Sys2Proof.Machine

/-- Frames of a band, and the first frame of the reserved area (R270). -/
def bandFrames : Nat := 196608
def reservedFrame : Nat := 12566528

/-- What may be granted: an interleave mode (R257) and the fields of a field-local lodging. -/
structure FrameWish where
  mode : Nat
  fields : List Nat
  deriving DecidableEq, Repr

/-- The fields in which some clusters lie. -/
def maskFields (mask : Nat) : List Nat := (List.range 6).filter (fun f => (fieldClusters f).any (fun c => mask.testBit c))

/-- R364: whether a frame holds a byte of a listed HBM row, under the mode of its band. -/
def State.rowInFrame (s : State) (rows : List Nat) (fr : Nat) : Bool :=
  (List.range 16).any (fun j =>
    let a := 65536 * fr + 4096 * j
    rows.any (fun w => s.stackOf a == unitInst (defUnit w) && s.stackAddr a / 65536 == defIndex w / 16))

/-- A frame that may be granted: free, of a band of the mode, in a field of the lodging, not listed, and below the
reserved area. -/
def State.frameFree (s : State) (w : FrameWish) (rows : List Nat) (fr : Nat) : Bool :=
  let b := fr / bandFrames
  let l := (s.fld fGL_BAND_MODE_FIELD_LOCAL).testBit b
  nget s.mg.frames fr == 0 && !s.hbm.badFrames.contains fr && l == (w.mode == 1) &&
    (w.mode != 1 || w.fields.contains (fr % bandFrames / 32768)) && !s.rowInFrame rows fr

/-- The lowest frames that may be granted, `want` of them or as many as there are. The first argument bounds the search. -/
def State.pickFrames (s : State) (w : FrameWish) (rows : List Nat) : Nat → Nat → Nat → List Nat
  | 0, _, _ => []
  | _ + 1, _, 0 => []
  | n + 1, fr, want + 1 =>
    if s.frameFree w rows fr then fr :: s.pickFrames w rows n (fr + 1) want else s.pickFrames w rows n (fr + 1) (want + 1)

/-- The HBM rows that the lists call bad. -/
def State.badHbmRows (s : State) : List Nat := s.defectUnion.filter (fun w => defKind w == 7)

def State.findFrames (s : State) (w : FrameWish) (want : Nat) : List Nat :=
  s.pickFrames w s.badHbmRows reservedFrame 0 want

/-- R473: a band that may change its mode: it holds no granted frame and no scrub job. Band 63 stays global. -/
def State.bandIdle (s : State) (b : Nat) : Bool :=
  let hit := fun (r : Nat × Nat) => decide (r.1 < (b + 1) * bandFrames) && decide (b * bandFrames < r.1 + r.2)
  decide (b < 63) && !(s.mg.frames.any (fun p => p.1 / bandFrames == b)) && !s.hbm.scrubs.any hit && !s.mg.toScrub.any hit

/-- R256: a band's mode changed. -/
def State.convertBand (s : State) (b : Nat) : State :=
  s.putBit fGL_BAND_MODE_FIELD_LOCAL 0 0 b (!(s.fld fGL_BAND_MODE_FIELD_LOCAL).testBit b)

/-- R473: bands converted until the frames suffice: those converted, and the state with their modes; none when no band can
be converted. The first argument bounds their number. -/
def State.convertFor (s : State) (w : FrameWish) (want : Nat) : Nat → Option (List Nat × State)
  | 0 => none
  | n + 1 =>
    if want ≤ (s.findFrames w want).length then some ([], s)
    else
      let l := (List.range 63).filter (fun b =>
        (s.fld fGL_BAND_MODE_FIELD_LOCAL).testBit b != (w.mode == 1) && s.bandIdle b)
      match l with
      | [] => none
      | b :: _ => ((s.convertBand b).convertFor w want n).map (fun p => (b :: p.1, p.2))

/-- Runs of neighbouring numbers of a rising list, as first number and length. -/
def runsOf : List Nat → List (Nat × Nat)
  | [] => []
  | a :: l => match runsOf l with
    | (b, n) :: r => if b = a + 1 then (a, n + 1) :: r else (a, 1) :: (b, n) :: r
    | [] => [(a, 1)]

/-- R386: frames granted to a lodging. -/
def State.grantFrames (s : State) (l : Nat) (fs : List Nat) : State :=
  let m := fs.foldl (fun m f => nput m f (1 + l)) s.mg.frames
  { s with mg := { s.mg with frames := m, bandsUsed := (s.mg.bandsUsed ++ fs.map (fun f => f / bandFrames)).eraseDups } }

/-- The frames of a lodging. -/
def State.framesOf (s : State) (l : Nat) : List Nat := (s.mg.frames.filter (fun p => p.2 == 1 + l)).map (fun p => p.1)

/-- R272: ranges that wait enter the scrubber's queue while it has room. The first argument bounds their number. -/
def State.pumpScrubGo : Nat → State → State
  | 0, s => s
  | n + 1, s =>
    match s.mg.toScrub with
    | [] => s
    | r :: rest =>
      if 16 ≤ s.hbm.scrubs.length then s
      else State.pumpScrubGo n ({ s with mg := { s.mg with toScrub := rest } }.scrubSubmit r.1 r.2)

def State.pumpScrub (s : State) : State := State.pumpScrubGo 16 s

def State.queueScrubs (s : State) (l : List (Nat × Nat)) : State :=
  { s with mg := { s.mg with toScrub := s.mg.toScrub ++ l } }.pumpScrub

/-- R271: the innkeeper's next invalidation is written once none is pending. -/
def State.pumpInval (s : State) : State :=
  match s.mg.invals with
  | [] => s
  | v :: _ =>
    if s.mg.invalOn ∨ s.is fGL_TLB_STATUS_PENDING then s
    else { s with mg := { s.mg with invalOn := true } }.tlbInval v.l v.first v.pages

def State.queueInval (s : State) (v : Inval) : State := { s with mg := { s.mg with invals := s.mg.invals ++ [v] } }.pumpInval

/-- The pages of a lodging whose entries hold anything: those with a byte listed in its region. -/
def State.pagesListed (s : State) (l : Nat) : List Nat :=
  let base := s.pteAddr l 0
  let n := s.fld fGL_PT_REGION_COUNT 0 l
  (s.mem.filterMap (fun c =>
    if c.1 < 12 * 2 ^ 36 then
      let a := s.physOfKey c.1
      if base ≤ a ∧ a < base + 8 * n then some ((a - base) / 8) else none
    else none)).eraseDups

/-- R273: entries of a lodging cleared. -/
def State.clearPages (s : State) (l : Nat) (ps : List Nat) : State :=
  s.forEach ps (fun v s => s.physWrite (s.pteAddr l v) (leBytes 8 0))

/-- R273, R394: frames released: their entries cleared and invalidated; their scrub follows, and only then are they free. -/
def State.releaseFrames (s : State) (l : Nat) (fs : List Nat) (session : Option (Nat × Nat)) : State :=
  let ps := (s.pagesListed l).filter (fun v =>
    let e := s.physNat (s.pteAddr l v) 8
    pteValid e && fs.contains (pteFrame e))
  let s := s.clearPages l ps
  let m := fs.foldl (fun m f => nput m f 9) s.mg.frames
  { s with mg := { s.mg with frames := m } }.queueInval { l := l, first := 0, pages := 0, scrub := runsOf fs,
                                                          session := session }

/-- R271, R273: the end of an invalidation: the innkeeper's own is followed by its scrubs. -/
def State.afterInval (s : State) : State × Option (Nat × Nat) :=
  match s.mg.invals with
  | [] => (s, none)
  | v :: rest =>
    if s.mg.invalOn then
      let s := { s with mg := { s.mg with invals := rest, invalOn := false } }
      (s.queueScrubs v.scrub, v.session)
    else (s, none)

/-- Whether a scrub of a frame is still to come. -/
def State.scrubOwed (s : State) (fr : Nat) : Bool :=
  ((s.mg.invals.flatMap (fun v => v.scrub)) ++ s.mg.toScrub ++ s.hbm.scrubs).any (fun r =>
    decide (r.1 ≤ fr) && decide (fr < r.1 + r.2))

/-- R273: frames whose scrub is done become free. -/
def State.freeScrubbed (s : State) (j : Nat × Nat) : State :=
  let keep := fun (p : Nat × Nat) => !(p.2 == 9 && decide (j.1 ≤ p.1) && decide (p.1 < j.1 + j.2)) || s.scrubOwed p.1
  { s with mg := { s.mg with frames := s.mg.frames.filter keep } }

end Sys2Proof.Machine
end

