-- ==== Sys2Proof/Machine/Lodging.lean ====
section
/-! DEFINITION. Opening, changing and closing lodgings, their pages, keys and attestation
(14_lodgings_and_security.md R386-R405; 16_management_subsystem.md R438), and the ends of what those acts wait for. -/

namespace Sys2Proof.Machine

/-- R436: acts on grants and attestations are performed one at a time: a further one is handled when no act is under way. -/
def State.serialMessage (s : State) (h : MsgHdr) (type : Nat) (r : Role) (l : Option Nat) (act : Session → State → State) :
    State :=
  let fresh : Bool := match s.session h.session with
    | some x => h.macOk && h.wellFormed && !h.queueFull && decide (x.seq < h.seq)
    | none => false
  if fresh ∧ !s.mg.acts.isEmpty then s else s.message h type r l act

/-- A malformed body. -/
def State.malformed (s : State) (n type : Nat) : State := s.reply n type 2 0 0 []

/-- The numbers whose bits are set in a mask of w bits. -/
def maskList (w m : Nat) : List Nat := (List.range w).filter (fun k => m.testBit k)

/-- Whether two ranges meet. -/
def rangesMeet (f n g m : Nat) : Bool := decide (n ≠ 0) && decide (m ≠ 0) && decide (f < g + m) && decide (g < f + n)

def State.lodgingOpen? (s : State) (l : Nat) : Bool := s.is fGL_LODGING_CFG_OPEN 0 l

/-- R166, R266, R386, R400: whether the ranges asked for are free. -/
def State.rangesFree (s : State) (q : LodgingReq) : Bool :=
  decide (q.streamFirst + q.streamCount ≤ 65536) && decide (q.ptFirst + q.ptCount ≤ 16777216) &&
    decide (q.keyFirst + q.keyCount ≤ 256) &&
    (List.range 8).all (fun o => !s.lodgingOpen? o ||
      (!rangesMeet q.streamFirst q.streamCount (s.fld fGL_STREAM_RANGE_FIRST 0 o) (s.fld fGL_STREAM_RANGE_COUNT 0 o) &&
        !rangesMeet q.ptFirst q.ptCount (s.fld fGL_PT_REGION_FIRST 0 o) (s.fld fGL_PT_REGION_COUNT 0 o) &&
        !rangesMeet q.keyFirst q.keyCount (s.fld fSC_SLOT_RANGE_FIRST 0 o) (s.fld fSC_SLOT_RANGE_COUNT 0 o)))

/-- R386: whether the clusters, barriers and sub-ports asked for are free. -/
def State.unitsFree (s : State) (q : LodgingReq) : Bool :=
  decide (q.clusters < 2 ^ 48) && decide (q.barriers < 2 ^ 64) && decide (q.ports < 2 ^ 32) &&
    (maskList 48 q.clusters).all (fun c => !s.is fCL_OWNER_VALID c) &&
    (maskList 64 q.barriers).all (fun b => !s.is fGL_BARRIER_OWNED 0 b) &&
    (List.range 8).all (fun o => !s.lodgingOpen? o || q.ports &&& s.fld fGL_LODGING_CFG_PORTS 0 o == 0)

/-- R257: what frames an opening or an addition asks for. -/
def State.wishOf (s : State) (q : LodgingReq) (mode : Nat) : FrameWish :=
  { mode := mode, fields := maskFields (q.clusters ||| s.fld fGL_LODGING_CLUSTERS_CLUSTERS 0 q.l) }

/-- R390 steps 2 and 3, R392: barriers, frames and clusters granted. -/
def State.grantUnits (s : State) (q : LodgingReq) (fs : List Nat) : State :=
  let s := s.forEach (maskList 64 q.barriers) (fun b s => (s.put fGL_BARRIER_OWNED 0 b 1).put fGL_BARRIER_OWNER 0 b q.l)
  let s := s.grantFrames q.l fs
  let s := s.forEach (maskList 48 q.clusters) (fun c s =>
    ((s.put fCL_OWNER_LODGING c 0 q.l).put fCL_OWNER_LEAVING c 0 0).put fCL_OWNER_VALID c 0 1)
  s.put fGL_LODGING_CLUSTERS_CLUSTERS 0 q.l (s.fld fGL_LODGING_CLUSTERS_CLUSTERS 0 q.l ||| q.clusters)

/-- R429: what opening loads into a lodging's checkpoint registers. -/
def State.ckptDefaults (s : State) (l : Nat) : State :=
  let rows := [rET_CKPT_CFG0, rET_CKPT_CFG1, rET_CKPT_CFG2, rET_CKPT_CFG3, rET_CKPT_CFG4, rET_CKPT_CFG5, rET_CKPT_CFG6,
    rET_CKPT_CFG7]
  let s := s.forEach rows (fun r s => s.setReg r 0 l (regReset (rkey r 0 l)))
  let s := { s with sh := s.sh.filter (fun p => !rows.any (fun r => rkey r 0 l == p.1)) }
  (s.put fET_MB_FLOOR_FLOOR 0 l 0).put fET_CKPT_STATUS_CAPTURES 0 l 0

/-- R390 steps 2 to 4: a lodging opened. The reply names its tag (R414) and its frames. -/
def State.openGrant (s : State) (n : Nat) (q : LodgingReq) : State :=
  let fs := s.findFrames (s.wishOf q q.mode) q.frames
  let l := q.l
  let s := (s.put fGL_PT_REGION_FIRST 0 l q.ptFirst).put fGL_PT_REGION_COUNT 0 l q.ptCount
  let s := (s.put fGL_STREAM_RANGE_FIRST 0 l q.streamFirst).put fGL_STREAM_RANGE_COUNT 0 l q.streamCount
  let s := (s.put fSC_SLOT_RANGE_FIRST 0 l q.keyFirst).put fSC_SLOT_RANGE_COUNT 0 l q.keyCount
  let s := s.grantUnits q fs
  let (k, s) := s.draw
  let tag := Config.drbg k % 2 ^ 28
  let mg := { s.mg with hostKeys := nput s.mg.hostKeys l q.hostKeyHash, tags := nput s.mg.tags l tag,
                        sessionKeys := nput s.mg.sessionKeys l 0, bound := mput (fun _ => []) s.mg.bound l [] }
  let s := ({ s with mg := mg }.ckptDefaults l).put fGL_LODGING_CFG_MODE 0 l q.mode
  let s := ((s.put fGL_LODGING_CFG_LEVELS 0 l 0).put fGL_LODGING_CFG_TX_SHARE 0 l q.txShare).put fGL_LODGING_CFG_PORTS 0 l
    q.ports
  let ev : Ev := { event := 0x7006, unit := unitInn, outcome := 0, lodging := some l }
  ((s.put fGL_LODGING_CFG_OPEN 0 l 1).record ev).done n 0x30 (tag :: fs)

/-- R391: the record of a change of clusters. -/
def State.changedEvent (s : State) (l old : Nat) : State :=
  s.eventL 0x7008 unitInn l (leBytes 6 old ++ leBytes 6 (s.fld fGL_LODGING_CLUSTERS_CLUSTERS 0 l))

/-- R392: resources added to an open lodging. -/
def State.addGrant (s : State) (n : Nat) (q : LodgingReq) : State :=
  let l := q.l
  let old := s.fld fGL_LODGING_CLUSTERS_CLUSTERS 0 l
  let fs := s.findFrames (s.wishOf q (s.fld fGL_LODGING_CFG_MODE 0 l)) q.frames
  let s := s.grantUnits q fs
  let s := s.put fGL_LODGING_CFG_PORTS 0 l (s.fld fGL_LODGING_CFG_PORTS 0 l ||| q.ports)
  let s := s.put fGL_LODGING_CFG_TX_SHARE 0 l (max (s.fld fGL_LODGING_CFG_TX_SHARE 0 l) q.txShare)
  (s.changedEvent l old).done n 0x31 fs

/-- An act on grants that can go on. -/
def State.grant (s : State) (a : Act) : State := if a.kind = 1 then s.openGrant a.session a.req else s.addGrant a.session a.req

/-- R390 step 1, R473: the checks passed, bands are converted as needed; the act waits for the scrubs of those from which
frames have been granted before. -/
def State.beginGrant (s : State) (n kind : Nat) (q : LodgingReq) (ok : Bool) (mode : Nat) : State :=
  match (if ok then s.convertFor (s.wishOf q mode) q.frames 64 else none) with
  | none =>
    let ev : Ev := { event := 0x7006, unit := unitInn, outcome := 4 }
    (s.record ev).refused n (0x2F + kind) 0x7006 0
  | some (bands, t) =>
    let used := bands.filter (fun b => t.mg.bandsUsed.contains b)
    let a : Act := { session := n, kind := kind, req := q, stage := 0, bands := used }
    if used.isEmpty then t.grant a
    else { t with mg := { t.mg with acts := t.mg.acts ++ [a] } }.queueScrubs (used.map (fun b => (b * bandFrames, bandFrames)))

def execLodgingOpen (h : MsgHdr) (q : LodgingReq) (s : State) : Outcome :=
  .next (s.serialMessage h 0x30 .owner none (fun x s =>
    if 8 ≤ q.l ∨ 2 ≤ q.mode then s.malformed x.number 0x30
    else s.beginGrant x.number 1 q (!s.lodgingOpen? q.l && s.unitsFree q && s.rangesFree q) q.mode))

/-- R391 steps 1 and 2: clusters leave, and the lodging reset begins. -/
def State.beginLeave (s : State) (n kind : Nat) (q : LodgingReq) : State :=
  let cs := maskList 48 q.clusters
  let s := s.forEach cs (fun c s => s.put fCL_OWNER_LEAVING c 0 1)
  let a : Act := { session := n, kind := kind, req := q, stage := 0, bands := [] }
  { s with mg := { s.mg with acts := s.mg.acts ++ [a] } }.lodgingResetReq q.l (kind == 3)

/-- LODGING_CHANGE: an addition, or the removal of the clusters named. -/
def execLodgingChange (h : MsgHdr) (q : LodgingReq) (remove : Bool) (s : State) : Outcome :=
  .next (s.serialMessage h 0x31 .owner none (fun x s =>
    if 8 ≤ q.l then s.malformed x.number 0x31
    else if remove then
      if s.lodgingOpen? q.l ∧ q.clusters ≠ 0 ∧ q.clusters < 2 ^ 48 ∧
          (maskList 48 q.clusters).all (fun c => s.ownerOf c == some q.l) then s.beginLeave x.number 4 q
      else s.refused x.number 0x31 0 0
    else s.beginGrant x.number 2 q (s.lodgingOpen? q.l && s.unitsFree q) (s.fld fGL_LODGING_CFG_MODE 0 q.l)))

/-- A request that names a lodging and all its clusters. -/
def State.wholeLodging (s : State) (l : Nat) : LodgingReq :=
  { l := l, clusters := s.fld fGL_LODGING_CLUSTERS_CLUSTERS 0 l, mode := 0, frames := 0, barriers := 0, ports := 0,
    txShare := 0, streamFirst := 0, streamCount := 0, ptFirst := 0, ptCount := 0, keyFirst := 0, keyCount := 0,
    hostKeyHash := 0 }

def execLodgingClose (h : MsgHdr) (l : Nat) (s : State) : Outcome :=
  .next (s.serialMessage h 0x32 .owner none (fun x s =>
    if 8 ≤ l then s.malformed x.number 0x32
    else if s.lodgingOpen? l then s.beginLeave x.number 3 (s.wholeLodging l) else s.refused x.number 0x32 0 0))

/-- The message starts a lodging reset and is answered when that has ended. -/
def execLodgingReset (h : MsgHdr) (l : Nat) (scrub : Bool) (s : State) : Outcome :=
  .next (s.serialMessage h 0x33 .either (some l) (fun x s =>
    if 8 ≤ l then s.malformed x.number 0x33
    else if s.lodgingOpen? l then
      let a : Act := { session := x.number, kind := 5, req := s.wholeLodging l, stage := 0, bands := [] }
      { s with mg := { s.mg with acts := s.mg.acts ++ [a] } }.lodgingResetReq l scrub
    else s.refused x.number 0x33 0 0))

/-- R391 step 4: a cluster that has left. -/
def State.disown (s : State) (c : Nat) : State :=
  ((s.put fCL_OWNER_VALID c 0 0).put fCL_OWNER_LEAVING c 0 0).put fCL_OWNER_LODGING c 0 0

/-- R402: a slot erased. -/
def State.eraseSlot (s : State) (l k : Nat) : State :=
  if s.fld fSC_SLOT0_STATE 0 k = 0 then s
  else
    let s := { s with mg := { s.mg with keys := nput s.mg.keys k 0 } }
    ((((s.put fSC_SLOT0_KEY_ID 0 k 0).put fSC_SLOT1_INVOCATIONS 0 k 0).put fSC_SLOT0_STATE 0 k 0)).eventL 0x7005 unitInn l

/-- R391 step 5: a closed lodging's connections go with its sub-ports and keys. -/
def State.dropConns (s : State) (l : Nat) : State :=
  let cs := (s.ck.conns.filter (fun x => x.l == l)).map (fun x => x.req.c)
  let s := { s with ck := { s.ck with conns := s.ck.conns.filter (fun x => x.l != l) } }
  s.forEach cs (fun c s => s.setReg rET_CONN_POST 0 (connIx l c) 0#64)

/-- R391 step 5: the ranges and grants of a lodging that closes. -/
def State.closeRanges (s : State) (l : Nat) : State :=
  let s := { s with regs := s.regs.filter (fun p => !(streamRow (p.1 / 2 ^ 32) && s.inRange l (p.1 % 2 ^ 20))) }
  let s := s.forEach (s.barriersOf l) (fun b s => (s.put fGL_BARRIER_OWNED 0 b 0).put fGL_BARRIER_OWNER 0 b 0)
  let k := s.fld fSC_SLOT_RANGE_FIRST 0 l
  let s := s.forEach ((List.range (s.fld fSC_SLOT_RANGE_COUNT 0 l)).map (fun i => k + i)) (fun k s => s.eraseSlot l k)
  let mg := { s.mg with sessionKeys := nput s.mg.sessionKeys l 0, hostKeys := nput s.mg.hostKeys l 0,
                        tags := nput s.mg.tags l 0 }
  let s := { s with mg := mg }.dropConns l
  let s := s.clearPages l (s.pagesListed l)
  let fs := s.framesOf l
  let m := fs.foldl (fun m f => nput m f 9) s.mg.frames
  let s := { s with mg := { s.mg with frames := m } }.queueInval { l := l, first := 0, pages := 0, scrub := runsOf fs,
                                                                    session := none }
  let s := (s.setReg rGL_PT_REGION 0 l 0#64).setReg rSC_SLOT_RANGE 0 l 0#64
  let s := (s.put fGL_STREAM_RANGE_FIRST 0 l 0).put fGL_STREAM_RANGE_COUNT 0 l 0
  let s := ((s.put fGL_LODGING_CFG_OPEN 0 l 0).put fGL_LODGING_CFG_MODE 0 l 0).put fGL_LODGING_CFG_LEVELS 0 l 0
  (s.put fGL_LODGING_CFG_TX_SHARE 0 l 0).put fGL_LODGING_CFG_PORTS 0 l 0

/-- R391 steps 4 to 6 of a close. -/
def State.closeEnd (s : State) (n l : Nat) : State :=
  let s := s.forEach (s.clustersOf l) (fun c s => s.disown c)
  let s := (s.put fGL_LODGING_CLUSTERS_CLUSTERS 0 l 0).closeRanges l
  let s := (s.eventL 0x7007 unitInn l).done n 0x32 []
  s.forEach ((s.mg.sessions.filter (fun x => x.role == 1 && x.lodging == l)).map (fun x => x.number)) (fun k s =>
    s.endSession k 3)

/-- R391 steps 4 and 6 of a removal. -/
def State.removeEnd (s : State) (n : Nat) (q : LodgingReq) : State :=
  let old := s.fld fGL_LODGING_CLUSTERS_CLUSTERS 0 q.l
  let s := s.forEach (maskList 48 q.clusters) (fun c s => s.disown c)
  let new := (maskList 48 old).foldl (fun a c => if q.clusters.testBit c then a else a + 2 ^ c) 0
  ((s.put fGL_LODGING_CLUSTERS_CLUSTERS 0 q.l new).changedEvent q.l old).done n 0x31 []

def State.endAct (s : State) (a : Act) : State := { s with mg := { s.mg with acts := s.mg.acts.erase a } }

/-- What an act that waited for a lodging reset does when it has ended. -/
def State.afterLodgingReset (s : State) (l : Nat) : State :=
  s.forEach (s.mg.acts.filter (fun a => a.req.l == l && a.stage == 0)) (fun a s =>
    match a.kind with
    | 3 => (s.endAct a).closeEnd a.session l
    | 4 =>
      let b : Act := { a with stage := 1 }
      let s := (s.endAct a)
      let s := { s with mg := { s.mg with acts := s.mg.acts ++ [b] } }
      s.forEach (maskList 48 a.req.clusters) (fun c s => s.clusterResetReq c true)
    | 5 => (s.endAct a).done a.session 0x33 []
    | _ => s)

/-- R391 step 3: a removal goes on when every departing cluster has been scrubbed. -/
def State.afterClusterReset (s : State) : State :=
  s.forEach (s.mg.acts.filter (fun a => a.kind == 4 && a.stage == 1 &&
      (maskList 48 a.req.clusters).all (fun c => !s.clusterHeld c))) (fun a s => (s.endAct a).removeEnd a.session a.req)

/-- R473: an opening or addition goes on when its bands have been scrubbed. -/
def State.afterScrub (s : State) (j : Nat × Nat) : State :=
  s.forEach (s.mg.acts.filter (fun a => a.bands.any (fun b => (b * bandFrames, bandFrames) == j))) (fun a s =>
    let b : Act := { a with bands := a.bands.filter (fun b => (b * bandFrames, bandFrames) != j) }
    if b.bands.isEmpty then (s.endAct a).grant b
    else { s.endAct a with mg := { (s.endAct a).mg with acts := (s.endAct a).mg.acts ++ [b] } })

/-- R380 step 4: not while the cluster's compute clock is stopped for heat. -/
def execClusterResetComplete (c : Nat) (s : State) : Outcome :=
  s.guard (s.clusterHeld c && nget s.pw.thermStop c == 0) (fun s => (s.clusterResetEnd c).afterClusterReset)

/-- R381 steps 4 and 5. -/
def execLodgingResetComplete (l : Nat) (s : State) : Outcome :=
  match s.resetPhase l with
  | none => .next s
  | some x => s.guard (x.phase == 2 && (s.clustersOf l).all (fun c => nget s.pw.thermStop c == 0)) (fun s =>
      (s.lodgingResetEnd l x.scrub).afterLodgingReset l)

/-- R271 steps 3 and 4; what the innkeeper does after its own. -/
def execTlbInvalidateDone (s : State) : Outcome :=
  match s.hbm.inval with
  | none => .next s
  | some (l, first, pages) =>
    let (s, n) := (s.invalDone l first pages).afterInval
    let s := match n with
      | some (n, type) => s.done n type []
      | none => s
    .next s.pumpInval

/-- R272: `bad` are the writes whose interface parity failed, with their retries. -/
def execScrubJobDone (bad : List (Nat × Nat)) (s : State) : Outcome :=
  match s.hbm.scrubs with
  | [] => .next s
  | j :: rest => s.guard (!s.scrubPaused j.1 j.2) (fun s =>
      (((s.scrubDone j rest bad).freeScrubbed j).pumpScrub).afterScrub j)

/-- Table 16.4: a page table entry as PAGE_MAP writes it. -/
def pteWord (l : Nat) (e : PageEntry) : Nat :=
  match e.frame with
  | none => 0
  | some f => 2 ^ 63 + 2 ^ 62 * e.write.toNat + 2 ^ 61 * e.exec.toNat + 2 ^ 56 * l + f

/-- Whether a lodging may make an entry: a page of its region, and a frame it holds. -/
def State.pageOk (s : State) (l : Nat) (e : PageEntry) : Bool :=
  decide (e.page < s.fld fGL_PT_REGION_COUNT 0 l) && (match e.frame with
    | none => true
    | some f => nget s.mg.frames f == 1 + l)

/-- PAGE_MAP: the entries are written, then their range is invalidated (R271); the reply follows that. -/
def State.pageMap (s : State) (n l : Nat) (es : List PageEntry) : State :=
  let s := s.forEach es (fun e s => s.physWrite (s.pteAddr l e.page) (leBytes 8 (pteWord l e)))
  let lo := es.foldl (fun a e => min a e.page) 16777216
  let hi := es.foldl (fun a e => max a e.page) 0
  s.queueInval { l := l, first := lo, pages := hi + 1 - lo, scrub := [], session := some (n, 0x34) }

def execPageMap (h : MsgHdr) (l : Nat) (es : List PageEntry) (s : State) : Outcome :=
  .next (s.serialMessage h 0x34 .host (some l) (fun x s =>
    if 160 < es.length then s.malformed x.number 0x34
    else if !es.all (fun e => s.pageOk l e) then s.refused x.number 0x34 0 0
    else if es.isEmpty then s.done x.number 0x34 []
    else s.pageMap x.number l es))

/-- R394: a host returns frames of its lodging. -/
def execFrameReturn (h : MsgHdr) (l : Nat) (fs : List Nat) (s : State) : Outcome :=
  .next (s.serialMessage h 0x35 .host (some l) (fun x s =>
    if !fs.all (fun f => nget s.mg.frames f == 1 + l) then s.refused x.number 0x35 0 0
    else if fs.isEmpty then s.done x.number 0x35 []
    else s.releaseFrames l (maskSort fs) (some (x.number, 0x35))))
where
  /-- The frames in rising order, each once. -/
  maskSort (fs : List Nat) : List Nat :=
    (fs.foldl (fun (m : SMap Nat) f => nput m f 1) []).map (fun p => p.1)

/-- R401: why a key cannot be installed; 0 when it can. -/
def State.keyReason (s : State) (l k : Nat) (key : Option Nat) : Nat :=
  if k < s.fld fSC_SLOT_RANGE_FIRST 0 l ∨ s.fld fSC_SLOT_RANGE_FIRST 0 l + s.fld fSC_SLOT_RANGE_COUNT 0 l ≤ k then 1
  else if s.fld fSC_SLOT0_STATE 0 k ≠ 0 then 2
  else if nget s.mg.sessionKeys l = 0 then 3
  else if key.isNone then 4
  else if s.is fSC_STATUS_IDENTITY_BAD then 5
  else 0

/-- R401: a key installed. -/
def State.keyInstall (s : State) (n l k id dir wrapped : Nat) : State :=
  let key := Config.unwrapKey (nget s.mg.sessionKeys l - 1) wrapped
  match s.keyReason l k key with
  | 0 =>
    let s := { s with mg := { s.mg with keys := nput s.mg.keys k (key.getD 0) } }
    let s := ((s.put fSC_SLOT0_KEY_ID 0 k id).put fSC_SLOT0_LODGING 0 k l).put fSC_SLOT0_DIR 0 k dir
    let s := (s.put fSC_SLOT1_INVOCATIONS 0 k 0).put fSC_SLOT0_STATE 0 k 1
    (s.eventL 0x7003 unitInn l (BitVec.ofNat 8 k :: leBytes 4 id)).done n 0x22 []
  | r => ((s.stick fSC_STATUS_KEY_REFUSED).eventL 0x7004 unitInn l [BitVec.ofNat 8 r]).refused n 0x22 0x7004 r

def execKeyInstall (h : MsgHdr) (l k id dir wrapped : Nat) (s : State) : Outcome :=
  .next (s.serialMessage h 0x22 .host (some l) (fun x s =>
    if 3 ≤ dir then s.malformed x.number 0x22 else s.keyInstall x.number l k id dir wrapped))

def execKeyErase (h : MsgHdr) (l k : Nat) (s : State) : Outcome :=
  .next (s.message h 0x23 .host (some l) (fun x s =>
    let f := s.fld fSC_SLOT_RANGE_FIRST 0 l
    if k < f ∨ f + s.fld fSC_SLOT_RANGE_COUNT 0 l ≤ k then
      (s.eventL 0x7004 unitInn l [1#8]).refused x.number 0x23 0x7004 1
    else (s.eraseSlot l k).done x.number 0x23 []))

/-- R397: the minimum firmware version raised. -/
def execFwMinRaise (h : MsgHdr) (v : Nat) (s : State) : Outcome :=
  .next (s.message h 0x4A .owner none (fun x s =>
    if v ≤ s.minVersion ∨ 16 ≤ s.otp.minVersions.length ∨ 2 ^ 32 ≤ v then
      (s.event 0x700C unitInn).refused x.number 0x4A 0x700C 0
    else { s with otp := { s.otp with minVersions := s.otp.minVersions ++ [v] } }.done x.number 0x4A []))

/-- Table 14.5. -/
def State.lodgingRecord (s : State) (l : Nat) : List (BitVec 8) :=
  if s.lodgingOpen? l then
    let bars := (s.barriersOf l).foldl (fun a b => a + 2 ^ b) 0
    [1#8, BitVec.ofNat 8 (s.fld fGL_LODGING_CFG_MODE 0 l), BitVec.ofNat 8 (s.fld fGL_LODGING_CFG_LEVELS 0 l), 0#8] ++
      leBytes 6 (s.fld fGL_LODGING_CLUSTERS_CLUSTERS 0 l) ++ leBytes 6 0 ++ leBytes 8 bars ++
      leBytes 2 (s.fld fGL_STREAM_RANGE_FIRST 0 l) ++ leBytes 4 (s.fld fGL_STREAM_RANGE_COUNT 0 l) ++ leBytes 2 0 ++
      leBytes 4 (s.fld fGL_PT_REGION_FIRST 0 l) ++ leBytes 4 (s.fld fGL_PT_REGION_COUNT 0 l) ++
      leBytes 4 (s.framesOf l).length ++ leBytes 2 (s.fld fSC_SLOT_RANGE_FIRST 0 l) ++
      leBytes 2 (s.fld fSC_SLOT_RANGE_COUNT 0 l) ++ leBytes 4 (s.fld fGL_LODGING_CFG_PORTS 0 l) ++
      [BitVec.ofNat 8 (s.fld fGL_LODGING_CFG_TX_SHARE 0 l)] ++ leBytes 11 0
  else leBytes 64 0

/-- Table 14.4, bytes 0 to 767. -/
def State.reportHead (s : State) (who nonce keyHash : Nat) : List (BitVec 8) :=
  let cores := (List.range 48).foldl (fun a c => a + s.fld fCL_CORE_COUNT_COUNT c) 0
  let opened := (List.range 8).foldl (fun a l => if s.lodgingOpen? l then a + 2 ^ l else a) 0
  [0x48#8, 0x4B#8, 0x41#8, 0x52#8] ++ leBytes 2 1 ++ leBytes 2 (imgNat s.boot.image 6 2) ++
    leBytes 16 Config.serial.toNat ++ leBytes 2 0x1344 ++ [0xB0#8] ++
    [BitVec.ofNat 8 (s.fld fGL_CONTRACT_LEVEL_SUPPORTED)] ++ leBytes 32 nonce ++ leBytes 8 s.now ++
    leBytes 32 Config.romHash.toNat ++ leBytes 32 s.boot.measure ++ leBytes 4 (imgNat s.boot.image 8 4) ++
    leBytes 4 s.minVersion ++ [BitVec.ofNat 8 (s.fld fMG_DEFECT_STATUS_GENS_USED),
      BitVec.ofNat 8 (s.fld fMG_DEFECT_STATUS_GENS_VOID), BitVec.ofNat 8 (s.fld fMG_START_STATUS_MODE),
      BitVec.ofNat 8 who] ++
    leBytes 2 (s.fld fMG_START_STATUS_START_NUMBER) ++ leBytes 2 cores ++ leBytes 32 Config.identityHash.toNat ++
    leBytes 32 keyHash ++ [BitVec.ofNat 8 opened] ++ leBytes 43 0 ++
    (List.range 8).flatMap (fun l => s.lodgingRecord l)

/-- R398: the session key drawn for a host's key, and its wrapped form; the key replaces the lodging's. -/
def State.drawKey (s : State) (x : Session) (modulus : Option (List (BitVec 8))) : Nat × State :=
  match modulus with
  | none => (0, s)
  | some m =>
    let (k, s) := s.draw
    let key := Config.drbg k % 2 ^ 256
    let s := if x.role = 1 then { s with mg := { s.mg with sessionKeys := nput s.mg.sessionKeys x.lodging (key + 1) } } else s
    (Config.oaep (leNat m) key, s)

/-- R398, R399: the report, signed. -/
def State.attest (s : State) (x : Session) (nonce : Nat) (modulus : Option (List (BitVec 8))) : State :=
  let who := if x.role = 0 then 0xFF else x.lodging
  let hash := (modulus.map Config.sha256).getD 0
  let (wrapped, s) := s.drawKey x modulus
  let body := s.reportHead who nonce hash ++ leBytes 384 wrapped
  let ev : Ev := { event := 0x7002, unit := unitInn, outcome := 0,
                   lodging := if x.role = 0 then none else some x.lodging,
                   detail := BitVec.ofNat 8 who :: leBytes 27 hash }
  (s.record ev).done x.number 0x21 ((body ++ leBytes 384 (Config.sign body)).map BitVec.toNat)

def execAttestReq (h : MsgHdr) (nonce : Nat) (modulus : Option (List (BitVec 8))) (s : State) : Outcome :=
  .next (s.serialMessage h 0x20 .either none (fun x s =>
    if s.is fSC_STATUS_IDENTITY_BAD then s.refused x.number 0x20 0x700B 0 else s.attest x nonce modulus))

end Sys2Proof.Machine
end

