-- ==== Sys2Proof/Machine/Ckpt.lean ====
section
/-! DEFINITION. Checkpoints, drains and resumes (15_ethernet_and_training_continuity.md R422-R428). -/

namespace Sys2Proof.Machine

/-- R422: CAPTURE_LIMIT in counts. -/
def State.ckLimit (s : State) (l : Nat) : Nat :=
  250000 * min (s.fld fET_CKPT_CFG1_CAPTURE_LIMIT 0 l) (500 * max 10 (s.fld fET_CKPT_CFG1_PERIOD 0 l))

def State.setCkPhase (s : State) (l n : Nat) : State := { s with ck := { s.ck with phase := nput s.ck.phase l n } }

/-- R422: a capture falls due. -/
def State.captureDue (s : State) (l d : Nat) : State :=
  let s := { s with ck := { s.ck with dueAt := nput s.ck.dueAt l (d + 1) } }
  match nget s.ck.phase l with
  | 0 => (s.setCkPhase l 1).put fET_CKPT_STATUS_PENDING 0 l 1
  | 3 => (s.stick fET_CKPT_STATUS_SKIPPED 0 l).ckEvent l 0x8011 0 []
  | _ => s

def execCheckpointDue (l : Nat) (s : State) : Outcome :=
  match s.ckDue l with
  | none => .next s
  | some d => s.guard (s.actFirst 5) (fun s => s.captureDue l d)

/-- R423: whether a RUNNING stream lets a capture be taken. -/
def State.streamQuiet (s : State) (id : Nat) : Bool :=
  s.sq.held.contains id || (match s.slotIx id with
    | none => false
    | some i => match s.waitOf (slotKey (s.fld fGL_STREAM7_HOME 0 id) i) with
      | none => false
      | some w => w.obj >>> 28 != 4 && s.outstanding id == 0)

/-- R423: whether a lodging is quiescent. -/
def State.quiescent (s : State) (l : Nat) : Bool :=
  (s.entriesOf l [3]).all (fun id => s.streamQuiet id) &&
    s.ck.conns.all (fun x => x.l != l ||
      s.fld fET_CONN_POST_HEAD 0 (connIx l x.req.c) == s.fld fET_CONN_POST_TAIL 0 (connIx l x.req.c)) &&
    (s.clustersOf l).all (fun c => !s.rt.queue.any (fun q => q.1 == c) && !s.rt.jobs.any (fun j => j.c == c))

/-- R423, R424: the streams of a lodging held at their marks go on. -/
def State.releaseHeld (s : State) (l : Nat) : State :=
  let ids := s.sq.held.filter (fun id => s.streamLodging id == l)
  let s := { s with sq := { s.sq with held := s.sq.held.filter (fun id => s.streamLodging id != l) } }
  s.forEach ids (fun id s => match s.slotIx id with
    | some i =>
      let c := s.fld fGL_STREAM7_HOME 0 id
      ((s.put fSQ_SLOT_WAIT c i 0).trace c 5 (s.currentWay id) 0 id 0x0D 0).ahead c i
    | none => s)

/-- R423: a capture abandoned. -/
def State.abandonCapture (s : State) (l : Nat) : State :=
  let s := ((s.setCkPhase l 0).put fET_CKPT_STATUS_PENDING 0 l 0).put fET_CKPT_STATUS_TAKING 0 l 0
  (((s.releaseHeld l).stick fET_CKPT_STATUS_ABANDONED 0 l).ckEvent l 0x8012 4 []).ckCfgCommit l

/-- R424: the eight words of an entry as the image holds them. -/
def State.imageEntry (s : State) (id t : Nat) : List (BitVec 8) :=
  let st := s.fld fGL_STREAM7_STATE 0 id
  let w := fun (k : Nat) => (s.entryWord id k).toNat
  let pos := if s.sq.held.contains id then nget s.sq.ckptPos id else match s.slotIx id with
    | some i => match s.waitOf (slotKey (s.fld fGL_STREAM7_HOME 0 id) i) with
      | some x => x.pos
      | none => s.fld fGL_STREAM3_POSITION 0 id
    | none => s.fld fGL_STREAM3_POSITION 0 id
  let armed := withField 0 3 (withField 8 2 (w 7) 1) 1
  let (w0, w3, w7) := match st with
    | 3 => (t, pos, withField 17 1 armed 1)
    | 2 => (t, w 3, armed)
    | _ => (w 0, w 3, w 7)
  leBytes 8 w0 ++ leBytes 8 (w 1) ++ leBytes 8 (w 2) ++ leBytes 8 w3 ++ leBytes 8 (w 4) ++ leBytes 8 (w 5) ++
    leBytes 8 (w 6) ++ leBytes 8 w7

/-- Table 15.9. -/
def State.clusterRecord (s : State) (c : Nat) : List (BitVec 8) :=
  let full := fun (l : Nat) => (List.range 16).foldl (fun a n => a + nget s.core.slotFull (redKey c l n) * 2 ^ n) 0
  leBytes 8 (s.reg rCL_CORE_COUNT c 0).toNat ++
    (List.range 16).flatMap (fun i => leBytes 8 (s.reg rSQ_Q c i).toNat) ++
    (List.range 24).flatMap (fun l => leBytes 2 (full l)) ++ leBytes 8 0 ++
    (List.range 256).flatMap (fun k => leBytes 4 (s.fld fCL_SEM_COUNT c k)) ++
    (List.range 24).flatMap (fun l => (List.range 16).flatMap (fun n =>
      leBytes 8 (mget zeroW s.core.slotVal (redKey c l n)).toNat)) ++
    (List.range 4096).flatMap (fun k => leBytes 4 (s.fld fCL_FLAG_VALUE c k))

/-- Table 15.7: the sizes of a lodging's image: of the schedule section, the tensor section's offset, and the whole. -/
def State.imageSizes (s : State) (l : Nat) : Nat × Nat × Nat :=
  let sched := 20672 * (s.clustersOf l).length + 64 * s.fld fGL_STREAM_RANGE_COUNT 0 l + 512
  let off := 65536 * ((256 + sched + 65535) / 65536)
  (sched, off, off + s.fld fET_CKPT_CFG4_TENSOR_SIZE 0 l + 32)

/-- The barriers of a lodging as a mask. -/
def State.barrierMask (s : State) (l : Nat) : Nat := (s.barriersOf l).foldl (fun a b => a + 2 ^ b) 0

/-- Table 15.8. -/
def State.imageHeader (s : State) (l : Nat) : List (BitVec 8) :=
  let n := s.fld fET_CKPT_STATUS_CAPTURES 0 l
  let (sched, off, size) := s.imageSizes l
  [0x48#8, 0x4B#8, 0x52#8, 0x49#8] ++ leBytes 2 1 ++ leBytes 2 (imgNat s.boot.image 6 2) ++
    leBytes 16 Config.serial.toNat ++ [BitVec.ofNat 8 l, BitVec.ofNat 8 (s.fld fGL_LODGING_CFG_MODE 0 l),
      BitVec.ofNat 8 (s.fld fGL_LODGING_CFG_LEVELS 0 l), BitVec.ofNat 8 (n % 2)] ++
    leBytes 4 n ++ leBytes 8 s.now ++ leBytes 6 (s.fld fGL_LODGING_CLUSTERS_CLUSTERS 0 l) ++ leBytes 2 0 ++
    leBytes 2 (s.fld fGL_STREAM_RANGE_FIRST 0 l) ++ leBytes 4 (s.fld fGL_STREAM_RANGE_COUNT 0 l) ++ leBytes 2 0 ++
    leBytes 8 (s.barrierMask l) ++ leBytes 4 (s.fld fET_MB_FLOOR_FLOOR 0 l) ++ leBytes 4 0 ++ leBytes 8 256 ++
    leBytes 8 sched ++ leBytes 8 off ++ leBytes 8 (s.fld fET_CKPT_CFG4_TENSOR_SIZE 0 l) ++ leBytes 8 size ++
    leBytes 144 0

/-- R427: the header and the schedule section. -/
def State.scheduleImage (s : State) (l : Nat) : List (BitVec 8) :=
  let f := s.fld fGL_STREAM_RANGE_FIRST 0 l
  s.imageHeader l ++ (s.clustersOf l).flatMap (fun c => s.clusterRecord c) ++
    (List.range (s.fld fGL_STREAM_RANGE_COUNT 0 l)).flatMap (fun i => s.imageEntry (f + i) s.now) ++
    (List.range 64).flatMap (fun b => leBytes 8 (s.reg rGL_BARRIER 0 b).toNat)

/-- The buffer of a capture, and the port of the drain connection. -/
def State.ckBuffer (s : State) (l n : Nat) : Nat :=
  if n % 2 = 0 then s.fld fET_CKPT_CFG2_BUF0 0 l else s.fld fET_CKPT_CFG3_BUF1 0 l
def State.ckPort (s : State) (l : Nat) : Nat := ((s.conn l (s.fld fET_CKPT_CFG1_CONN 0 l)).map (fun x => x.req.port)).getD 0

/-- R424: the state is taken into the buffer; a buffer that cannot be written ends the capture. -/
def State.capture (s : State) (l : Nat) : Outcome :=
  let n := s.fld fET_CKPT_STATUS_CAPTURES 0 l
  match s.writeAll (.host l (s.ckPort l)) (s.ckBuffer l n) (s.scheduleImage l) with
  | (.held, _) => .next s
  | (.err _, t) => .next (t.abandonCapture l)
  | (.ok _, t) => .next (((t.setCkPhase l 2).put fET_CKPT_STATUS_PENDING 0 l 0).put fET_CKPT_STATUS_TAKING 0 l 1)

/-- R423: the first moment at which a pending capture's lodging is quiescent, within CAPTURE_LIMIT. -/
def execCheckpointCapture (l : Nat) (s : State) : Outcome :=
  if nget s.ck.phase l = 1 ∧ s.quiescent l ∧ s.now + 1 ≤ nget s.ck.dueAt l + s.ckLimit l then s.capture l else .next s

def execCaptureLimitExpiry (l : Nat) (s : State) : Outcome :=
  s.guard (nget s.ck.phase l == 1 && decide (nget s.ck.dueAt l + s.ckLimit l ≤ s.now)) (fun s => s.abandonCapture l)

def State.putDrain (s : State) (d : Drain) : State :=
  { s with ck := { s.ck with drains := s.ck.drains.map (fun e => if e.l = d.l then d else e) } }

/-- R425: what a drain has on the wire: an address at the store, the bytes, and the immediate of its last WRITE. -/
def drainPiece (d : Drain) : Nat × List (BitVec 8) × Option Nat :=
  match d.stage with
  | 0 => (d.remote + d.sent, d.image.drop d.sent, none)
  | 1 => (d.remote + d.size - 32, leBytes 32 (Config.sha256 d.image), none)
  | _ => (d.remote, [], some (2 ^ 31 + d.n % 2 ^ 31))

/-- R425: that is sent, or sent again; `psn` is its first sequence number. -/
def State.drainWire (s : State) (d : Drain) (psn : Nat) : State :=
  let (a, bs, imm) := drainPiece d
  let op := if imm.isSome then 2 else 1
  s.sendMessage d.l d.c op ([psn, a, d.rkey, bs.length] ++ imm.toList) bs

def State.drainSend (s : State) (d : Drain) : State :=
  match s.conn d.l d.c with
  | none => s.drainFail d.l
  | some x =>
    let k := packetCount x.req.mtu (drainPiece d).2.1.length
    let y := { x with sendPsn := (x.sendPsn + k) % 2 ^ 24, sentAt := s.now, retries := 0, rnrs := 0 }
    let d := { d with psn := (x.sendPsn + k - 1) % 2 ^ 24 }
    ((s.putConn y).putDrain d).drainWire d x.sendPsn

/-- A connection that leaves a drain is an ordinary one again. -/
def State.unreserve (s : State) (l c : Nat) : State :=
  if s.fld fET_CONN_POST_STATE 0 (connIx l c) = 3 then s.put fET_CONN_POST_STATE 0 (connIx l c) 1 else s

/-- R425: the drain's next piece: of the image, then the trailer, in the buffer and at the store, then the immediate; and
the end, once that is acknowledged. None while the memory holds the access. -/
def State.drainNext (s : State) (d : Drain) : Option State :=
  let rq : Rq := .host d.l (s.ckPort d.l)
  match d.stage with
  | 0 =>
    let d := { d with sent := d.image.length }
    if d.size - 32 ≤ d.sent then
      match s.writeAll rq (d.buf + d.size - 32) (leBytes 32 (Config.sha256 d.image)) with
      | (.held, _) => none
      | (.err _, t) => some ((t.unreserve d.l d.c).drainFail d.l)
      | (.ok _, t) => some (t.drainSend { d with stage := 1 })
    else
      match s.readMem rq (d.buf + d.sent) (min 4096 (d.size - 32 - d.sent)) with
      | (.held, _) => none
      | (.err _, t) => some ((t.unreserve d.l d.c).drainFail d.l)
      | (.ok bs, t) => some (t.drainSend { d with image := d.image ++ bs })
  | 1 => some (s.drainSend { d with stage := 2 })
  | _ =>
    let ck := { s.ck with drains := s.ck.drains.filter (fun e => e.l != d.l) }
    let s := ({ s with ck := ck }.setCkPhase d.l 0).put fET_CKPT_STATUS_DRAINING 0 d.l 0
    some (((s.unreserve d.l d.c).ckEvent d.l 0x8013 0 []).ckCfgCommit d.l)

/-- R425: a drain begins on its connection, if that is OPEN; not while its sub-port grants no frame (R241). -/
def State.drainBegin (s : State) (l n : Nat) : Option State :=
  let c := s.fld fET_CKPT_CFG1_CONN 0 l
  let s := (s.setCkPhase l 3).put fET_CKPT_STATUS_DRAINING 0 l 1
  if s.fld fET_CONN_POST_STATE 0 (connIx l c) = 1 ∧ !((s.conn l c).map (fun x => s.txOpen x.req.port x.req.sub (some l))).getD true then none
  else if s.fld fET_CONN_POST_STATE 0 (connIx l c) = 1 then
    let remote := (if n % 2 = 0 then s.fld fET_CKPT_CFG5_REMOTE0 0 l else s.fld fET_CKPT_CFG6_REMOTE1 0 l)
    let d : Drain := { l := l, n := n, c := c, buf := s.ckBuffer l n, remote := remote,
                       rkey := s.fld fET_CKPT_CFG7_RKEY 0 l, size := (s.imageSizes l).2.2, sent := 0, image := [],
                       stage := 0, psn := 0 }
    let s := { s with ck := { s.ck with drains := s.ck.drains ++ [d] } }.put fET_CONN_POST_STATE 0 (connIx l c) 3
    s.drainNext d
  else some (s.drainFail l)

/-- R424: the taking ends: held streams go on, the capture number advances and the drain begins. -/
def State.taken (s : State) (l : Nat) : Option State :=
  let n := s.fld fET_CKPT_STATUS_CAPTURES 0 l
  let s := (s.put fET_CKPT_STATUS_TAKING 0 l 0).releaseHeld l
  let s := (s.ckEvent l 0x8010 0 (leBytes 4 n)).put fET_CKPT_STATUS_CAPTURES 0 l (n + 1)
  (s.put fET_CKPT_STATUS_NEXT_BUFFER 0 l ((n + 1) % 2)).drainBegin l n

def execCheckpointStateTaken (l : Nat) (s : State) : Outcome :=
  if nget s.ck.phase l = 2 then .next ((s.taken l).getD s) else .next s

/-- R428: whether the trailer of an image holds the hash of what stands before it. -/
def trailerOk (img : List (BitVec 8)) : Bool := leNat (img.drop (img.length - 32)) == Config.sha256 (img.take (img.length - 32))

/-- R428: reasons 2 to 5 of an image read whole; 0 for none. -/
def State.resumeReason (s : State) (l : Nat) (img : List (BitVec 8)) : Nat :=
  let cs := s.clustersOf l
  let lacks := (cs.zip (List.range cs.length)).any (fun p =>
    let want := fieldOf 24 24 (imgNat img (256 + 20672 * p.2) 8)
    (List.range 24).any (fun k => want.testBit k && !(s.fld fCL_CORE_COUNT_PRESENT p.1).testBit k))
  let busy := !(s.entriesOf l [1, 2, 3]).isEmpty ||
    cs.any (fun c => (List.range 28).any (fun k =>
      let st := s.fld fCO_CORE_STATUS_STATE (28 * c + k)
      decide (1 ≤ st) && decide (st ≤ 3)))
  if !trailerOk img then 1
  else if imgNat img 4 2 ≠ 1 then 2
  else if imgNat img 40 6 ≠ s.fld fGL_LODGING_CLUSTERS_CLUSTERS 0 l ∨ imgNat img 48 2 ≠ s.fld fGL_STREAM_RANGE_FIRST 0 l ∨
      imgNat img 50 4 ≠ s.fld fGL_STREAM_RANGE_COUNT 0 l ∨ imgNat img 56 8 ≠ s.barrierMask l then 3
  else if lacks then 4
  else if busy then 5
  else 0

/-- R428: an image read from lodging memory: the bytes, an error, or an access that is held. -/
def State.readImage (s : State) (l : Nat) : Got (List (BitVec 8)) × State :=
  let rq : Rq := .host l 0
  let base := s.fld fET_RESUME0_BASE 0 l
  match s.readMem rq base 256 with
  | (.ok h, t) =>
    if imgNat h 0 4 ≠ 0x49524B48 ∨ imgNat h 104 8 < 288 ∨ 2 ^ 40 < base + imgNat h 104 8 then (.err 0, t)
    else t.readMem rq base (imgNat h 104 8)
  | r => r

def State.resumeRefuse (s : State) (l r : Nat) : State :=
  ((s.put fET_RESUME_STATUS_RESULT 0 l 3).put fET_RESUME_STATUS_REASON 0 l r).ckEvent l 0x8016 4 [BitVec.ofNat 8 r]

/-- R428: ET_RESUME word 0 written with START. Bits 15:0 of BASE stay 0 (log 49). -/
def State.resumeStart (s : State) (l base : Nat) : Option State :=
  let t := s.put fET_RESUME0_BASE 0 l (65536 * (base / 65536))
  if s.fld fET_RESUME_STATUS_RESULT 0 l = 1 then some s
  else match t.readImage l with
    | (.held, _) => none
    | (.err _, t) => some (t.resumeRefuse l 1)
    | (.ok img, t) => match t.resumeReason l img with
      | 0 => some ((t.put fET_RESUME_STATUS_RESULT 0 l 1).put fET_RESUME_STATUS_REASON 0 l 0)
      | r => some (t.resumeRefuse l r)

def execResume (rq : Rq) (l base : Nat) (s : State) : Outcome :=
  .next (s.csAct rq (etAddr (0x1300 + 16 * (l % 8))) (fun s => (s.resumeStart (l % 8) (base % 2 ^ 40)).getD s))

/-- R428 step 1: a cluster's record restored. -/
def State.restoreCluster (s : State) (c o : Nat) (img : List (BitVec 8)) : State :=
  let s := s.forEach (List.range 16) (fun i s => s.setReg rSQ_Q c i (BitVec.ofNat 64 (imgNat img (o + 8 + 8 * i) 8)))
  let s := s.forEach (List.range 24) (fun l s => s.forEach (List.range 16) (fun n s =>
    let full := ((imgNat img (o + 136 + 2 * l) 2).testBit n).toNat
    let v := BitVec.ofNat 64 (imgNat img (o + 1216 + 8 * (16 * l + n)) 8)
    { s with core := { s.core with slotFull := nput s.core.slotFull (redKey c l n) full,
                                   slotVal := mput zeroW s.core.slotVal (redKey c l n) v } }))
  let s := s.forEach (List.range 256) (fun k s => s.put fCL_SEM_COUNT c k (imgNat img (o + 192 + 4 * k) 4))
  let s := { s with ms := { s.ms with semQueue := s.ms.semQueue.filter (fun w => w.sem / 256 != c) } }
  s.forEach (List.range 4096) (fun k s =>
    (s.put fCL_FLAG_VALUE c k (imgNat img (o + 4288 + 4 * k) 4)).put fCL_FLAG_LAST_WAYBILL c k 0)

/-- R428 steps 2 and 3: an entry restored, its release moved by Δ, and word 7 last. -/
def State.restoreEntry (s : State) (id o delta : Nat) (img : List (BitVec 8)) : State :=
  let w := fun (k : Nat) => imgNat img (o + 8 * k) 8
  let st := w 7 % 8
  let timed := st == 1 && (fieldOf 8 2 (w 7) == 1 || fieldOf 8 2 (w 7) == 3)
  let w0 := if timed then (w 0 + delta) % 2 ^ 64 else w 0
  let s := s.entryWrite id 0 (BitVec.ofNat 64 w0)
  let s := s.forEach [1, 2, 3, 4, 5, 6] (fun k s => s.entryWrite id k (BitVec.ofNat 64 (w k)))
  let s := s.put fGL_STREAM7_STATE 0 id 0
  if 4 ≤ st ∧ st ≤ 6 then (s.entryWrite id 7 (BitVec.ofNat 64 (w 7 - st))).put fGL_STREAM7_STATE 0 id st
  else s.entryWrite id 7 (BitVec.ofNat 64 (w 7))

/-- R428: a barrier of the lodging restored. -/
def State.restoreBarrier (s : State) (b w : Nat) : State :=
  ((s.put fGL_BARRIER_EXPECTED 0 b (fieldOf 32 16 w)).put fGL_BARRIER_GENERATION 0 b (fieldOf 16 16 w)).put
    fGL_BARRIER_COUNT 0 b (fieldOf 0 16 w)

/-- R428 steps 1 to 5. -/
def State.restore (s : State) (l : Nat) (img : List (BitVec 8)) : State :=
  let cs := s.clustersOf l
  let f := s.fld fGL_STREAM_RANGE_FIRST 0 l
  let n := s.fld fGL_STREAM_RANGE_COUNT 0 l
  let o := 256 + 20672 * cs.length
  let delta := (s.fld fET_RESUME1_AT 0 l + 2 ^ 64 - imgNat img 32 8) % 2 ^ 64
  let s := s.forEach (cs.zip (List.range cs.length)) (fun p s => s.restoreCluster p.1 (256 + 20672 * p.2) img)
  let s := s.forEach (s.barriersOf l) (fun b s => s.restoreBarrier b (imgNat img (o + 64 * n + 8 * b) 8))
  let s := s.forEach (List.range n) (fun i s => s.restoreEntry (f + i) (o + 64 * i) delta img)
  let k := imgNat img 28 4 + 1
  let s := ((s.put fET_MB_FLOOR_FLOOR 0 l (imgNat img 64 4)).put fET_CKPT_STATUS_CAPTURES 0 l k).put
    fET_CKPT_STATUS_NEXT_BUFFER 0 l (k % 2)
  (s.put fET_RESUME_STATUS_RESULT 0 l 2).ckEvent l 0x8015 0 []

def execResumeCompleted (l : Nat) (s : State) : Outcome :=
  if s.fld fET_RESUME_STATUS_RESULT 0 l = 1 then
    match s.readImage l with
    | (.held, _) => .next s
    | (.err _, t) => .next (t.resumeRefuse l 1)
    | (.ok img, t) => .next (t.restore l img)
  else .next s

end Sys2Proof.Machine
end

