-- ==== Sys2Proof/Machine/CtrlSpace.lean ====
section
/-! DEFINITION. Reads and writes of control space (00_scope.md R4-R12, R376; 08 R216, R227; 14 R388, R389; 15 R424): the
route of an access, what holds or refuses it, what a register of each block reads as, and what a write of it does; and the
commit points of SH fields. -/

namespace Sys2Proof.Machine

/-- R216, R217: the port that a request for a control-space address travels to: its cluster, or the uncore hub's attachment for the
requester; none for what the hub asks of itself. -/
def State.csDest (s : State) (rq : Rq) (a : Nat) : Option (Nat × Nat × List Nat) :=
  let c := match csBlock a with
    | some (b, u, _) => csCluster b u
    | none => none
  match c, rq with
  | some c, _ => some (c, 0, [])
  | none, .firmware => none
  | none, .scrubber => none
  | none, _ =>
    let h := s.hubFrom (s.entryOf rq 0).1
    some (h.1, h.2.1, [h.2.2])

/-- R216, R227: how an access to control space gets to its block: 0 sent, 1 unreachable, 2 waiting. -/
def State.csRoute (s : State) (rq : Rq) (a : Nat) : Nat :=
  match s.csDest rq a with
  | some d => s.reachTo rq d.1 d.2.1 d.2.2
  | none => 0

/-- R224: the grants of an access that has got there, and of its answer. -/
def State.csCrossed (s : State) (rq : Rq) (a : Nat) : State :=
  match s.csDest rq a with
  | some d => s.crossed rq d.1 d.2.1 true
  | none => s

/-- The router by which a request to control space enters the network. -/
def State.csSource (s : State) (rq : Rq) (a : Nat) : Nat :=
  match s.csDest rq a with
  | some d => (s.entryOf rq d.1).1
  | none => 0

/-- R424: while a lodging's state is taken, its host's writes to its semaphores, flags, barriers and stream entries are
held. -/
def State.csHeld (s : State) (rq : Rq) (a : Nat) : Bool :=
  match rq, csDecode a with
  | .host l _, some (r, _, _) => nget s.ck.phase l == 2 &&
      (r == rCL_SEM_WRITE || r == rCL_FLAG_WRITE || r == rGL_BARRIER || streamRow r)
  | _, _ => false

/-! ### What a register reads as -/

/-- R442: the registers each bit of MG_STICKY2 names. -/
def sticky2Rows : List (List Nat) :=
  [[rMG_STICKY0], [rMG_STICKY1], [rMG_STICKY3], [rPW_STATUS], [rTM_DISC_STATUS, rTM_STEP_STATUS], [rNW_STATUS], [rHB_STATUS],
    [rGL_STREAM_STATUS, rSQ_STATUS], [rGL_TLB_STATUS, rGL_SCRUB_STATUS], [rSC_STATUS], [rET_PORT_STATUS, rET_CKPT_STATUS],
    [rMG_START_STATUS], [rCL_MEM_STATUS, rCL_ROUTE_STATUS], [rCO_MEM_STATUS, rCO_CORE_STATUS]]

/-- Whether an RWS bit of a register's word is set. -/
def rwsSet (r : Nat) (w : Word) : Bool :=
  (regRow r).fields.any (fun f => decide (f.2.2 = .rws) && fieldOf f.1 f.2.1 w.toNat != 0)

def State.sticky2 (s : State) : Nat :=
  (sticky2Rows.foldl (fun (a : Nat × Nat) rows =>
    (a.1 + 1, if s.regs.any (fun p => rows.contains (p.1 / 2 ^ 32) && rwsSet (p.1 / 2 ^ 32) p.2) then a.2 + 2 ^ a.1
      else a.2)) (0, 0)).2

/-- The ostler that NW_OSTLER_SEL selects, by kind * 2^16 + unit * 2^8 + index. -/
def State.ostlerKey (s : State) : Nat :=
  65536 * s.fld fNW_OSTLER_SEL_KIND + 256 * s.fld fNW_OSTLER_SEL_UNIT + s.fld fNW_OSTLER_SEL_INDEX

/-- Table 8.5: whether a selection names an ostler. -/
def State.ostlerThere (s : State) : Bool :=
  let u := s.fld fNW_OSTLER_SEL_UNIT
  let i := s.fld fNW_OSTLER_SEL_INDEX
  match s.fld fNW_OSTLER_SEL_KIND with
  | 0 => decide (u < 48) && decide (i < 6)
  | 1 => decide (u < 48) && decide (i < 32)
  | 2 => decide (u < 48) && decide (i < 29)
  | 3 => decide (u < 12) && decide (i < 64)
  | 4 => u == 0 && decide (i < 32)
  | 5 => u == 0 && i == 0
  | _ => false

/-- The grants of an ostler, those of the scrubber's writes among them (R258). -/
def State.grantsOf (s : State) (k : Nat) : Nat :=
  (s.ostler k).grants + (if k / 65536 = 3 then nget s.hbm.scrubbed (k / 256 % 256) else 0)

/-- The holder of an ostler's grant. -/
def State.holderOf (s : State) (k : Nat) : Option Rq := (s.ostler k).holds.head?.map Holding.rq

/-- R241: whether a requester's lodging is frozen at an ostler. -/
def State.lodgingCut (s : State) (k : Nat) (rq : Rq) : Bool :=
  match s.lodgingOf rq with
  | some l => (nget s.net.frozen k).testBit (8 + l) || s.lodgingFrozen (k / 65536) l
  | none => false

/-- Table 8.7: the selected ostler's status and owner. -/
def State.ostlerStatus (s : State) : Word :=
  let k := s.ostlerKey
  let held := s.holderOf k
  let drained := (nget s.net.frozen k).testBit 0 && held.isNone
  let cut := match held with
    | some rq => s.lodgingCut k rq
    | none => false
  BitVec.ofNat 64 (2 ^ 32 * (s.grantsOf k % 2 ^ 32) + 2 ^ 24 * (s.ostler k).parked.length + 2 * cut.toNat + drained.toNat)

def State.ostlerOwner (s : State) : Word :=
  match s.holderOf s.ostlerKey with
  | some rq => BitVec.ofNat 64 rq.unit
  | none => 0xFFFFFFFF#64

/-- What a register of control space reads as: the word in force with the SH value written most recently (R12), the fields
that show state kept elsewhere, and its write-only fields as 0. -/
def State.regRead (s : State) (r u i : Nat) : Word :=
  let plain := s.reg r u i
  let n (f : Fld) (v : Nat) : Word := BitVec.ofNat 64 (withField f.lo f.w plain.toNat v)
  if r = rCL_SEM then n fCL_SEM_WAITERS (min 4095 (s.ms.semQueue.filter (fun w => w.sem == 256 * u + i)).length)
  else if r = rGL_STREAM_STATUS then n fGL_STREAM_STATUS_ARMED (s.entriesIn 1).length
  else if r = rGL_STREAM7 then s.entryWord i 7
  else if r = rSQ_STATUS then
    let ready := (s.sq.ready.filter (fun id => s.fld fGL_STREAM7_HOME 0 id == u)).length
    let slots := ((List.range 16).filter (fun k => s.is fSQ_SLOT_VALID u k)).length
    BitVec.ofNat 64 (withField 16 16 (withField 0 5 plain.toNat slots) (min 65535 ready))
  else if r = rSQ_SLOT then
    n fSQ_SLOT_OUTSTANDING (if s.is fSQ_SLOT_VALID u i then s.outstanding (s.fld fSQ_SLOT_STREAM u i) else 0)
  else if r = rMG_STICKY2 then BitVec.ofNat 64 s.sticky2
  else if r = rMG_LEDGER then
    (match s.recAt (i / 8) with
      | some x => BitVec.ofNat 64 (imgNat (recBytes x) (8 * (i % 8)) 8)
      | none => 0#64)
  else if r = rNW_OSTLER_CTRL then
    if s.ostlerThere then (s.pendingSh (rkey r 0 s.ostlerKey)).getD (BitVec.ofNat 64 (nget s.net.frozen s.ostlerKey)) else 0#64
  else if r = rNW_OSTLER_STATUS then (if s.ostlerThere then s.ostlerStatus else 0#64)
  else if r = rNW_OSTLER_OWNER then (if s.ostlerThere then s.ostlerOwner else 0#64)
  else
    let shown := match s.pendingSh (rkey r u i) with
      | some w => (s.writeAcc .sh r u i w).reg r u i
      | none => plain
    BitVec.ofNat 64 ((regRow r).fields.foldl (fun x f => if f.2.2 = .wo then withField f.1 f.2.1 x 0 else x) shown.toNat)

/-! ### What a write does -/

/-- Table 0.7: a register without a rule of its own: RW fields take the word, RWS and W1C bits written 1 clear, SH fields
wait for the commit point, all others ignore it. -/
def State.regPlain (s : State) (r u i : Nat) (w : Word) : State :=
  let s := (regRow r).fields.foldl (fun t f =>
    if f.2.2 = .rws ∨ f.2.2 = .w1c then
      t.put ⟨r, f.1, f.2.1⟩ u i (t.fld ⟨r, f.1, f.2.1⟩ u i &&& (2 ^ f.2.1 - 1 - fieldOf f.1 f.2.1 w.toNat))
    else t) (s.writeAcc .rw r u i w)
  if (regRow r).fields.any (fun f => decide (f.2.2 = .sh)) then s.holdSh (rkey r u i) w else s

/-- R376: the pending value of one register takes effect, and what that starts: the seed loads its generator (R47), a new
time source is selected (R319), ledger records are freed (R309), an ostler freezes (R241). -/
def State.commitSh (s : State) (r u i : Nat) : State :=
  match s.pendingSh (rkey r u i) with
  | none => s
  | some w =>
    if r = rCO_SR_SEED then (s.takeSh r u i).loadSeed u
    else if r = rTM_DISC_CFG then
      let t := s.takeSh r u i
      if t.fld fTM_DISC_CFG_SOURCE = s.fld fTM_DISC_CFG_SOURCE then t else t.discSelect
    else if r = rMG_LEDGER_READ then (s.dropSh (rkey r u i)).ledgerAdvance (w.toNat % 1024)
    else if r = rNW_OSTLER_CTRL then
      let s := s.dropSh (rkey r u i)
      { s with net := { s.net with frozen := nput s.net.frozen i (w.toNat % 2 + 256 * fieldOf 8 8 w.toNat) } }
    else s.takeSh r u i

/-- Table 13.8: a core is active while a program runs or a broadcast is queued. -/
def State.coreActive (s : State) (u : Nat) : Bool :=
  let st := s.fld fCO_CORE_STATUS_STATE u
  st == 1 || st == 2 || st == 3 || s.core.bq.any (fun e => 28 * e.c + s.slotOf e.c e.l == u)

/-- R81, R118, R120, R376: a core's registers. An SH write to an idle core takes effect at once. -/
def State.coWrite (s : State) (r u i : Nat) (w : Word) : State :=
  let bit := fun (k : Nat) => w.toNat.testBit k
  if r = rCO_ME_TEST then
    let code := w.toNat % 4
    let s := if code = 0 then s else { s with core := { s.core with inject := nput s.core.inject u code } }
    if bit 2 then s.clearCounts u else s
  else if r = rCO_MEM_POWER then
    s.forEach (List.range 4) (fun q s =>
      if bit (4 + q) = bit (8 + q) then s else s.powerRequest (halfPart u q) (if bit (8 + q) then 2 else 1))
  else if r = rCO_SR_SEED ∧ !s.coreActive u then (s.regPlain r u i w).commitSh r u i
  else s.regPlain r u i w

/-- R107, R118, R183, R203, R379, R380: a cluster's registers. -/
def State.clWrite (s : State) (rq : Rq) (r c i : Nat) (w : Word) : State :=
  let f (lo n : Nat) : Nat := fieldOf lo n w.toNat
  if r = rCL_SEM_WRITE then s.semWrite rq (f 40 2) c (f 32 8) (f 0 32)
  else if r = rCL_CM_POWER then
    s.forEach (List.range 32) (fun b s =>
      if w.toNat.testBit b = w.toNat.testBit (32 + b) then s
      else s.powerRequest (bankPart c b) (if w.toNat.testBit b then 2 else 1))
  else if r = rCL_FLAG_WRITE then (if f 44 2 = 3 then s else s.flagOp c (f 32 12) (f 44 2) (f 0 32) 0)
  else if r = rCL_ROUTE_SUBMIT then s.submitJob rq c (f 0 48)
  else if r = rCL_RESET then
    let u := 28 * c + f 8 5
    if f 0 2 = 1 then (if 28 ≤ f 8 5 ∨ s.slotHeld u ∨ s.clusterHeld c then s else s.coreReset u)
    else if f 0 2 = 2 then s.clusterResetReq c (w.toNat.testBit 15)
    else s
  else s.regPlain r c i w

/-- R10, R195: a sequencer's registers: its RW fields, SIZE among them, are guarded while a slot holds a stream. -/
def State.sqWrite (s : State) (r c i : Nat) (w : Word) : State :=
  let busy := (List.range 16).any (fun k => s.is fSQ_SLOT_VALID c k)
  if busy && (r == rSQ_Q || r == rSQ_TRACE_BASE) then s.busyWrite fSQ_STATUS_CFG_WHILE_BUSY c 0
  else if busy && r == rSQ_TRACE_CTRL then
    (s.holdSh (rkey r c i) w).busyWrite fSQ_STATUS_CFG_WHILE_BUSY c 0
  else s.regPlain r c i w

/-- R165, R185, R194, R271, R272, R274, R381, R390: the global registers. -/
def State.glWrite (s : State) (rq : Rq) (r i : Nat) (w : Word) : State :=
  let f (lo n : Nat) : Nat := fieldOf lo n w.toNat
  if streamRow r then s.entryWrite i (r - rGL_STREAM0) w
  else if r = rGL_BARRIER ∧ s.sq.barrierWait.any (fun b => b.1 == i) then
    s.busyWrite fGL_STREAM_STATUS_CFG_WHILE_BUSY 0 0
  else if r = rGL_STREAM_CTRL then (if f 16 2 = 1 then s.stopAct rq (f 0 16) else s)
  else if r = rGL_PT_REGION ∧ s.is fGL_LODGING_CFG_OPEN 0 i then s.busyWrite fGL_TLB_STATUS_CFG_WHILE_BUSY 0 0
  else if r = rGL_LODGING_CFG ∧ !s.is fGL_LODGING_CFG_OPEN 0 i then
    let t := s.regPlain r 0 i w
    if t.is fGL_LODGING_CFG_OPEN 0 i then t.put fGL_LODGING_CFG_LEVELS 0 i 0 else t
  else if r = rGL_TLB_INVAL then s.tlbInval (f 56 3) (f 0 24) (f 32 24)
  else if r = rGL_SCRUB_SUBMIT then s.scrubSubmit (f 0 24) (f 24 24)
  else if r = rGL_LODGING_RESET then (if w.toNat.testBit 3 then s.lodgingResetReq (f 0 3) (w.toNat.testBit 8) else s)
  else s.regPlain r 0 i w

/-- R226, R228, R234, R244, R245: the network's registers. -/
def State.nwWrite (s : State) (r i : Nat) (w : Word) : State :=
  let f (lo n : Nat) : Nat := fieldOf lo n w.toNat
  if r = rNW_DETOUR ∧ i / 64 % 2 = s.fld fNW_TOPO_CTRL_ACTIVE_BANK then s.busyWrite fNW_STATUS_CFG_WHILE_BUSY 0 0
  else if r = rNW_TOPO_CTRL then (if w.toNat.testBit 8 then s.armSwitch else s)
  else if r = rNW_LINK_CMD then
    (if 140 ≤ f 0 8 then s else if f 8 2 = 1 then s.retrain (f 0 8) else if f 8 2 = 2 then s.removeLink (f 0 8) else s)
  else if r = rNW_SWEEP then
    (if w.toNat.testBit 8 then s.armSweep (f 0 6) else s)
  else if r = rNW_OSTLER_CTRL then (if s.ostlerThere then s.holdSh (rkey r 0 s.ostlerKey) (w &&& 0xFF01#64) else s)
  else s.regPlain r 0 i w

/-- R260, R265: a stack's registers. A TARGET of 3 names no rate and is ignored (log 13). -/
def State.hbWrite (s : State) (r k i : Nat) (w : Word) : State :=
  let sw := s.is fHB_STATUS_SWITCHING k
  if sw && (r == rHB_RATE_CTRL || r == rHB_RATE_SWITCH) then s.busyWrite fHB_STATUS_CFG_WHILE_BUSY k 0
  else if r = rHB_RATE_CTRL then (if w.toNat % 4 = 3 then s else s.regPlain r k i w)
  else if r = rHB_RATE_SWITCH then (s.regPlain r k i w).armRate k w.toNat
  else if r = rHB_REFRESH ∧ s.anyOpen ∧ stretchOf (w.toNat % 32) ≠ 1 then s.busyWrite fHB_STATUS_CFG_WHILE_BUSY k 0
  else s.regPlain r k i w

/-- R303, R372, R375, R384: the innkeeper's registers. -/
def State.mgWrite (s : State) (r i : Nat) (w : Word) : State :=
  if r = rMG_LEDGER_MIRROR then s.mirrorSet w.toNat
  else if r = rMG_START_CTRL then
    (match w.toNat % 4 with
      | 1 => s.deviceReset 2
      | 2 => s.burn 0 false
      | 3 => s.put fMG_BOOT_FAILS_COUNTS 0 0 0
      | _ => s)
  else s.regPlain r 0 i w

/-- R314, R320, R325, R327, R331: the registers of time. TM_FREQ_ADJ is limited to 300 ppm either way. -/
def State.tmWrite (s : State) (r i : Nat) (w : Word) : State :=
  if r = rTM_SITE_NOW then s.siteNowWrite w.toNat
  else if r = rTM_STEP_FWD then s.stepForward w.toNat
  else if r = rTM_STEP_TABLE then s.stepTableWrite i w.toNat
  else if r = rTM_SWITCH_COUNT then s.startSwitch (fieldOf 61 3 w.toNat) (fieldOf 0 61 w.toNat)
  else if r = rTM_FREQ_ADJ then
    if s.tmBusy then s.tmIgnore
    else
      let top : Int := ppmUnits 300
      let x := max (-top) (min top (signed 32 (w.toNat % 2 ^ 32)))
      s.put fTM_FREQ_ADJ_ADJ 0 0 (x % 2 ^ 32).toNat
  else if r = rTM_TICK_NEXT ∧ s.tmBusy then s.tmIgnore
  else s.regPlain r 0 i w

/-- R339, R349, R356: the registers of power. -/
def State.pwWrite (s : State) (r i : Nat) (w : Word) : State :=
  let f (lo n : Nat) : Nat := fieldOf lo n w.toNat
  if r = rPW_CAP_SUSTAINED then s.capWrite 0 (f 0 12)
  else if r = rPW_CAP_PEAK then s.capWrite 1 (f 0 12)
  else if r = rPW_SHED_CAP then s.capWrite 2 (f 0 12)
  else if r = rPW_PRIORITY ∧ (f 0 2 = f 2 2 ∨ f 2 2 = f 4 2 ∨ f 0 2 = f 4 2) then s.busyWrite fPW_STATUS_CFG_WHILE_BUSY 0 0
  else if (r = rPW_CAP_SCHED0 ∨ r = rPW_CAP_SCHED1) ∧ s.is fPW_CAP_SCHED0_VALID 0 i ∧ s.fld fPW_CAP_SCHED0_COUNT 0 i ≤ s.now then
    s.busyWrite fPW_STATUS_CFG_WHILE_BUSY 0 0
  else s.regPlain r 0 i w

/-- R418: whether a TAIL would leave 2^m requests pending. -/
def State.tailBad (s : State) (x : Conn) (tail : Nat) : Bool :=
  let i := connIx x.l x.req.c
  let m := 2 ^ x.req.sendBits
  let old := s.fld fET_CONN_POST_TAIL 0 i
  let pending := (old + m - s.fld fET_CONN_POST_HEAD 0 i % m) % m
  decide (m ≤ tail) || decide (m ≤ pending + (tail + m - old % m) % m)

/-- R418, R411, R425: TAIL written: requests posted; a connection in ERROR completes them without their signals, and one
reserved for a drain takes none. -/
def State.postTail (s : State) (x : Conn) (tail : Nat) : State :=
  let i := connIx x.l x.req.c
  if tail = s.fld fET_CONN_POST_TAIL 0 i then s
  else
    let st := s.connState x
    if st = 3 ∨ s.tailBad x tail then s.connEvent x 0x8005 4 0 0 []
    else if st = 2 then
      ((s.put fET_CONN_POST_TAIL 0 i tail).put fET_CONN_POST_HEAD 0 i tail).putConn { x with next := tail }
    else s.put fET_CONN_POST_TAIL 0 i tail

/-- R417: how many entries an RX_READ frees: the index counts on past the ring's size, or wraps with it (log 37). -/
def rxFreed (old rx bits used : Nat) : Nat :=
  let d := (rx + 65536 - old) % 65536
  let m := 2 ^ bits
  if d ≤ used then d else (rx % m + m - old % m) % m

/-- R417: RX_READ written: buffers and completion records freed. An index beyond those in use frees nothing. -/
def State.freeRx (s : State) (x : Conn) (rx : Nat) : State :=
  let i := connIx x.l x.req.c
  let n := rxFreed (s.fld fET_CONN_POST_RX_READ 0 i) rx x.req.rxBits x.rxUsed
  if x.rxUsed < n then s
  else (s.put fET_CONN_POST_RX_READ 0 i rx).putConn { x with rxUsed := x.rxUsed - n }

/-- A write of ET_CONN_POST of connection c of lodging l. -/
def State.connPost (s : State) (l c : Nat) (w : Word) : State :=
  match s.conn l c with
  | none => s.regPlain rET_CONN_POST 0 (connIx l c) w
  | some x =>
    let s := s.freeRx x (fieldOf 16 16 w.toNat)
    match s.conn l c with
    | none => s
    | some x => s.postTail x (fieldOf 32 16 w.toNat)

/-- R407: whether a connection is open on a port. -/
def State.portUsed (s : State) (p : Nat) : Bool := s.ck.conns.any (fun x => x.req.port == p)

/-- R407, R417, R418, R428: the Ethernet registers; none while memory holds a resume's reads. -/
def State.etWrite (s : State) (r i : Nat) (w : Word) : Option State :=
  if r = rET_PORT_CFG then
    let mode := s.fld fET_PORT_CFG_MODE 0 i
    let t := s.regPlain r 0 i w
    if s.portUsed i then
      some ((t.put fET_PORT_CFG_MODE 0 i mode).busyWrite fET_PORT_STATUS_CFG_WHILE_BUSY 0 i)
    else some t
  else if r = rET_CONN_POST then some (s.connPost (i / 1024) (i % 1024) w)
  else if r = rET_RESUME0 ∧ w.toNat.testBit 63 then s.resumeStart i (w.toNat % 2 ^ 40)
  else some (s.regPlain r 0 i w)

/-- A write of a register that nothing refuses; none while memory holds what it needs. -/
def State.regWrite (s : State) (rq : Rq) (r u i : Nat) (w : Word) : Option State :=
  match (regRow r).block with
  | .co => some (s.coWrite r u i w)
  | .cl => some (s.clWrite rq r u i w)
  | .sq => some (s.sqWrite r u i w)
  | .gl => some (s.glWrite rq r i w)
  | .nw => some (s.nwWrite r i w)
  | .hb => some (s.hbWrite r u i w)
  | .mg => some (s.mgWrite r i w)
  | .tm => some (s.tmWrite r i w)
  | .pw => some (s.pwWrite r i w)
  | .et => s.etWrite r i w
  | .sc => some (s.regPlain r 0 i w)

/-- The error response that a write which is let through draws from its register all the same: a routing job turned away
(R203), a stream outside the requester's range (R194). -/
def State.regError (s : State) (rq : Rq) (r u : Nat) (w : Word) : Option Nat :=
  if r = rCL_ROUTE_SUBMIT then
    if s.is fCL_ROUTE_STATUS_FENCED u then some 0x4304
    else if 4 ≤ s.fld fCL_ROUTE_STATUS_QUEUED u then some 0x4301
    else none
  else if r = rGL_STREAM_CTRL ∧ fieldOf 16 2 w.toNat = 1 ∧ !rq.platform then
    match s.lodgingOf rq with
    | some l => if s.inRange l (w.toNat % 65536) then none else some 0x7001
    | none => some 0x7001
  else none

/-- R5, R6, R8, R389, R227: a write of 8 bytes to control space. -/
def State.csWrite (s : State) (rq : Rq) (a : Nat) (w : Word) : Got Unit × State :=
  if a % 8 ≠ 0 then (.err 0, s.emit .errorResponse rq.unit 0 [a])
  else match s.csRoute rq a with
  | 1 => (.err 0x3009, s.unreachable rq (s.csSource rq a) a)
  | 2 => (.held, s)
  | _ =>
    if s.csHeld rq a then (.held, s)
    else
    let s := s.csCrossed rq a
    match s.csRefusal rq a true with
    | some e => (.err e.1, s.csRefuse rq a true e)
    | none => match csDecode a with
      | none => (.ok (), s.stick fMG_STICKY0_UNMAPPED_WRITE)
      | some (r, u, i) => match s.regWrite rq r u i w with
        | none => (.held, s)
        | some t => match s.regError rq r u w with
          | some e => (.err e, t)
          | none => (.ok (), t)

/-- R5, R6, R389, R227: a read of 8 bytes of control space. -/
def State.csRead (s : State) (rq : Rq) (a : Nat) : Got Word × State :=
  if a % 8 ≠ 0 then (.err 0, s.emit .errorResponse rq.unit 0 [a])
  else match s.csRoute rq a with
  | 1 => (.err 0x3009, s.unreachable rq (s.csSource rq a) a)
  | 2 => (.held, s)
  | _ =>
    let s := s.csCrossed rq a
    match s.csRefusal rq a false with
    | some e => (.err e.1, s.csRefuse rq a false e)
    | none => match csDecode a with
      | none => (.ok 0#64, s)
      | some (r, u, i) => (.ok (s.regRead r u i), s)

/-- R5: what a narrower access to control space draws. -/
def State.csNarrow (s : State) (rq : Rq) (a : Nat) : State := s.emit .errorResponse rq.unit 0 [a]

/-- REGISTER_WRITE: a write to control space, `bytes` wide. -/
def execRegisterWrite (rq : Rq) (a bytes : Nat) (w : Word) (s : State) : Outcome :=
  .next (if bytes ≠ 8 then s.csNarrow rq a else (s.csWrite rq a w).2)

/-- Table 13.8: whether a pending word may take effect now, at a commit point of its block. A core and a sequencer commit
between their own steps and issues, the network's ostlers at each arbitration phase, all others at a 1 µs boundary, and
words 1 to 7 of ET_CKPT_CFG only while no capture or drain is under way. -/
def State.atCommit (s : State) (r i : Nat) : Bool :=
  match (regRow r).block with
  | .co => true
  | .sq => true
  | .nw => true
  | .et => s.atBoundary 250 && (r == rET_CKPT_CFG0 || nget s.ck.phase i == 0)
  | _ => s.atBoundary 250

/-- SH_COMMIT: a commit point of a block; the unit counts for the blocks of a cluster, a stack or a core slot. -/
def execShCommit (b : Block) (u : Nat) (s : State) : Outcome :=
  let due := s.sh.filter (fun p => decide ((regRow (p.1 / 2 ^ 32)).block = b) && p.1 / 2 ^ 20 % 2 ^ 12 == u &&
    s.atCommit (p.1 / 2 ^ 32) (p.1 % 2 ^ 20))
  .next (s.forEach due (fun p s => s.commitSh (p.1 / 2 ^ 32) u (p.1 % 2 ^ 20)))

/-- SEND_RING_POST: ET_CONN_POST written by a program, a host or the platform. -/
def execSendRingPost (rq : Rq) (l c : Nat) (w : Word) (s : State) : Outcome :=
  s.guard (decide (l < 8) && decide (c < 1024)) (fun s => (s.csWrite rq (etAddr (0x100000 + 0x2000 * l + 8 * c)) w).2)

/-- RX_RING_FREE: ET_CONN_POST written for its RX_READ. -/
def execRxRingFree (rq : Rq) (l c : Nat) (w : Word) (s : State) : Outcome :=
  s.guard (decide (l < 8) && decide (c < 1024)) (fun s => (s.csWrite rq (etAddr (0x100000 + 0x2000 * l + 8 * c)) w).2)

end Sys2Proof.Machine
end

