-- ==== Sys2Proof/Machine/LoadStore.lean ====
section
/-! DEFINITION. The loads and stores of QN (05_qn_instruction_set.md R126, R137-R139, R143, R157, R158, R222): LD, ST, VLD,
VST, LDD and STD, over memory and control space. A load's request and its response are one command; a store is performed
when it issues, and its entry in the response table is freed by RESPONSE_ARRIVAL. -/

namespace Sys2Proof.Machine

/-- R222: the load-store unit of a core holds 16 requests: whether n more fit. -/
def State.lsFree (s : State) (u n : Nat) : Bool := decide (n ≤ s.tableFree (.core u))

/-- Where a write's acknowledgement comes from: the router and the port of what has served it. -/
def State.ackFrom (s : State) (rq : Rq) (a : Nat) : Option (Nat × Nat) :=
  if addrForm a = 2 then (s.csDest rq a).map (fun d => (d.1, d.2.1))
  else if 0x010000000000 ≤ a then some (clusterAt a, 0)
  else match (s.translate rq a true false).1 with
    | .ok pa => some (s.hbmRouter pa, 5)
    | _ => none

/-- Stores that have been sent, to the addresses given: their entries are held until their acknowledgements. A store to the core's
own sub-window is local (R86) and awaits none. -/
def State.lsHold (s : State) (u : Nat) (addrs : List Nat) : State :=
  let pc := s.pc u
  s.forEach (addrs.filter (fun a => !s.ownAccess (.core u) a)) (fun a s => s.awaitAck (.core u) 0 pc 1 (s.ackFrom (.core u) a))

/-- R90, R138: the 64-byte requests of a vector access at an address: those with a lane the mask leaves on. -/
def laneAddrs (a : Nat) (m : Word) : List Nat :=
  ((List.range 4).filter (fun q => fieldOf (16 * q) 16 m.toNat != 0)).map (fun q => a + 64 * q)

def laneRequests (m : Word) : Nat := (laneAddrs 0 m).length

/-- What a request came to: held, refused with an error response (R158), or answered. -/
def State.lsGot {A : Type} (s : State) (u a : Nat) (g : Got A × State) (f : A → State → State) : State :=
  match g with
  | (.held, _) => s
  | (.err _, t) => t.progFault u 0x4106 a
  | (.ok x, t) => f x t

/-- R137: the address of LD and ST, sA + IMM10 * 2^SZ. -/
def State.lsAddr (s : State) (u : Nat) (x : Payload) : Nat := addrOf (s.sReg u (xA x)) (xImm10 x * (2 ^ xSz x : Nat))

/-- R138, R143: the address of VLD, VST, LDD and STD, sA + IMM10 * 64. -/
def State.lsAddr64 (s : State) (u : Nat) (x : Payload) : Nat := addrOf (s.sReg u (xA x)) (xImm10 x * 64)

/-- R126, R137: the fault of an LD or ST address: misaligned, of no form, or narrower than control space allows. -/
def lsFault (a sz : Nat) : Option Nat :=
  if a % 2 ^ sz ≠ 0 then some 0x4102
  else if addrForm a = 3 ∨ (addrForm a = 2 ∧ sz ≠ 3) then some 0x4103
  else none

/-- R126, R138: the fault of a 64-byte-aligned address of n bytes: misaligned, or a form that is not permitted. -/
def lsFault64 (a n : Nat) : Option Nat :=
  if a % 64 ≠ 0 then some 0x4102
  else if 1 < addrForm a ∨ addrForm (a + (n - 1)) ≠ addrForm a then some 0x4103
  else none

/-- R137: a read of 2^SZ bytes, zero-extended. -/
def State.lsRead (s : State) (u a sz : Nat) : Got Word × State :=
  if addrForm a = 2 then s.csRead (.core u) a
  else match s.readMem (.core u) a (2 ^ sz) with
    | (.ok bs, t) => (.ok (BitVec.ofNat 64 (leNat bs)), t)
    | (.err e, t) => (.err e, t)
    | (.held, t) => (.held, t)

def State.ldBody (s : State) (u : Nat) (x : Payload) : State :=
  let a := s.lsAddr u x
  match lsFault a (xSz x) with
  | some e => s.progFault u e a
  | none => s.lsGot u a (s.lsRead u a (xSz x)) (fun w s => s.retire u (xD x) w)

def execLd (u : Nat) (x : Payload) (s : State) : Outcome :=
  s.guard (s.issues u [xD x, xA x] && s.lsFree u 1) (fun s => s.predicated u x (fun s => s.ldBody u x))

/-- R137: a write of 2^SZ bytes of a word. -/
def State.lsWrite (s : State) (u a sz : Nat) (w : Word) : Got Unit × State :=
  if addrForm a = 2 then s.csWrite (.core u) a w else s.writeAll (.core u) a (leBytes (2 ^ sz) w.toNat)

def State.stBody (s : State) (u : Nat) (x : Payload) : State :=
  let a := s.lsAddr u x
  match lsFault a (xSz x) with
  | some e => s.progFault u e a
  | none => s.lsGot u a (s.lsWrite u a (xSz x) (s.sReg u (xD x))) (fun _ s => (s.lsHold u [a]).advance u 4)

def execSt (u : Nat) (x : Payload) (s : State) : Outcome :=
  s.guard (s.issues u [xD x, xA x] && s.lsFree u 1) (fun s => s.predicated u x (fun s => s.stBody u x))

/-- R138: the runs of consecutive lanes a mask leaves on: first lane and number. -/
def laneRuns : List Nat → List (Nat × Nat)
  | [] => []
  | k :: l => match laneRuns l with
    | (a, n) :: r => if a = k + 1 then (k, n + 1) :: r else (k, 1) :: (a, n) :: r
    | [] => [(k, 1)]

/-- R138: the lanes of a VLD, run by run: lanes masked off are not read. -/
def State.vldGo (u rd a : Nat) : State → List (Nat × Nat) → Got Unit × State
  | s, [] => (.ok (), s)
  | s, (k, n) :: l => match s.readMem (.core u) (a + 4 * k) (4 * n) with
    | (.err e, t) => (.err e, t)
    | (.held, t) => (.held, t)
    | (.ok bs, t) =>
      let t := t.forEach (List.range n) (fun j t =>
        t.setLane u rd (k + j) (BitVec.ofNat 32 (leNat ((bs.drop (4 * j)).take 4))))
      State.vldGo u rd a t l

/-- A VLD that draws an error response has no effect on its register (R157). -/
def State.vldBody (s : State) (u : Nat) (x : Payload) : State :=
  let a := s.lsAddr64 u x
  if xSz x ≠ 0 then s.progFault u 0x4101 0
  else match lsFault64 a 256 with
    | some e => s.progFault u e a
    | none => match State.vldGo u (xD x) a s (laneRuns (maskLanes (s.lanes u x))) with
      | (.held, _) => s
      | (.err _, t) => { t with core := { t.core with v := s.core.v } }.progFault u 0x4106 a
      | (.ok _, t) => t.advance u 4

def execVld (u : Nat) (x : Payload) (s : State) : Outcome :=
  s.guard (s.issuesV u [xA x] && s.lsFree u (laneRequests (s.lanes u x))) (fun s => s.vldBody u x)

/-- R138: the bytes of a VST; lanes masked off are not written. -/
def State.vstBytes (s : State) (u : Nat) (x : Payload) : List (Option (BitVec 8)) :=
  let m := s.lanes u x
  (List.range 64).flatMap (fun k =>
    let bs := leBytes 4 (s.vLane u (xD x) k).toNat
    if m.getLsbD k then bs.map some else bs.map (fun _ => none))

/-- R157: what the requests of a write meet, with nothing written. -/
def State.probeGo (rq : Rq) : Nat → State → Nat → List (Option (BitVec 8)) → Got Unit × State
  | 0, s, _, _ => (.ok (), s)
  | k + 1, s, a, bs =>
    if bs = [] then (.ok (), s)
    else
      let m := pieceLen a bs.length
      if (bs.take m).all Option.isNone then State.probeGo rq k s (a + m) (bs.drop m)
      else
        match s.request rq a m false true false with
        | (.ok _, t) => State.probeGo rq k t (a + m) (bs.drop m)
        | (.err e, t) => (.err e, t)
        | (.held, t) => (.held, t)

/-- R157: a write of several requests of one instruction: none of it takes place where one is refused. -/
def State.writeWhole (s : State) (rq : Rq) (a : Nat) (bs : List (Option (BitVec 8))) : Got Unit × State :=
  match State.probeGo rq (bs.length / 64 + 2) s a bs with
  | (.ok _, _) => s.writeMem rq a bs
  | r => r

def State.vstBody (s : State) (u : Nat) (x : Payload) : State :=
  let a := s.lsAddr64 u x
  if xSz x ≠ 0 then s.progFault u 0x4101 0
  else match lsFault64 a 256 with
    | some e => s.progFault u e a
    | none => s.lsGot u a (s.writeWhole (.core u) a (s.vstBytes u x)) (fun _ t =>
      (t.lsHold u (laneAddrs a (s.lanes u x))).advance u 4)

def execVst (u : Nat) (x : Payload) (s : State) : Outcome :=
  s.guard (s.issuesV u [xA x] && s.lsFree u (laneRequests (s.lanes u x))) (fun s => s.vstBody u x)

/-- R139, R143: a loaded record checked, and taken if the contract level permits its levels. -/
def State.takeDesc (s : State) (u rd a : Nat) (bs : List (BitVec 8)) : State :=
  let d := wordsOf 8 bs
  if !descOk d then s.progFault u 0x4104 a
  else if !levelsOk (s.level u) d then s.progFault u 0x4101 a
  else (s.setD u rd d).advance u 4

/-- R143: LDD. -/
def State.lddBody (s : State) (u : Nat) (x : Payload) : State :=
  let a := s.lsAddr64 u x
  if 16 ≤ xD x ∨ xSz x ≠ 0 then s.progFault u 0x4101 0
  else match lsFault64 a 64 with
    | some e => s.progFault u e a
    | none => s.lsGot u a (s.readMem (.core u) a 64) (fun bs s => s.takeDesc u (xD x) a bs)

def execLdd (u : Nat) (x : Payload) (s : State) : Outcome :=
  s.guard (s.issues u [xA x] && s.lsFree u 1) (fun s => s.predicated u x (fun s => s.lddBody u x))

/-- R143: STD. -/
def State.stdBody (s : State) (u : Nat) (x : Payload) : State :=
  let a := s.lsAddr64 u x
  if 16 ≤ xD x ∨ xSz x ≠ 0 then s.progFault u 0x4101 0
  else match lsFault64 a 64 with
    | some e => s.progFault u e a
    | none =>
      let bs := (s.dReg u (xD x)).flatMap (fun w => leBytes 8 w.toNat)
      s.lsGot u a (s.writeAll (.core u) a bs) (fun _ s => (s.lsHold u [a]).advance u 4)

def execStd (u : Nat) (x : Payload) (s : State) : Outcome :=
  s.guard (s.issues u [xA x] && s.lsFree u 1) (fun s => s.predicated u x (fun s => s.stdBody u x))

end Sys2Proof.Machine
end

