-- ==== Sys2Proof/Machine/Ethernet.lean ====
section
/-! DEFINITION. Ports and connections, and Vuveand as responder (15_ethernet_and_training_continuity.md R407-R417, R424,
R430): the management of connections and addresses, the frames a sub-port takes, and the requests a peer sends. A packet's
operation code in an outward record is that of Table 15.5, and 6 a read response, 7 an acknowledgement, 8 a NAK, 9 a CNP
(log 8). -/

namespace Sys2Proof.Machine

/-! ### Connections and addresses -/

/-- R410: whether n bytes from an address lie in a lodging's memories: its virtual pages, or the logical view of clusters
it owns. -/
def State.inLodging (s : State) (l a n : Nat) : Bool :=
  match addrForm a with
  | 0 => decide (a + (n - 1) < 65536 * s.fld fGL_PT_REGION_COUNT 0 l)
  | 1 =>
    addrForm (a + (n - 1)) == 1 && s.owns l (clusterAt a) && s.owns l (clusterAt (a + (n - 1)))
  | _ => false

/-- R410, Table 15.2: what a request must keep to be one at all. -/
def connWellFormed (q : ConnReq) : Bool :=
  decide (q.c < 1024) && decide (q.port < 8) && decide (q.sub < 4) && (q.mtu == 1024 || q.mtu == 2048 || q.mtu == 4096) &&
    decide (10 ≤ q.timeout) && decide (q.timeout ≤ 100000) && decide (q.retryMax ≤ 7) && decide (q.rnrMax ≤ 7) &&
    decide (256 ≤ q.rxSize) && decide (q.rxSize ≤ 65536) && decide (4 ≤ q.sendBits) && decide (q.sendBits ≤ 12) &&
    decide (q.rxBits ≤ 16)

/-- R410: whether a key slot serves a role: in the lodging's range, LOADED, and of a direction other than the one given. -/
def State.keyServes (s : State) (l k other : Nat) : Bool :=
  let f := s.fld fSC_SLOT_RANGE_FIRST 0 l
  decide (f ≤ k) && decide (k < f + s.fld fSC_SLOT_RANGE_COUNT 0 l) && s.slotLoaded k && s.fld fSC_SLOT0_DIR 0 k != other

/-- R410: whether a connection is opened. -/
def State.connOk (s : State) (l : Nat) (q : ConnReq) : Bool :=
  (s.conn l q.c).isNone && decide ((s.ck.conns.filter (fun x => x.req.port == q.port)).length < 1024) &&
    (s.fld fGL_LODGING_CFG_PORTS 0 l).testBit (4 * q.port + q.sub) && s.keyServes l q.txSlot 2 && s.keyServes l q.rxSlot 1 &&
    s.inLodging l q.sendRing (64 * 2 ^ q.sendBits) && s.inLodging l q.rxRing (q.rxSize * 2 ^ q.rxBits) &&
    s.inLodging l q.cplRing (16 * 2 ^ q.rxBits) && s.owns l q.flagC && decide (q.flagK < 4096)

/-- R410: the record of an opening or its refusal. -/
def State.openEvent (s : State) (l port outcome : Nat) : State :=
  s.record { event := 0x8001, unit := unitPort port, outcome := outcome, lodging := some l }

/-- R410: a connection opened; the reply names Vuveand's queue pair. -/
def State.connOpen (s : State) (n l : Nat) (q : ConnReq) : State :=
  let x : Conn := { l := l, req := q, qp := s.ck.nextQp, sendPsn := q.sendPsn % 2 ^ 24, recvPsn := q.recvPsn % 2 ^ 24,
                    next := 0, works := [], retries := 0, rnrs := 0, sentAt := s.now, rate := 64, rateAt := s.now, cnpAt := 0,
                    incoming := none, rxNext := 0, rxUsed := 0, nakked := false, dropMs := 0 }
  let s := { s with ck := { s.ck with conns := s.ck.conns ++ [x], nextQp := s.ck.nextQp + 1 } }
  let s := (s.setReg rET_CONN_POST 0 (connIx l q.c) 0#64).put fET_CONN_POST_STATE 0 (connIx l q.c) 1
  (s.openEvent l q.port 0).done n 0x38 [x.qp]

def execConnOpen (h : MsgHdr) (l : Nat) (q : ConnReq) (s : State) : Outcome :=
  .next (s.message h 0x38 .host (some l) (fun x s =>
    if !connWellFormed q then s.malformed x.number 0x38
    else if s.connOk l q then s.connOpen x.number l q
    else (s.openEvent l q.port 4).refused x.number 0x38 0x8001 0))

/-- R411: a connection closed: a drain on it has failed, and its index is free. -/
def State.connClose (s : State) (l c : Nat) : State :=
  let s := s.when (s.ck.drains.any (fun d => d.l == l && d.c == c)) (fun s => s.drainFail l)
  { s with ck := { s.ck with conns := s.ck.conns.filter (fun x => !(x.l == l && x.req.c == c)) } }.setReg rET_CONN_POST 0
    (connIx l c) 0#64

def execConnClose (h : MsgHdr) (l c : Nat) (s : State) : Outcome :=
  .next (s.message h 0x39 .host (some l) (fun x s =>
    if (s.conn l c).isNone then s.refused x.number 0x39 0 0 else (s.connClose l c).done x.number 0x39 []))

/-- R408: a sub-port's addresses set. -/
def execAddrSet (h : MsgHdr) (port sub mac ip4 ip6 : Nat) (s : State) : Outcome :=
  .next (s.message h 0x3A .owner none (fun x s =>
    if 8 ≤ port ∨ 4 ≤ sub then s.malformed x.number 0x3A
    else
      let k := 4 * port + sub
      let mg := { s.mg with macs := nput s.mg.macs k (mac % 2 ^ 48), ip4 := nput s.mg.ip4 k (ip4 % 2 ^ 32),
                            ip6 := nput s.mg.ip6 k (ip6 % 2 ^ 128) }
      { s with mg := mg }.done x.number 0x3A []))

/-! ### Frames outside a connection -/

/-- Table 15.1: whether a port's mode has a sub-port. -/
def State.hasSub (s : State) (port sub : Nat) : Bool :=
  decide (port < 8) && decide (sub < (match s.fld fET_PORT_CFG_MODE 0 port with
    | 0 => 0
    | 1 => 1
    | 2 => 2
    | _ => 4))

/-- R358: the boot form of port 0, while it is a source of a start: it accepts only management frames. -/
def State.bootForm (s : State) (port sub : Nat) : Bool :=
  !s.ready && port == 0 && sub == 0 && (s.pins.bootSrc == 1 || s.pins.bootSrc == 2)

/-- R361: whether frames arrive on a sub-port: of any port once the device is ready, before that of the boot source only. -/
def State.subExists (s : State) (port sub : Nat) : Bool := (s.ready && s.hasSub port sub) || s.bootForm port sub

/-- R408: a frame dropped and counted. -/
def State.frameDrop (s : State) (port : Nat) : State := s.sat fET_PORT_STATUS_DROPPED 0 port 1

def execFrameNotAccepted (port sub : Nat) (s : State) : Outcome :=
  s.guard (s.subExists port sub) (fun s => s.frameDrop port)

/-- R408: an answer with the sub-port's MAC address, when the address asked for is its own. -/
def State.neighbor (s : State) (port sub own asked kind : Nat) : State :=
  if s.ready ∧ own ≠ 0 ∧ own = asked then (s.mgmtFrame port sub).emit .packet (4 * port + sub) kind [asked, nget s.mg.macs (4 * port + sub)]
  else s.frameDrop port

def execArpRequest (port sub ip : Nat) (s : State) : Outcome :=
  s.guard (s.subExists port sub && s.txOpen port sub none) (fun s => s.neighbor port sub (nget s.mg.ip4 (4 * port + sub)) ip 10)

def execNeighborSolicitation (port sub ip : Nat) (s : State) : Outcome :=
  s.guard (s.subExists port sub && s.txOpen port sub none) (fun s => s.neighbor port sub (nget s.mg.ip6 (4 * port + sub)) ip 11)

/-- R408: a pause frame for the port's priority pauses RoCE transmission or ends the pause; another is not accepted. -/
def State.pauseFrame (s : State) (port sub prio : Nat) (on : Bool) : State :=
  if s.ready ∧ s.is fET_PORT_CFG_PFC_EN 0 port ∧ s.fld fET_PORT_CFG_PFC_PRIO 0 port = prio then
    let rest := s.ck.paused.filter (fun p => p != (port, sub))
    { s with ck := { s.ck with paused := if on then rest ++ [(port, sub)] else rest } }
  else s.frameDrop port

def execPauseFrame (port sub prio : Nat) (on : Bool) (s : State) : Outcome :=
  s.guard (s.subExists port sub) (fun s => s.pauseFrame port sub prio on)

/-- R407: a sub-port's link comes up or goes down. -/
def State.linkChange (s : State) (port sub : Nat) (up : Bool) : State :=
  let s := (s.putBit fET_PORT_STATUS_UP 0 port sub up).when (!up) (fun s => s.stick fET_PORT_STATUS_LINK_DROPPED 0 port)
  s.event 0x8008 (unitPort port)

def execSubportLinkChange (port sub : Nat) (up : Bool) (s : State) : Outcome :=
  s.guard ((s.hasSub port sub || s.bootForm port sub) && (s.fld fET_PORT_STATUS_UP 0 port).testBit sub != up) (fun s => s.linkChange port sub up)

/-! ### Received packets -/

/-- R413: a packet dropped without a NAK: counted, and recorded once per connection and millisecond. -/
def State.pktDrop (s : State) (x : Conn) (tagOk : Bool) : State :=
  let s := (s.frameDrop x.req.port).when (!tagOk) (fun s => s.stick fET_PORT_STATUS_TAG_FAIL 0 x.req.port)
  let ms := s.now / 250000 + 1
  if x.dropMs = ms then s else (s.putConn { x with dropMs := ms }).connEvent x 0x8003 1 0 0 []

/-- R408: a frame marked Congestion Experienced draws a CNP, at most one per connection in 50 µs. -/
def State.cnpBack (s : State) (x : Conn) : State :=
  if x.cnpAt = 0 ∨ x.cnpAt - 1 + 12500 ≤ s.now then (s.putConn { x with cnpAt := s.now + 1 }).sendPacket x 9 [] [] else s

/-- Whether a connection takes part: OPEN, or reserved for a drain. -/
def State.connLive (s : State) (x : Conn) : Bool := s.connState x == 1 || s.connState x == 3

/-- R411-R413: a packet of a connection that is taken up: the connection is live, its receive slot holds a key, and tag and
protection header are right. While the sub-port grants the lodging no frame to answer with, the packet waits (log 50). -/
def State.recv (s : State) (p : Pkt) (f : Conn → State → State) : State :=
  match s.conn p.l p.c with
  | none => s
  | some x =>
    if !s.connLive x ∨ !s.txOpen x.req.port x.req.sub (some x.l) then s
    else if s.fld fSC_SLOT0_STATE 0 x.req.rxSlot = 0 then s.pktDrop x true
    else if !p.tagOk ∨ !p.verOk then s.pktDrop x p.tagOk
    else
      let s := if p.ce then s.cnpBack x else s
      match s.conn p.l p.c with
      | none => s
      | some x => if s.connLive x then f x s else s

/-- R414, R415, R417: a request refused with a NAK: its syndrome, and the record of its region and address. The packet
counts as answered, and what is left of its message is not performed (R416). -/
def State.nakPkt (s : State) (x : Conn) (p : Pkt) (syndrome region addr : Nat) : State :=
  let y := { x with recvPsn := (x.recvPsn + 1) % 2 ^ 24, incoming := none }
  let s := (s.putConn y).connEvent y 0x8004 4 0 0 (BitVec.ofNat 8 region :: leBytes 8 addr)
  s.sendPacket y 8 [p.psn, syndrome] []

/-- The NAK syndromes of RoCE v2 (log 8): receiver not ready, sequence error, Invalid Request, Remote Access Error. -/
def nakRnr : Nat := 0x20
def nakSeq : Nat := 0x60
def nakInvalid : Nat := 0x61
def nakAccess : Nat := 0x62

/-- R417: a full ring: the packet is to be sent again. -/
def State.rnrPkt (s : State) (x : Conn) (p : Pkt) : State := s.sendPacket x 8 [p.psn, nakRnr] []

/-- A request packet in its sequence is acted on; one ahead of it draws one NAK, and a duplicate is acknowledged again. -/
def State.inOrder (s : State) (x : Conn) (p : Pkt) (f : Conn → State → State) : State :=
  let d := (p.psn + 2 ^ 24 - x.recvPsn) % 2 ^ 24
  if d = 0 then
    let y := { x with nakked := false }
    f y (s.putConn y)
  else if d < 2 ^ 23 then
    (if x.nakked then s else (s.putConn { x with nakked := true }).sendPacket x 8 [x.recvPsn, nakSeq] [])
  else s.sendPacket x 7 [p.psn] []

/-! ### Remote regions -/

/-- R415: whether every word of a range of control space is permitted to a requester. -/
def State.windowOk (s : State) (rq : Rq) (a n : Nat) (wr : Bool) : Bool :=
  (List.range (n / 8)).all (fun k => (s.csRefusal rq (a + 8 * k) wr).isNone)

/-- R166, R389, R415: what a refused request to the configuration window leaves behind, besides its NAK. -/
def State.windowRefused (s : State) (rq : Rq) (a n : Nat) (wr : Bool) : State :=
  match (List.range (n / 8)).find? (fun k => (s.csRefusal rq (a + 8 * k) wr).isSome) with
  | some k => (s.rangeRefused (a + 8 * k) wr).secRefused
  | none => s

/-- R414, R415, Table 15.3: what refuses a request before any of it is performed. -/
def State.regionFault (s : State) (rq : Rq) (l rkey a n : Nat) (wr : Bool) : Option Nat :=
  let region := rkey / 2 ^ 28
  if 2 ^ 31 < n then some nakInvalid
  else if rkey % 2 ^ 28 ≠ nget s.mg.tags l ∨ 2 < region then some nakAccess
  else if region = 1 ∧ n ≠ 0 ∧ (addrForm a ≠ 1 ∨ addrForm (a + (n - 1)) ≠ 1) then some nakAccess
  else if region = 0 ∧ 2 ^ 40 < a % 2 ^ 40 + n then some nakAccess
  else if region = 2 ∧ (a % 8 ≠ 0 ∨ n % 8 ≠ 0) then some nakInvalid
  else if region = 2 ∧ !s.windowOk rq a n wr then some nakAccess
  else none

/-- R415: register writes in ascending order, each performed before the next begins. -/
def State.csWriteAll (rq : Rq) : State → Nat → List Word → Got Unit × State
  | s, _, [] => (.ok (), s)
  | s, a, w :: l => match s.csWrite rq a w with
    | (.ok _, t) => State.csWriteAll rq t (a + 8) l
    | r => r

/-- R415: register reads in ascending order. -/
def State.csReadAll (rq : Rq) : State → Nat → Nat → Got (List (BitVec 8)) × State
  | s, _, 0 => (.ok [], s)
  | s, a, n + 1 => match s.csRead rq a with
    | (.err e, t) => (.err e, t)
    | (.held, t) => (.held, t)
    | (.ok w, t) => match State.csReadAll rq t (a + 8) n with
      | (.ok l, t) => (.ok (leBytes 8 w.toNat ++ l), t)
      | r => r

/-- Table 15.3: bytes written to, and read from, a region. -/
def State.regionWrite (s : State) (rq : Rq) (region a : Nat) (bs : List (BitVec 8)) : Got Unit × State :=
  match region with
  | 0 => s.writeAll rq (a % 2 ^ 40) bs
  | 1 => s.writeAll rq a bs
  | _ => State.csWriteAll rq s a (wordsOf (bs.length / 8) bs)

def State.regionRead (s : State) (rq : Rq) (region a n : Nat) : Got (List (BitVec 8)) × State :=
  match region with
  | 0 => s.readMem rq (a % 2 ^ 40) n
  | 1 => s.readMem rq a n
  | _ => State.csReadAll rq s a (n / 8)

/-! ### Receive rings -/

/-- R417: whether the receive and completion rings are full. -/
def rxFull (x : Conn) : Bool := decide (2 ^ x.req.rxBits ≤ x.rxUsed)

/-- Table 15.4. -/
def completionRecord (imm len c op buf : Nat) : List (BitVec 8) :=
  leBytes 4 imm ++ leBytes 4 len ++ leBytes 2 c ++ leBytes 1 op ++ [0#8] ++ leBytes 4 buf

/-- R417: the completion record written and the notify flag raised; none while memory holds the write. An error answers
as such. -/
def State.complete (s : State) (x : Conn) (imm len op buf : Nat) : Got Unit × State :=
  let i := x.rxNext % 2 ^ x.req.rxBits
  match s.writeAll (.host x.l x.req.port) (x.req.cplRing + 16 * i) (completionRecord imm len x.req.c op buf) with
  | (.ok _, t) =>
    let t := t.putConn { x with rxNext := x.rxNext + 1, rxUsed := x.rxUsed + 1 }
    (.ok (), t.raiseFlag (unitPort x.req.port) x.l x.req.flagC x.req.flagK {})
  | r => r

/-- R424: whether receive completions of a lodging are held while its state is taken. -/
def State.completionHeld (s : State) (l : Nat) : Bool := nget s.ck.phase l == 2

/-- R416: the end of a packet that has been performed: the next one is expected, and the last of a message is
acknowledged. -/
def State.pktDone (s : State) (x : Conn) (p : Pkt) (m : Incoming) : State :=
  let y := { x with recvPsn := (x.recvPsn + 1) % 2 ^ 24, incoming := if p.last then none else some m }
  let s := s.putConn y
  if p.last then s.sendPacket y 7 [p.psn] [] else s

/-! ### Requests of a peer -/

/-- R416: the message a packet belongs to: a new one, or the one under way; none when that one has been refused. -/
def msgOf (x : Conn) (p : Pkt) (kind : Nat) : Option Incoming :=
  if p.first then some { kind := kind, rkey := p.rkey, addr := p.addr, len := p.len, got := 0 } else x.incoming

/-- A packet of a refused message: nothing of it is performed, and nothing answers it. -/
def State.pktSkip (s : State) (x : Conn) : State := s.putConn { x with recvPsn := (x.recvPsn + 1) % 2 ^ 24 }

/-- Whether a packet's payload fits its place in a message of known length. -/
def pktFits (x : Conn) (p : Pkt) (m : Incoming) : Bool :=
  if p.last then m.got + p.payload.length == m.len && decide (p.payload.length ≤ x.req.mtu)
  else p.payload.length == x.req.mtu && decide (m.got + p.payload.length < m.len)

/-- R414-R417: a packet of an RDMA WRITE; `imm` is the immediate of the last packet of one with immediate. -/
def State.writePkt (s : State) (x : Conn) (p : Pkt) (imm : Option Nat) : State :=
  let rq : Rq := .host x.l x.req.port
  match msgOf x p 1 with
  | none => s.pktSkip x
  | some m =>
    let region := m.rkey / 2 ^ 28
    let a := m.addr + m.got
    if m.kind ≠ 1 ∨ !pktFits x p m then s.nakPkt x p nakInvalid region a
    else match (if p.first then s.regionFault rq x.l m.rkey m.addr m.len true else none) with
    | some e => (if region = 2 ∧ e = nakAccess then s.windowRefused rq m.addr m.len true else s).nakPkt x p e region m.addr
    | none =>
      if imm.isSome ∧ rxFull x then s.rnrPkt x p
      else if imm.isSome ∧ s.completionHeld x.l then s
      else match s.regionWrite rq region a p.payload with
      | (.held, _) => s
      | (.err _, t) => t.nakPkt x p nakAccess region a
      | (.ok _, t) =>
        let x := (t.conn x.l x.req.c).getD x
        let m := { m with got := m.got + p.payload.length }
        match imm with
        | none => t.pktDone x p m
        | some v => match t.complete x v m.len 2 0xFFFFFFFF with
          | (.held, _) => s
          | (.err _, t) => t.nakPkt x p nakAccess region a
          | (.ok _, t) => t.pktDone ((t.conn x.l x.req.c).getD x) p m

def execRdmaWrite (p : Pkt) (s : State) : Outcome :=
  .next (s.recv p (fun x s => s.inOrder x p (fun x s => s.writePkt x p none)))

def execRdmaWriteWithImmediate (p : Pkt) (s : State) : Outcome :=
  s.guard p.last (fun s => s.recv p (fun x s => s.inOrder x p (fun x s => s.writePkt x p (some (p.imm % 2 ^ 32)))))

/-- R414, R415: an RDMA READ served: its response messages and the sequence numbers they take. -/
def State.readServe (s : State) (x : Conn) (p : Pkt) (again : Bool) : State :=
  let rq : Rq := .host x.l x.req.port
  let region := p.rkey / 2 ^ 28
  match s.regionFault rq x.l p.rkey p.addr p.len false with
  | some e => (if region = 2 ∧ e = nakAccess then s.windowRefused rq p.addr p.len false else s).nakPkt x p e region p.addr
  | none => match s.regionRead rq region p.addr p.len with
    | (.held, _) => s
    | (.err _, t) => t.nakPkt x p nakAccess region p.addr
    | (.ok bs, t) =>
      let x := (t.conn x.l x.req.c).getD x
      let k := packetCount x.req.mtu p.len
      let t := if again then t else t.putConn { x with recvPsn := (x.recvPsn + k) % 2 ^ 24 }
      t.sendMessage x.l x.req.c 6 [p.psn] bs

/-- A READ that repeats one already answered is answered again. -/
def State.readPkt (s : State) (x : Conn) (p : Pkt) : State :=
  if 2 ^ 23 ≤ (p.psn + 2 ^ 24 - x.recvPsn) % 2 ^ 24 then s.readServe x p true
  else s.inOrder x p (fun x s => s.readServe x p false)

def execRdmaRead (p : Pkt) (s : State) : Outcome := .next (s.recv p (fun x s => s.readPkt x p))

/-- R417: a packet of a SEND; `imm` is the immediate of the last packet of one with immediate. -/
def State.sendPkt (s : State) (x : Conn) (p : Pkt) (imm : Option Nat) : State :=
  match msgOf x p 4 with
  | none => s.pktSkip x
  | some m =>
    let i := x.rxNext % 2 ^ x.req.rxBits
    let a := x.req.rxRing + i * x.req.rxSize + m.got
    let n := m.got + p.payload.length
    if p.first ∧ rxFull x then s.rnrPkt x p
    else if m.kind ≠ 4 ∨ x.req.rxSize < n ∨ (!p.last ∧ p.payload.length ≠ x.req.mtu) then s.nakPkt x p nakInvalid (addrForm a) a
    else if p.last ∧ s.completionHeld x.l then s
    else match s.writeAll (.host x.l x.req.port) a p.payload with
    | (.held, _) => s
    | (.err _, t) => t.nakPkt x p nakAccess (addrForm a) a
    | (.ok _, t) =>
      let m := { m with got := n }
      if !p.last then t.pktDone x p m
      else match t.complete x (imm.getD 0) n (if imm.isSome then 5 else 4) i with
        | (.held, _) => s
        | (.err _, t) => t.nakPkt x p nakAccess (addrForm a) a
        | (.ok _, t) => t.pktDone ((t.conn x.l x.req.c).getD x) p m

def execSend (p : Pkt) (s : State) : Outcome :=
  .next (s.recv p (fun x s => s.inOrder x p (fun x s => s.sendPkt x p none)))

def execSendWithImmediate (p : Pkt) (s : State) : Outcome :=
  s.guard p.last (fun s => s.recv p (fun x s => s.inOrder x p (fun x s => s.sendPkt x p (some (p.imm % 2 ^ 32)))))

/-- R409: an operation that is not supported draws an Invalid Request NAK. -/
def execUnsupportedOperation (p : Pkt) (s : State) : Outcome :=
  .next (s.recv p (fun x s => s.inOrder x p (fun x s => s.nakPkt x p nakInvalid (p.rkey / 2 ^ 28) p.addr)))

/-- R408: a CNP halves the connection's transmit rate. -/
def execCnp (p : Pkt) (s : State) : Outcome :=
  .next (s.recv p (fun x s => s.putConn { x with rate := max 1 (x.rate / 2), rateAt := s.now }))

/-- R408: 50 µs without a CNP raise it by 1/64 of line rate. -/
def execCnpRateRecovery (l c : Nat) (s : State) : Outcome :=
  match s.conn l c with
  | none => .next s
  | some x => s.guard (decide (x.rate < 64) && decide (x.rateAt + 12500 ≤ s.now)) (fun s =>
      s.putConn { x with rate := x.rate + 1, rateAt := s.now })

end Sys2Proof.Machine
end

