-- ==== Sys2Proof/Machine/Requester.lean ====
section
/-! DEFINITION. Vuveand as requester (15_ethernet_and_training_continuity.md R411, R418-R420, R425): work requests of the send
rings, responses and acknowledgements, and go-back-N retransmission. A request that has ended keeps its place in the ring
until those before it have (R419); one that ended without its signal has no words left. -/

namespace Sys2Proof.Machine

def Work.w (k : Work) (i : Nat) : Nat := ((k.words[i]?).getD 0#64).toNat

/-- Table 15.5. -/
def Work.op (k : Work) : Nat := fieldOf 56 8 (k.w 0)
def Work.push (k : Work) : Bool := (k.w 0).testBit 55
def Work.fence (k : Work) : Bool := (k.w 0).testBit 54
def Work.tag (k : Work) : Nat := fieldOf 32 12 (k.w 1)
def Work.way (k : Work) : Nat := fieldOf 0 32 (k.w 1)
def Work.len (k : Work) : Nat := fieldOf 0 32 (k.w 4)
def Work.rkey (k : Work) : Nat := fieldOf 32 32 (k.w 4)

/-- R418, Table 15.5: whether a work request of connection c keeps what its words must. -/
def Work.wellFormed (k : Work) (c : Nat) : Bool :=
  let last := k.w 2 + (k.len - 1)
  decide (1 ≤ k.op) && decide (k.op ≤ 5) && (!k.push || k.op == 2) && fieldOf 10 44 (k.w 0) == 0 && fieldOf 0 10 (k.w 0) == c &&
    fieldOf 44 20 (k.w 1) == 0 && decide (addrForm (k.w 2) < 2) && addrForm last == addrForm (k.w 2) &&
    decide (k.len ≤ 2 ^ 31) && fieldOf 32 32 (k.w 5) == 0 && k.w 7 == 0

/-- R419: a request that completes without its signal. -/
def Work.drop (k : Work) : Work := { k with words := [], done := true }

/-- R420: the micro-batch of a push, and whether it is its complete push. -/
def Work.batch (k : Work) : Nat := fieldOf 0 31 (k.w 5)
def Work.completes (k : Work) : Bool := k.push && (k.w 5).testBit 31

/-- R419, R420: what the completion of a request does: HEAD advances, FLOOR takes the ID of a complete push, and the signal
of word 6 is sent. -/
def State.workEnd (s : State) (x : Conn) (k : Work) : State :=
  let i := connIx x.l x.req.c
  let s := s.put fET_CONN_POST_HEAD 0 i ((s.fld fET_CONN_POST_HEAD 0 i + 1) % 2 ^ x.req.sendBits)
  let s := s.when k.completes (fun s => s.put fET_MB_FLOOR_FLOOR 0 x.l k.batch)
  s.when ((k.w 6).testBit 63) (fun s => s.sendSignal (semName (k.w 6)) (semAmount (k.w 6)) k.way (unitPort x.req.port) x.l 0)

/-- R419: requests complete in ring order: those at the front that have ended are taken off. -/
def State.finish (s : State) (x : Conn) : List Work → State
  | [] => s.putConn { x with works := [] }
  | k :: l => if k.done then State.finish (s.workEnd x k) x l else s.putConn { x with works := k :: l }

/-- READs of a connection that have not completed. -/
def readsOut (x : Conn) : Nat := (x.works.filter (fun k => !k.done && k.op == 3)).length

/-- R418, R420, Table 15.2: whether the next request may start now. -/
def mayStart (x : Conn) (k : Work) : Bool :=
  !(k.fence && readsOut x != 0) && !(k.op == 3 && decide (16 ≤ readsOut x)) && !(k.completes && !x.works.isEmpty)

/-- The header values of a request: its first sequence number, remote address, key and length, and its immediate. -/
def workHeader (k : Work) (psn got : Nat) : List Nat :=
  [psn, k.w 3 + got, k.rkey, k.len - got] ++ (if k.op = 2 ∨ k.op = 5 then [fieldOf 0 32 (k.w 5)] else [])

/-- The packets of a request from a byte of it on; a READ's request is one packet. None while memory holds the read. -/
def State.workSend (s : State) (x : Conn) (k : Work) : Option State :=
  let done := k.got / x.req.mtu
  let psn := (k.psn + done) % 2 ^ 24
  if k.op = 3 then some (s.sendMessage x.l x.req.c 3 (workHeader k psn k.got) [])
  else match s.readMem (.host x.l x.req.port) (k.w 2 + k.got) (k.len - k.got) with
    | (.held, _) => none
    | (.err _, t) =>
      let f := fun (y : Work) => if y.psn = k.psn ∧ y.done = false then y.drop else y
      let t := match t.conn x.l x.req.c with
        | some y => t.finish y (y.works.map f)
        | none => t
      some (t.connEvent x 0x8005 4 k.way k.tag [])
    | (.ok bs, t) => some (t.sendMessage x.l x.req.c k.op (workHeader k psn k.got) bs)

/-- R418: the request at the head of those waiting taken up, ended at once. -/
def State.workRefuse (s : State) (x : Conn) (k : Work) (e : Nat) : State :=
  let m := 2 ^ x.req.sendBits
  let y := { x with next := (x.next + 1) % m }
  (s.finish y (y.works ++ [k.drop])).connEvent x e 4 k.way k.tag []

/-- R418: the request started: its sequence numbers and its packets. -/
def State.workStart (s : State) (x : Conn) (k : Work) : Option State :=
  let m := 2 ^ x.req.sendBits
  let n := packetCount x.req.mtu k.len
  let fresh := x.works.all (fun y => y.done)
  let k := { k with psn := x.sendPsn, packets := n }
  let y := { x with next := (x.next + 1) % m, works := x.works ++ [k], sendPsn := (x.sendPsn + n) % 2 ^ 24,
                    sentAt := if fresh then s.now else x.sentAt }
  (s.putConn y).workSend y k

/-- R237, R242: the first frame of a request granted and held: its last byte does not come (log 4). -/
def State.frameStall (s : State) (x : Conn) (k : Work) : State :=
  let o := txOstler x.req.port x.req.sub
  let h : Holding := { rq := .host x.l x.req.port, op := x.req.c, way := k.way, addr := x.req.c, since := s.now }
  if (s.ostler o).holds ≠ [] then s
  else (s.frameGrant h.rq x.req.port x.req.sub x.l x.req.c).hold o h

/-- R418, R420: what becomes of the next request of a ring. -/
def State.workNext (s : State) (x : Conn) (stall : Bool) : State :=
  let a := x.req.sendRing + 64 * x.next
  let blank : Work := { words := [], psn := 0, packets := 0, got := 0, done := false }
  match s.readMem (.host x.l x.req.port) a 64 with
  | (.held, _) => s
  | (.err _, t) => t.workRefuse x blank 0x8005
  | (.ok bs, t) =>
    let k := { blank with words := wordsOf 8 bs }
    if !k.wellFormed x.req.c then t.workRefuse x k 0x8005
    else if k.push ∧ k.batch ≤ t.fld fET_MB_FLOOR_FLOOR 0 x.l then t.workRefuse x k 0x8006
    else if !mayStart x k then s
    else if stall then t.frameStall x k
    else (t.workStart x k).getD s

/-- Whether a connection may send: nothing freezes its sub-port's transmitter and no other connection's frame holds it. -/
def State.mayTransmit (s : State) (x : Conn) : Bool :=
  !s.frozen 4 0 (4 * x.req.port + x.req.sub) (some x.l) &&
    (s.ostler (txOstler x.req.port x.req.sub)).holds.all (fun h => h.rq == .host x.l x.req.port && h.op == x.req.c)

def execWorkRequestStart (l c : Nat) (stall : Bool) (s : State) : Outcome :=
  match s.conn l c with
  | none => .next s
  | some x =>
    let sub := (x.req.port, x.req.sub)
    s.guard (s.connState x == 1 && x.next != s.fld fET_CONN_POST_TAIL 0 (connIx l c) && !s.ck.paused.contains sub &&
      s.mayTransmit x) (fun s => s.workNext x stall)

/-! ### Responses and acknowledgements -/

/-- The distance from one sequence number to a later one. -/
def psnDist (a b : Nat) : Nat := (b + 2 ^ 24 - a % 2 ^ 24) % 2 ^ 24

/-- A request after its peer has acknowledged n packets from sequence number `base` on; a READ ends with its response. -/
def workAck (mtu base n : Nat) (k : Work) : Work :=
  let here := n - psnDist base k.psn
  if k.done ∨ k.op = 3 then k
  else if k.packets ≤ here then { k with done := true }
  else { k with got := max k.got (here * mtu) }

/-- Where a connection's outstanding packets begin. -/
def sendBase (x : Conn) : Nat := ((x.works.find? (fun k => !k.done)).map Work.psn).getD x.sendPsn

/-- R419: the first n outstanding packets have been acknowledged. -/
def State.ackPackets (s : State) (x : Conn) (n : Nat) : State :=
  if n = 0 then s
  else
    let y := { x with retries := 0, rnrs := 0, sentAt := s.now }
    s.finish y (x.works.map (workAck x.req.mtu (sendBase x) n))

/-- The drain on a connection. -/
def State.drainOf (s : State) (x : Conn) : Option Drain := s.ck.drains.find? (fun d => d.l == x.l && d.c == x.req.c)

/-- Go-back-N: everything outstanding is sent again, in order; none while memory holds a read. -/
def State.resendGo (l c : Nat) : List Work → State → Option State
  | [], s => some s
  | k :: r, s => match s.conn l c with
    | none => some s
    | some x =>
      if s.connState x ≠ 1 ∨ k.done then State.resendGo l c r s
      else match s.workSend x k with
        | none => none
        | some t => State.resendGo l c r t

def State.resend (s : State) (x : Conn) : Option State :=
  match s.drainOf x with
  | some d =>
    let n := packetCount x.req.mtu (drainPiece d).2.1.length
    some (s.drainWire d ((d.psn + 2 ^ 24 + 1 - n) % 2 ^ 24))
  | none => State.resendGo x.l x.req.c x.works s

/-- R411: a retry: ERROR once the count is exhausted. -/
def State.retry (s : State) (x : Conn) (rnr : Bool) : Option State :=
  if rnr then
    (if x.req.rnrMax ≤ x.rnrs then some (s.connError x.l x.req.c 1)
    else (s.putConn { x with rnrs := x.rnrs + 1, sentAt := s.now }).resend x)
  else if x.req.retryMax ≤ x.retries then some (s.connError x.l x.req.c 0)
  else (s.putConn { x with retries := x.retries + 1, sentAt := s.now }).resend x

/-- R419, R420, R425: an acknowledgement: requests complete in ring order; a drain goes on once its piece is at the store. -/
def State.ackRecv (s : State) (x : Conn) (psn : Nat) : State :=
  match s.drainOf x with
  | some d => if psn = d.psn then (s.drainNext d).getD s else s
  | none =>
    let d := psnDist (sendBase x) psn
    if d < psnDist (sendBase x) x.sendPsn then s.ackPackets x (d + 1) else s

/-- A NAK: what stands before it has arrived; a remote access error ends the connection (R411). -/
def State.nakRecv (s : State) (x : Conn) (psn syndrome : Nat) : State :=
  let d := psnDist (sendBase x) psn
  if syndrome = nakAccess then s.connError x.l x.req.c 2
  else if syndrome / 32 ≠ 1 ∧ syndrome ≠ nakSeq then s
  else if (s.drainOf x).isNone ∧ psnDist (sendBase x) x.sendPsn ≤ d then s
  else
    let t := if (s.drainOf x).isNone then s.ackPackets x d else s
    match t.conn x.l x.req.c with
    | none => s
    | some y => (t.retry y (syndrome / 32 == 1)).getD s

def execAcknowledgement (p : Pkt) (syndrome : Nat) (s : State) : Outcome :=
  .next (s.recv p (fun x s => if syndrome < 32 then s.ackRecv x p.psn else s.nakRecv x p.psn syndrome))

/-- R419: a packet of the response to the oldest READ that waits for one. -/
def State.readResponse (s : State) (x : Conn) (p : Pkt) : State :=
  match x.works.find? (fun k => !k.done && k.op == 3) with
  | none => s
  | some k =>
    let n := p.payload.length
    if p.psn ≠ (k.psn + k.got / x.req.mtu) % 2 ^ 24 ∨ n ≠ min x.req.mtu (k.len - k.got) then s
    else match s.writeAll (.host x.l x.req.port) (k.w 2 + k.got) p.payload with
      | (.held, _) => s
      | (.err _, t) =>
        let f := fun (y : Work) => if y.psn = k.psn ∧ y.done = false then y.drop else y
        (t.finish x (x.works.map f)).connEvent x 0x8005 4 k.way k.tag []
      | (.ok _, t) =>
        let got := k.got + n
        let f := fun (y : Work) =>
          if y.psn = k.psn ∧ y.done = false then { y with got := got, done := decide (y.len ≤ got) } else y
        let base := sendBase x
        let before := psnDist base k.psn
        let y := { x with retries := 0, rnrs := 0, sentAt := s.now }
        t.finish y ((x.works.map (workAck x.req.mtu base before)).map f)

def execRdmaReadResponse (p : Pkt) (s : State) : Outcome := .next (s.recv p (fun x s => s.readResponse x p))

/-- R411: no acknowledgement within the timeout of what is outstanding. -/
def execAckTimeout (l c : Nat) (s : State) : Outcome :=
  match s.conn l c with
  | none => .next s
  | some x =>
    let out := x.works.any (fun k => !k.done) || (s.drainOf x).isSome
    s.guard (s.connLive x && out && s.txOpen x.req.port x.req.sub (some x.l) && decide (x.sentAt + 250 * x.req.timeout ≤ s.now)) (fun s => (s.retry x false).getD s)

end Sys2Proof.Machine
end

