-- ==== Sys2Proof/Machine/Manage.lean ====
section
/-! DEFINITION. Sessions and the acts of the owner and the lodging hosts that change no grant (16_management_subsystem.md
R421, R432, R435-R439, R444, R445): attachment, the ledger and its pushes, telemetry and settings, dressing leases, the
commit of an update, and the controller itself. -/

namespace Sys2Proof.Machine

/-! ### Sessions -/

/-- R421, Table 15.6: the versions on offer of the four interfaces; a lodging keeps those its host chose first. -/
def State.offered (s : State) (role l : Nat) : List (List Nat) :=
  let b := mget (fun _ => []) s.mg.bound l
  if role = 1 ∧ b ≠ [] then b.map (fun v => [v])
  else
    let levels := (List.range 8).filter (fun k => (s.fld fGL_CONTRACT_LEVEL_SUPPORTED).testBit k)
    [[1], [imgNat s.boot.image 6 2], levels.map (fun k => k + 1), [1]]

/-- The highest version common to both sides. -/
def highestCommon (mine theirs : List Nat) : Option Nat :=
  (mine.filter (fun v => theirs.contains v)).foldl (fun a v => some (max v (a.getD 0))) none

/-- R421: the versions chosen; none where an interface has no common version. -/
def State.chooseVersions (s : State) (role l : Nat) (theirs : List (List Nat)) : Option (List Nat) :=
  if theirs.length = 4 then ((s.offered role l).zip theirs).mapM (fun p => highestCommon p.1 p.2) else none

/-- The hash of a host's public key. -/
def keyHash (key : Nat) : Nat := Config.sha256 (leBytes 384 key)

/-- R435: what an attachment fails of: 1 the owner's key, 2 the port, 3 the lodging is closed, 4 the host's key; 0 nothing.
The numbers are names of this model, as the spec gives none. -/
def State.attachFails (s : State) (mgmt : Bool) (role l key : Nat) : Nat :=
  if role = 0 then
    (match s.otp.owners.getLast? with
      | some k => if keyHash key = k then 0 else 1
      | none => if mgmt then 0 else 2)
  else if !s.lodgingOpen? l then 3
  else if keyHash key = nget s.mg.hostKeys l then 0
  else 4

/-- R435: an attachment refused. -/
def State.attachRefused (s : State) (role l event : Nat) (unit : Nat) (detail : List (BitVec 8)) : State :=
  let s := s.stick fMG_STICKY3_ATTACH_REFUSED
  let ev : Ev := { event := event, unit := unit, outcome := 4, lodging := if role = 0 then none else some l, detail := detail }
  (s.record ev).emit .refusalReply 0 0x10 [resultOf 1 event 0]

/-- R435: a session opened; one that held the role ends. -/
def State.attach (s : State) (role l key : Nat) (vs : List Nat) : State :=
  let old := s.mg.sessions.filter (fun x => x.role == role && (role == 0 || x.lodging == l))
  let s := s.forEach (old.map (fun x => x.number)) (fun n s => s.endSession n 0)
  let (k, s) := s.draw
  let channel := Config.drbg k % 2 ^ 256
  let n := s.mg.nextSession
  let x : Session := { number := n, role := role, lodging := if role = 0 then 0 else l, seq := 0, key := channel,
                       hostKey := keyHash key, versions := vs, lastValid := s.now, reply := [] }
  let mg := { s.mg with sessions := s.mg.sessions ++ [x], nextSession := n + 1,
                        bound := if role = 0 then s.mg.bound else mput (fun _ => []) s.mg.bound l vs }
  let body := [n] ++ vs ++ [Config.oaep key channel]
  { s with mg := mg }.emit .reply n 0x11 ([0x11, 0] ++ body ++ [Config.sign (body.flatMap (fun v => leBytes 8 v))])

/-- R435: what an ATTACH that has been taken comes to. -/
def State.attachAct (s : State) (mgmt : Bool) (role l key : Nat) (theirs : List (List Nat)) : State :=
  let s := s.when (role == 0 && s.otp.owners.isEmpty) (fun s => s.stick fMG_STICKY3_OWNER_UNBOUND)
  match s.attachFails mgmt role l key with
  | 0 => match s.chooseVersions role l theirs with
    | some vs => s.attach role l key vs
    | none => s.attachRefused role l 0x8007 (unitPort 0) []
  | why => s.attachRefused role l 0x6204 unitInn [Config.code 0x6204 why]

/-- ATTACH, on the management port or on port 0; before the device is ready only the owner's is taken (R438). -/
def execAttach (h : MsgHdr) (mgmt : Bool) (role l key : Nat) (versions : List (List Nat)) (s : State) : Outcome :=
  s.guard (s.mg.ctrl == 0 && h.wellFormed && decide (role < 2) && (s.ready || role == 0)) (fun s =>
    if h.queueFull then s.stick fMG_STICKY0_MSG_DROPPED else s.attachAct mgmt role l key versions)

def execDetach (h : MsgHdr) (s : State) : Outcome :=
  .next (s.message h 0x12 .either none (fun x s => (s.done x.number 0x12 []).endSession x.number 1))

/-- R435: 60 s without a valid message. -/
def execSessionTimeout (n : Nat) (s : State) : Outcome :=
  match s.session n with
  | none => .next s
  | some x => s.guard (s.mg.ctrl == 0 && decide (x.lastValid + 15000000000 ≤ s.now)) (fun s => s.endSession n 2)

/-- Table 16.4: the owner's key hash burnt into a new record; refused when all eight are used. -/
def execOwnerBind (h : MsgHdr) (s : State) : Outcome :=
  .next (s.message h 0x13 .owner none (fun x s =>
    if 8 ≤ s.otp.owners.length then s.refused x.number 0x13 0 0
    else
      let s := { s with otp := { s.otp with owners := s.otp.owners ++ [x.hostKey] } }
      (s.event 0x620A unitInn).done x.number 0x13 []))

/-! ### The ledger -/

/-- R439: how many records there are from a WRITTEN count on; the ledger holds 1,024. -/
def State.recordsFrom (s : State) (w : Nat) : Nat := min 1024 (s.fld fMG_LEDGER_STATUS_WRITTEN - w)

/-- The ledger index of the record that p records, itself among them, follow from. -/
def State.recIndex (s : State) (p : Nat) : Nat :=
  (s.fld fMG_LEDGER_READ_READ + s.fld fMG_LEDGER_STATUS_UNREAD + 1024 - p) % 1024

/-- R439: the records that a session may read from a count on, each with the number that follow from it. -/
def State.readable (s : State) (x : Session) (w : Nat) : List (Nat × LedgerRec) :=
  let p := s.recordsFrom w
  ((List.range p).filterMap (fun k => (s.recAt (s.recIndex (p - k))).map (fun r => (p - k, r)))).filter (fun r =>
    x.role == 0 || r.2.lodging == x.lodging)

/-- R309, R439: the owner frees the records it has been given, the last of which q follow from. -/
def State.freeRead (s : State) (q : Nat) : State :=
  if q - 1 ≤ s.fld fMG_LEDGER_STATUS_UNREAD then s.ledgerAdvance (s.recIndex (q - 1)) else s

def State.ledgerRead (s : State) (x : Session) (w : Nat) (free : Bool) : State :=
  let rs := (s.readable x w).take 21
  let body := [s.fld fMG_LEDGER_STATUS_WRITTEN, s.fld fMG_LEDGER_STATUS_UNREAD, s.fld fMG_LEDGER_STATUS_OVERFLOWS] ++
    rs.flatMap (fun r => (recBytes r.2).map BitVec.toNat)
  let s := match rs.getLast? with
    | some r => if free ∧ x.role = 0 then s.freeRead r.1 else s
    | none => s
  s.done x.number 0x41 body

def execLedgerRead (h : MsgHdr) (w : Nat) (free : Bool) (s : State) : Outcome :=
  .next (s.message h 0x40 .either none (fun x s => s.ledgerRead x w free))

/-- R439: a push unacknowledged for 100 ms is sent again, three times at most. -/
def State.pushAgain (s : State) (p : Push) : State :=
  let rest := s.mg.pushes.erase p
  if p.resends < 3 then
    let q := { p with resends := p.resends + 1, last := s.now }
    { s with mg := { s.mg with pushes := rest ++ [q] } }.emit .push p.dst p.written []
  else
    let ev : Ev := { event := 0x6206, unit := unitInn, outcome := 4, lodging := if p.dst = 0 then none else some (p.dst - 1) }
    ({ s with mg := { s.mg with pushes := rest } }.stick fMG_STICKY0_PUSH_FAILED).record ev

def execEventPushRetry (dst written : Nat) (s : State) : Outcome :=
  match s.mg.pushes.find? (fun p => p.dst == dst && p.written == written) with
  | none => .next s
  | some p => s.guard (s.mg.ctrl == 0 && decide (p.last + 25000000 ≤ s.now)) (fun s => s.pushAgain p)

/-- R439: a host's reply to a push. -/
def State.pushAcked (s : State) (x : Session) (written : Nat) : State :=
  let dst := if x.role = 0 then 0 else 1 + x.lodging
  let mg := { s.mg with pushes := s.mg.pushes.filter (fun p => !(p.dst == dst && p.written == written)) }
  { s with mg := mg }.putSession { x with lastValid := s.now }

/-- It answers the device's message, so no SEQUENCE of the host's is looked at. -/
def execEventPushAck (h : MsgHdr) (written : Nat) (s : State) : Outcome :=
  s.guard (s.mg.ctrl == 0 && h.wellFormed && s.ready) (fun s =>
    if h.queueFull then s.stick fMG_STICKY0_MSG_DROPPED
    else match s.session h.session with
      | none => s.authDrop
      | some x => if h.macOk then s.pushAcked x written else s.authDrop)

/-! ### Lists, burns, settings and telemetry -/

def execDefectRead (h : MsgHdr) (s : State) : Outcome :=
  .next (s.message h 0x48 .owner none (fun x s => s.done x.number 0x48 s.integ.defects))

/-- R372: a burn at the host's request; `fails` generations fail their read-back. With none left it is refused, and one that a
whole-device reset meets is not answered. -/
def State.otpBurn (s : State) (n fails : Nat) (cut : Bool) : State :=
  let t := s.burn fails cut
  if cut then t
  else if s.fld fMG_DEFECT_STATUS_GENS_USED = t.fld fMG_DEFECT_STATUS_GENS_USED then t.refused n 0x49 0x600C 0
  else t.done n 0x49 [t.fld fMG_DEFECT_STATUS_GENS_USED]

def execOtpBurn (h : MsgHdr) (fails : Nat) (cut : Bool) (s : State) : Outcome :=
  .next (s.message h 0x49 .owner none (fun x s => s.otpBurn x.number fails cut))

/-- Table 16.4: the rows that POWER_SET and SITE_SET may write. -/
def powerRows : List Nat :=
  [rPW_CAP_SUSTAINED, rPW_CAP_PEAK, rPW_SHED_CAP, rPW_SLOPE, rPW_PRIORITY, rPW_CAP_SCHED0, rPW_CAP_SCHED1]
def siteRows : List Nat := [rTM_DISC_CFG, rTM_TICK_NEXT, rTM_SITE_NOW, rTM_STEP_FWD, rTM_SWITCH_COUNT]

/-- Whether a list of registers (row and index) and values writes only rows it may. -/
def settingsOk (rows : List Nat) (ws : List (Nat × Nat × Word)) : Bool :=
  ws.all (fun w => rows.contains w.1 && decide (w.2.1 < if w.1 = rPW_CAP_SCHED0 ∨ w.1 = rPW_CAP_SCHED1 then 16 else 1))

def State.powerSet (s : State) (n : Nat) (ws : List (Nat × Nat × Word)) : State :=
  (s.forEach ws (fun w s => s.pwWrite w.1 w.2.1 w.2.2)).done n 0x50 []

def execPowerSet (h : MsgHdr) (ws : List (Nat × Nat × Word)) (s : State) : Outcome :=
  .next (s.message h 0x50 .owner none (fun x s =>
    if settingsOk powerRows ws then s.powerSet x.number ws else s.malformed x.number 0x50))

def State.siteSet (s : State) (n : Nat) (ws : List (Nat × Nat × Word)) : State :=
  (s.forEach ws (fun w s => s.tmWrite w.1 w.2.1 w.2.2)).done n 0x53 []

def execSiteSet (h : MsgHdr) (ws : List (Nat × Nat × Word)) (s : State) : Outcome :=
  .next (s.message h 0x53 .owner none (fun x s =>
    if settingsOk siteRows ws then s.siteSet x.number ws else s.malformed x.number 0x53))

/-- Table 16.4: PW_STATUS, PW_DOMAIN_CURRENT, MG_SENSOR and TM_DISC_STATUS. -/
def State.telemetry (s : State) : List Nat :=
  let v := fun (r i : Nat) => (s.regRead r 0 i).toNat
  [v rPW_STATUS 0] ++ (List.range (((regRow rPW_DOMAIN_CURRENT).dims.map Prod.snd).foldl (· * ·) 1)).map (v rPW_DOMAIN_CURRENT) ++
    (List.range 120).map (v rMG_SENSOR) ++ [v rTM_DISC_STATUS 0]

def execTelemetryRead (h : MsgHdr) (s : State) : Outcome :=
  .next (s.message h 0x51 .either none (fun x s => s.done x.number 0x52 s.telemetry))

/-! ### Dressing leases -/

/-- R445: whether a lease is refused: a named core's row has a spare that qualifies, or the start lies too far ahead. -/
def State.leaseRefused (s : State) (c mask start : Nat) : Bool :=
  decide (s.now + 15000000000 < start) ||
    (List.range 24).any (fun l => mask.testBit l && s.slotOf c l != 31 && s.spareFits (28 * c + s.slotOf c l))

/-- R445: a lease granted; its runs begin once its time has come. -/
def State.leaseGrant (s : State) (n c mask start length : Nat) : State :=
  let x : Lease := { c := c, mask := mask, start := start, stop := start + length, session := n, results := [] }
  { s with mg := { s.mg with leases := s.mg.leases ++ [x] } }.leaseRuns

def execDressLease (h : MsgHdr) (c mask start length : Nat) (s : State) : Outcome :=
  .next (s.message h 0x58 .either (some ((s.ownerOf c).getD 0xFF)) (fun x s =>
    if 48 ≤ c ∨ 2 ^ 24 ≤ mask ∨ 2500000000 < length then s.malformed x.number 0x58
    else if s.leaseRefused c mask start then s.refused x.number 0x58 0 0
    else s.leaseGrant x.number c mask start length))

/-- R445: whether a lease is over: every named core that is there dressed, or its end count reached with no run under way. -/
def State.leaseOver (s : State) (x : Lease) : Bool :=
  let all := (List.range 24).all (fun l =>
    !x.mask.testBit l || s.slotOf x.c l == 31 || x.results.any (fun r => r.1 == l))
  let busy := s.integ.dressings.any (fun d => d.u / 28 == x.c && (match d.leased with
    | some l => x.mask.testBit l
    | none => false))
  !busy && (all || decide (x.stop ≤ s.now))

/-- R445: the results, in the order of the named cores: 0 untested, 1 passed, 2 failed. -/
def leaseResults (x : Lease) : List Nat :=
  ((List.range 24).filter (fun l => x.mask.testBit l)).map (fun l => (((x.results.find? (fun r => r.1 == l)).map Prod.snd).getD 0))

def State.leaseEnd (s : State) (x : Lease) : State :=
  let rs := leaseResults x
  let s := { s with mg := { s.mg with leases := s.mg.leases.erase x } }
  let ev : Ev := { event := 0x620B, unit := unitInn, outcome := 0, lodging := s.ownerOf x.c,
                   detail := rs.map (fun r => BitVec.ofNat 8 r) }
  (s.record ev).done x.session 0x58 rs

def execDressLeaseEnd (c : Nat) (s : State) : Outcome :=
  match s.mg.leases.find? (fun x => x.c == c && s.leaseOver x) with
  | none => .next s
  | some x => .next (s.leaseEnd x)

/-- R445: due times and spares of the sender's clusters, and MG_DRESS_STATUS. -/
def State.dressBody (s : State) (x : Session) : List Nat :=
  let cs := if x.role = 0 then List.range 48 else s.clustersOf x.lodging
  cs.flatMap (fun c => (List.range 28).flatMap (fun k =>
    let u := 28 * c + k
    [u, nget s.integ.dueAt u, (s.spareFits u).toNat])) ++ [(s.reg rMG_DRESS_STATUS 0 0).toNat]

def execDressStatus (h : MsgHdr) (s : State) : Outcome :=
  .next (s.message h 0x59 .either none (fun x s => s.done x.number 0x59 (s.dressBody x)))

/-! ### The commit of an update -/

/-- R444: what refuses a commit. -/
def State.commitRefused (s : State) (force : Bool) : Bool :=
  match s.mg.staged with
  | none => true
  | some g => (s.anyOpen && !force) || decide (4096 < ((g.host.map (fun h => h.entries.length)).getD 0))

def execUpdateCommit (h : MsgHdr) (count : Nat) (force : Bool) (s : State) : Outcome :=
  .next (s.message h 0x6C .owner none (fun x s =>
    if s.commitRefused force then
      let ev : Ev := { event := 0x6209, unit := unitInn, outcome := 4 }
      (s.record ev).refused x.number 0x6C 0x6209 0
    else { s with mg := { s.mg with commitAt := some count } }.done x.number 0x6C []))

/-- R444: the commit: the image copied, the commit mark and the hash recorded, and the whole-device reset. `intact` is
whether HBM gave back what was staged; the bytes of a copy that differs are free (log 9). -/
def State.commitNow (s : State) (g : Staged) (intact : Bool) : State :=
  let s := s.event 0x6208 unitInn
  let (k, s) := s.draw
  let image := if intact then g.bytes else (List.range g.bytes.length).map (Config.freeByte k)
  let b := { s.boot with image := image, host := g.host, commit := some (g.measure, imgMeasure image) }
  { s with boot := b }.deviceReset 5

def execUpdateCommitExecute (intact : Bool) (s : State) : Outcome :=
  match s.mg.commitAt, s.mg.staged with
  | some t, some g => s.guard (s.mg.ctrl == 0 && decide (t ≤ s.now)) (fun s => s.commitNow g intact)
  | _, _ => .next s

/-! ### The controller -/

/-- R432, R441: the controller stopped. -/
def State.stopController (s : State) : State :=
  let ev : Ev := { event := 0x6202, unit := unitInn, outcome := 6 }
  (({ s with mg := { s.mg with ctrl := 2 } }.stick fMG_STICKY0_CTRL_STOPPED).driveFault).record ev

/-- R432: a lockstep mismatch restarts the controller; a second one within 1 s stops it. -/
def State.mismatch (s : State) : State :=
  let again := (s.mg.lastMismatch.map (fun t => decide (s.now < t + 250000000))).getD false
  let s := { s with mg := { s.mg with lastMismatch := some s.now } }
  if again then s.stopController
  else
    let ev : Ev := { event := 0x6201, unit := unitInn, outcome := 2 }
    ({ s with mg := { s.mg with ctrl := 1 } }.stick fMG_STICKY0_CTRL_RESTART).record ev

def execControllerMismatch (s : State) : Outcome := s.guard (s.mg.ctrl != 2) (fun s => s.mismatch)

/-- R432: the controller resumes from the image area, or stops where that fails its check. -/
def execControllerResume (imageOk : Bool) (s : State) : Outcome :=
  s.guard (s.mg.ctrl == 1) (fun s => if imageOk then { s with mg := { s.mg with ctrl := 0 } } else s.stopController)

end Sys2Proof.Machine
end

