-- ==== Sys2Proof/Machine/Pins.lean ====
section
/-! DEFINITION. Power, the reset and power-good inputs, SMBus and JTAG (17_package_and_electrical.md R455-R458, R465, R466;
12_power_delivery_and_capping.md R354; 16_management_subsystem.md R440), and what the passing of time does. -/

namespace Sys2Proof.Machine

/-! ### Power and reset -/

/-- R455: VSTBY is valid: site time begins at 0, the straps are sampled, and, with RESET_N high, the start is due. -/
def State.standbyUp (s : State) (straps : Nat) (resetN : Bool) : State :=
  let pins : PinSt := { vstby := true, pwrGood := false, resetN := resetN, bootSrc := straps % 4 }
  let s := { s with pins := pins, boot := { s.boot with due := resetN } }
  (s.put fTM_SITE_NOW_COUNT 0 0 0).put fMG_START_STATUS_BOOT_SRC 0 0 (straps % 4)

/-- `straps` is BOOT_SRC, `resetN` the level of RESET_N. -/
def execVstbyValid (straps : Nat) (resetN : Bool) (s : State) : Outcome :=
  s.guard (!s.pins.vstby) (fun s => s.standbyUp straps resetN)

/-- R457: VSTBY removed: all is lost but OTP. -/
def State.standbyLost (s : State) : State :=
  let pins : PinSt := { vstby := false, pwrGood := false, resetN := s.pins.resetN, bootSrc := s.pins.bootSrc }
  let b : BootSt := { due := false }
  { pending := s.pending, otp := s.otp, pins := pins, boot := b, out := s.out, fresh := s.fresh }

def execVstbyRemoval (s : State) : Outcome := s.guard s.pins.vstby (fun s => s.standbyLost)

/-- R456: PWR_GOOD high ends the wait of step 4, or of step 2 for port 0; its watchdog runs from here. -/
def State.railsGood (s : State) : State :=
  let t := { s with pins := { s.pins with pwrGood := true } }
  if s.boot.running ∧ s.railsAwaited then { t with boot := { t.boot with stepAt := s.now } } else t

def execPwrGoodRise (s : State) : Outcome := s.guard (s.pins.vstby && !s.pins.pwrGood) (fun s => s.railsGood)

/-- R383: whether a whole-device reset is under way: RESET_N is held, or the start it leads to has not begun. -/
def State.inReset (s : State) : Bool := !s.pins.resetN || s.boot.due

/-- R354, R352, R463: PWR_GOOD low: event 0x5210, THERMTRIP_N and SHED_N no longer asserted, and a whole-device reset. -/
def State.railsLost (s : State) : State :=
  let s := { s with pins := { s.pins with pwrGood := false, thermtripN := true, shedN := true } }.pwEvent 0x5210 6 0 0 []
  if s.inReset then s else s.deviceReset 1

def execPwrGoodFall (s : State) : Outcome := s.guard (s.pins.vstby && s.pins.pwrGood) (fun s => s.railsLost)

/-- R458: RESET_N asserted: a whole-device reset, held. -/
def State.resetHeld (s : State) : State :=
  let merged := s.inReset
  let s := { s with pins := { s.pins with resetN := false } }
  let s := if merged then s else s.deviceReset 0
  { s with boot := { s.boot with due := false } }

def execResetNAssert (s : State) : Outcome := s.guard (s.pins.vstby && s.pins.resetN) (fun s => s.resetHeld)

/-- R458, R460: RESET_N released, with the straps as they then stand: t0 of the start sequence. -/
def State.resetReleased (s : State) (straps : Nat) : State :=
  { s with pins := { s.pins with resetN := true, bootSrc := straps % 4 }, boot := { s.boot with due := true } }

def execResetNRelease (straps : Nat) (s : State) : Outcome :=
  s.guard (s.pins.vstby && !s.pins.resetN) (fun s => s.resetReleased straps)

/-! ### SMBus -/

/-- Whether the controller runs (R432, R458). -/
def State.ctrlUp (s : State) : Bool := s.mg.ctrl == 0 && s.pins.vstby && s.pins.resetN

/-- The highest of some temperatures, 1/16 degree in two's complement; 0 for none. -/
def hottestOf (l : List Nat) : Nat :=
  match l.map (signed 16) with
  | [] => 0
  | x :: r => ((r.foldl max x) % 65536).toNat

/-- Table 16.5: the values that need the main rails, while those are up. -/
def State.railValue (s : State) (v : Nat) : Nat := if s.pins.pwrGood then v else 0xFFFF

/-- Table 16.5, STATUS. -/
def State.smbusStatus (s : State) : Nat :=
  let st := s.fld fMG_START_STATUS_STATE
  let bits := [s.pins.pwrGood, st == 1, st == 2, !s.pins.faultN, !s.pins.thermtripN, !s.pins.shedN, s.mg.ctrl == 2,
    s.mg.ctrl == 1]
  bits.foldr (fun b a => b.toNat + 2 * a) 0

/-- Table 16.5: whether a command's value is a word. -/
def smbusWord (cmd : Nat) : Bool := [0x01, 0x02, 0x03, 0x04, 0x06, 0x07, 0x20].contains cmd

/-- Table 16.5: the values the controller refreshes, as they stand. -/
def State.smbusNow (s : State) (cmd : Nat) : Nat :=
  match cmd with
  | 0x01 => s.railValue (hottestOf (((List.range 120).filter (fun i => s.is fMG_SENSOR_VALID 0 i)).map (fun i => s.fld fMG_SENSOR_TEMP 0 i)))
  | 0x02 => s.railValue (hottestOf ((List.range 12).map (nget s.hbm.temp)))
  | 0x03 => s.railValue (s.pw.hp.foldl (· + ·) 0 / max 1 s.pw.hp.length / 1000 % 65536)
  | 0x04 => s.railValue (s.fld fPW_CAP_SUSTAINED_CAP)
  | 0x05 => s.fld fMG_START_STATUS_STEP
  | 0x06 => s.sticky2 % 65536
  | 0x07 => min 65535 (s.fld fMG_LEDGER_STATUS_UNREAD)
  | 0x20 => 0x1344
  | 0x21 => 0xB0
  | _ => if 0x10 ≤ cmd ∧ cmd < 0x20 then fieldOf (8 * (cmd - 0x10)) 8 Config.serial.toNat else 0xFF

/-- R440: the controller refreshes the values every 1 ms. -/
def State.smbusRefresh (s : State) : State :=
  let cmds := [0x01, 0x02, 0x03, 0x04, 0x05, 0x06, 0x07]
  let m := cmds.foldl (fun m c => nput m c (s.smbusNow c + 1)) []
  { s with pins := { s.pins with smbus := m } }

/-- What a command reads: STATUS is driven by hardware, the rest as last refreshed, or as it stands before that. -/
def State.smbusValue (s : State) (cmd : Nat) : Nat :=
  if cmd = 0 then s.smbusStatus
  else
    let v := nget s.pins.smbus cmd
    if v = 0 then s.smbusNow cmd else v - 1

/-- SMBus: CRC-8 of the bytes of a transaction, the packet error code. -/
def crc8 (bs : List Nat) : Nat :=
  let bit := fun (x : Nat) => if 128 ≤ x then Nat.xor (2 * x % 256) 7 else 2 * x
  bs.foldl (fun c b => (List.range 8).foldl (fun x _ => bit x) (Nat.xor c b)) 0

/-- The bytes a read answers with, and the PEC. -/
def State.smbusAnswer (s : State) (cmd : Nat) (bs : List Nat) : State :=
  s.emit .smbus 0x5C cmd (bs ++ [crc8 ([0xB8, cmd, 0xB9] ++ bs)])

/-- A transaction: whole, or hung with SCL held low, in which case nothing more is answered until the timeout (R465). -/
def State.smbusDo (s : State) (hung : Bool) (f : State → State) : Outcome :=
  s.guard (s.pins.vstby && !s.pins.smbusBusy) (fun s =>
    if hung then { s with pins := { s.pins with smbusBusy := true } } else f s)

def execSmbusReadByte (cmd : Nat) (hung : Bool) (s : State) : Outcome :=
  s.smbusDo hung (fun s => s.smbusAnswer cmd [s.smbusValue cmd % 256])

def execSmbusReadWord (cmd : Nat) (hung : Bool) (s : State) : Outcome :=
  s.smbusDo hung (fun s =>
    let v := s.smbusValue cmd
    s.smbusAnswer cmd [v % 256, if smbusWord cmd then v / 256 else 0xFF])

/-- R440: the command byte of a write is acknowledged (1), its data byte is not (0). -/
def execSmbusWrite (cmd : Nat) (hung : Bool) (s : State) : Outcome :=
  s.smbusDo hung (fun s => s.emit .smbus 0x5C cmd [1, 0])

def execSmbusTimeout (s : State) : Outcome :=
  s.guard s.pins.smbusBusy (fun s => { s with pins := { s.pins with smbusBusy := false } })

/-! ### JTAG -/

/-- R466: the pins the boundary cells capture, bit k for cell k from TDI. -/
def State.pinWord (s : State) : Nat :=
  let p := s.pins
  let bits := [p.pwrGood, p.resetN, p.shedN, p.bootSrc.testBit 0, p.bootSrc.testBit 1, p.rampNotice.testBit 0,
    p.rampNotice.testBit 1, p.rampNotice.testBit 2, p.rampNotice.testBit 3, p.siteTickOut, p.thermtripN, p.faultN]
  bits.foldr (fun b a => b.toNat + 2 * a) 0

/-- R466, Table 17.9: an instruction loaded into the TAP; one that drives pins selects BYPASS while PWR_GOOD is high. -/
def State.loadIr (s : State) (code : Nat) (guarded : Bool) : State :=
  { s with pins := { s.pins with jtagIr := if guarded && s.pins.pwrGood then 0xFF else code } }

/-- A scan of the boundary cells: what they captured leaves, and `cells` become their update stage. -/
def State.scanCells (s : State) (cells : Nat) : State :=
  { s with pins := { s.pins with boundary := cells % 4096 } }.emit .jtag 0 s.pins.jtagIr [s.pinWord]

def execExtest (cells : Nat) (s : State) : Outcome :=
  s.guard s.pins.vstby (fun s =>
    let s := s.loadIr 0x00 true
    if s.pins.jtagIr = 0 then s.scanCells cells else s)

def execSamplePreload (cells : Nat) (s : State) : Outcome :=
  s.guard s.pins.vstby (fun s => (s.loadIr 0x01 false).scanCells cells)

def execIdcode (s : State) : Outcome :=
  s.guard s.pins.vstby (fun s => (s.loadIr 0x02 false).emit .jtag 0 0x02 [0xB1344C5B])

def execClamp (s : State) : Outcome := s.guard s.pins.vstby (fun s => s.loadIr 0x03 true)

def execHighz (s : State) : Outcome := s.guard s.pins.vstby (fun s => s.loadIr 0x04 true)

/-- Every code that Table 17.9 does not list selects BYPASS too. -/
def execBypass (s : State) : Outcome := s.guard s.pins.vstby (fun s => s.loadIr 0xFF false)

/-- R466: TRST_N low resets the TAP: after IEEE 1149.1, which it follows, IDCODE is then selected. -/
def execJtagTapReset (s : State) : Outcome := s.guard s.pins.vstby (fun s => s.loadIr 0x02 false)

/-- What EXTEST or CLAMP drives on SITE_TICK_OUT, THERMTRIP_N and FAULT_N and the RAMP_NOTICE pins, while PWR_GOOD is low;
none otherwise. -/
def State.driven (s : State) : Option Nat :=
  if !s.pins.pwrGood && (s.pins.jtagIr == 0 || s.pins.jtagIr == 3) then some (s.pins.boundary / 32) else none

/-- An Update-DR of IMAGE_LOAD: the status that its Capture-DR loaded leaves, and the command acts. -/
def State.imageLoad (s : State) (f : State → State) : Outcome :=
  s.guard (s.pins.vstby && s.mg.ctrl == 0) (fun s => f ((s.loadIr 0x10 false).emit .jtag 0 0x10 [s.pins.loadStatus]))

def State.setLoad (s : State) (v : Nat) : State := { s with pins := { s.pins with loadStatus := v } }

/-- R466: an offer of an image over JTAG, when that is the source. -/
def execImageLoadOffer (size : Nat) (s : State) : Outcome :=
  s.imageLoad (fun s =>
    if s.wantsImage ∧ s.sources.contains 3 then (s.bootOffer 3 0 size false).setLoad (if 393216 < size then 2 else 1) else s)

/-- R466: the next 4 bytes of the image. -/
def State.loadBytes (s : State) (w : Nat) (t : Transfer) : State :=
  let t := { t with bytes := t.bytes ++ (leBytes 4 w).take (t.size - t.bytes.length), heard := s.now }
  { s with boot := { s.boot with transfer := some t } }.setLoad 1

/-- `busy`: the command arrived while the status was busy, and is ignored. -/
def execImageLoadData (w : Nat) (busy : Bool) (s : State) : Outcome :=
  s.imageLoad (fun s => if busy then s else s.inTransfer (s.bootTransfer 3) (fun t s => s.loadBytes w t))

/-- R466: the end of the image: it is verified (R360). -/
def execImageLoadEnd (s : State) : Outcome :=
  s.imageLoad (fun s => s.inTransfer (s.bootTransfer 3) (fun t s =>
    let t' := s.bootEnd 3 t
    t'.setLoad (if t'.boot.image.isEmpty then 2 else 3)))

/-! ### Time -/

/-- R314: one count of site time passes while nothing is commanded; every 1 ms the controller refreshes what SMBus
reads. -/
def State.tick (s : State) : State :=
  if s.pins.vstby then
    let s := s.wrap fTM_SITE_NOW_COUNT 0 0 1
    if s.now % 250000 = 0 ∧ s.ctrlUp then s.smbusRefresh else s
  else s

end Sys2Proof.Machine
end

