-- ==== Sys2Proof/Machine/Dispatch.lean ====
section
/-! DEFINITION. One arm for each command: the meaning it has. -/

namespace Sys2Proof.Machine

def exec (i : Instr) (s : State) : Host.Outcome State Fault Refusal :=
  match i with
  | .registerWrite rq a bytes w => Sys2Proof.Machine.execRegisterWrite rq a bytes w s
  | .shCommit b u => Sys2Proof.Machine.execShCommit b u s
  | .sramRead rq a n parity stall => Sys2Proof.Machine.execSramRead rq a n parity stall s
  | .sramWrite rq a bs parity stall => Sys2Proof.Machine.execSramWrite rq a bs parity stall s
  | .transposingWrite rq width dst pitch mx rows stall => Sys2Proof.Machine.execTransposingWrite rq width dst pitch mx rows stall s
  | .memPowerOff rq u q => Sys2Proof.Machine.execMemPowerOff rq u q s
  | .memPowerOn rq u q => Sys2Proof.Machine.execMemPowerOn rq u q s
  | .cmPowerOff rq c b => Sys2Proof.Machine.execCmPowerOff rq c b s
  | .cmPowerOn rq c b => Sys2Proof.Machine.execCmPowerOn rq c b s
  | .powerDownComplete k => Sys2Proof.Machine.execPowerDownComplete k s
  | .powerUpComplete k => Sys2Proof.Machine.execPowerUpComplete k s
  | .semWriteSet rq c k v => Sys2Proof.Machine.execSemWriteSet rq c k v s
  | .semWriteAdd rq c k v => Sys2Proof.Machine.execSemWriteAdd rq c k v s
  | .semWriteSubtract rq c k v => Sys2Proof.Machine.execSemWriteSubtract rq c k v s
  | .semaphoreSignal n => Sys2Proof.Machine.execSemaphoreSignal n s
  | .semaphoreWait n => Sys2Proof.Machine.execSemaphoreWait n s
  | .semGrantArrival n => Sys2Proof.Machine.execSemGrantArrival n s
  | .alu u x => Sys2Proof.Machine.execAlu u x s
  | .addi u x => Sys2Proof.Machine.execAddi u x s
  | .andi u x => Sys2Proof.Machine.execAndi u x s
  | .ori u x => Sys2Proof.Machine.execOri u x s
  | .xori u x => Sys2Proof.Machine.execXori u x s
  | .shi u x => Sys2Proof.Machine.execShi u x s
  | .lih u x => Sys2Proof.Machine.execLih u x s
  | .cmp u x => Sys2Proof.Machine.execCmp u x s
  | .plog u x => Sys2Proof.Machine.execPlog u x s
  | .ld u x => Sys2Proof.Machine.execLd u x s
  | .st u x => Sys2Proof.Machine.execSt u x s
  | .vld u x => Sys2Proof.Machine.execVld u x s
  | .vst u x => Sys2Proof.Machine.execVst u x s
  | .br u x => Sys2Proof.Machine.execBr u x s
  | .j u x => Sys2Proof.Machine.execJ u x s
  | .jr u x => Sys2Proof.Machine.execJr u x s
  | .sysNop u x => Sys2Proof.Machine.execSysNop u x s
  | .sysEnd u x => Sys2Proof.Machine.execSysEnd u x s
  | .programEnd u => Sys2Proof.Machine.execProgramEnd u s
  | .sysFence u x => Sys2Proof.Machine.execSysFence u x s
  | .semwait u x => Sys2Proof.Machine.execSemwait u x s
  | .semsig u x => Sys2Proof.Machine.execSemsig u x s
  | .sysIcinv u x => Sys2Proof.Machine.execSysIcinv u x s
  | .sysTrap u x => Sys2Proof.Machine.execSysTrap u x s
  | .rdtime u x => Sys2Proof.Machine.execRdtime u x s
  | .rdcore u x => Sys2Proof.Machine.execRdcore u x s
  | .qput u x => Sys2Proof.Machine.execQput u x s
  | .rdbase u x => Sys2Proof.Machine.execRdbase u x s
  | .ldd u x => Sys2Proof.Machine.execLdd u x s
  | .std u x => Sys2Proof.Machine.execStd u x s
  | .dset u x => Sys2Proof.Machine.execDset u x s
  | .valu u x => Sys2Proof.Machine.execValu u x s
  | .vcmp u x => Sys2Proof.Machine.execVcmp u x s
  | .vcvto u x => Sys2Proof.Machine.execVcvto u x s
  | .vcvti u x => Sys2Proof.Machine.execVcvti u x s
  | .vsplit u x => Sys2Proof.Machine.execVsplit u x s
  | .vred u x => Sys2Proof.Machine.execVred u x s
  | .vmov u x => Sys2Proof.Machine.execVmov u x s
  | .matmul u bcast w => Sys2Proof.Machine.execMatmul u bcast w s
  | .pmout u bcast w => Sys2Proof.Machine.execPmout u bcast w s
  | .pmclr u bcast w => Sys2Proof.Machine.execPmclr u bcast w s
  | .dmaGather u bcast w => Sys2Proof.Machine.execDmaGather u bcast w s
  | .dmaScatter u bcast w => Sys2Proof.Machine.execDmaScatter u bcast w s
  | .dmaTranspose u bcast w => Sys2Proof.Machine.execDmaTranspose u bcast w s
  | .dmaFill u bcast w => Sys2Proof.Machine.execDmaFill u bcast w s
  | .dmaDispatchGather u bcast w => Sys2Proof.Machine.execDmaDispatchGather u bcast w s
  | .dmaDispatchScatter u bcast w => Sys2Proof.Machine.execDmaDispatchScatter u bcast w s
  | .dmaReduceStore u bcast w => Sys2Proof.Machine.execDmaReduceStore u bcast w s
  | .reduce u bcast w => Sys2Proof.Machine.execReduce u bcast w s
  | .zmap u bcast w => Sys2Proof.Machine.execZmap u bcast w s
  | .icacheMiss u parity => Sys2Proof.Machine.execIcacheMiss u parity s
  | .responseArrival id error addr => Sys2Proof.Machine.execResponseArrival id error addr s
  | .stepCommit u op => Sys2Proof.Machine.execStepCommit u op s
  | .longInstructionComplete op => Sys2Proof.Machine.execLongInstructionComplete op s
  | .stepReplay u op event inst dev lost => Sys2Proof.Machine.execStepReplay u op event inst dev lost s
  | .takeoverCopyDone c l lost bad => Sys2Proof.Machine.execTakeoverCopyDone c l lost bad s
  | .meInject rq u code => Sys2Proof.Machine.execMeInject rq u code s
  | .meClrCounts rq u => Sys2Proof.Machine.execMeClrCounts rq u s
  | .coreHeartbeatProbe c silent => Sys2Proof.Machine.execCoreHeartbeatProbe c silent s
  | .stormHoldEnd c => Sys2Proof.Machine.execStormHoldEnd c s
  | .stormCeilingLift c => Sys2Proof.Machine.execStormCeilingLift c s
  | .sequencerMismatch c => Sys2Proof.Machine.execSequencerMismatch c s
  | .dressingSchedule => Sys2Proof.Machine.execDressingSchedule s
  | .dressingRunEnd u verdict => Sys2Proof.Machine.execDressingRunEnd u verdict s
  | .ledgerReadAdvance rq v => Sys2Proof.Machine.execLedgerReadAdvance rq v s
  | .ledgerMirrorSet rq v => Sys2Proof.Machine.execLedgerMirrorSet rq v s
  | .streamArm rq id w => Sys2Proof.Machine.execStreamArm rq id w s
  | .streamDisarm rq id w => Sys2Proof.Machine.execStreamDisarm rq id w s
  | .streamFree rq id w => Sys2Proof.Machine.execStreamFree rq id w s
  | .streamReleaseBoundary mismatch => Sys2Proof.Machine.execStreamReleaseBoundary mismatch s
  | .streamSlotAssign c ix => Sys2Proof.Machine.execStreamSlotAssign c ix s
  | .streamStop rq id => Sys2Proof.Machine.execStreamStop rq id s
  | .tensor c ix => Sys2Proof.Machine.execTensor c ix s
  | .tensorDelivery c => Sys2Proof.Machine.execTensorDelivery c s
  | .callCore c ix => Sys2Proof.Machine.execCallCore c ix s
  | .coreProgramStart c l => Sys2Proof.Machine.execCoreProgramStart c l s
  | .dma c ix => Sys2Proof.Machine.execDma c ix s
  | .semSignal c ix => Sys2Proof.Machine.execSemSignal c ix s
  | .semWait c ix => Sys2Proof.Machine.execSemWait c ix s
  | .flagSet c ix => Sys2Proof.Machine.execFlagSet c ix s
  | .flagWait c ix => Sys2Proof.Machine.execFlagWait c ix s
  | .barrier c ix => Sys2Proof.Machine.execBarrier c ix s
  | .barrierWaveRelease b => Sys2Proof.Machine.execBarrierWaveRelease b s
  | .waitTime c ix => Sys2Proof.Machine.execWaitTime c ix s
  | .waitTimeExpiry c ix => Sys2Proof.Machine.execWaitTimeExpiry c ix s
  | .reduceQ c ix => Sys2Proof.Machine.execReduceQ c ix s
  | .branch c ix => Sys2Proof.Machine.execBranch c ix s
  | .rampNotice c ix => Sys2Proof.Machine.execRampNotice c ix s
  | .rampNoticeExpiry => Sys2Proof.Machine.execRampNoticeExpiry s
  | .checkpointMark c ix => Sys2Proof.Machine.execCheckpointMark c ix s
  | .endCmd c ix => Sys2Proof.Machine.execEndCmd c ix s
  | .launchComplete n => Sys2Proof.Machine.execLaunchComplete n s
  | .streamWaitTimeout qput k => Sys2Proof.Machine.execStreamWaitTimeout qput k s
  | .flagWriteSet rq c k v => Sys2Proof.Machine.execFlagWriteSet rq c k v s
  | .flagWriteAdd rq c k v => Sys2Proof.Machine.execFlagWriteAdd rq c k v s
  | .flagWriteMax rq c k v => Sys2Proof.Machine.execFlagWriteMax rq c k v s
  | .routeSubmit rq c desc => Sys2Proof.Machine.execRouteSubmit rq c desc s
  | .routingJobStart c bad => Sys2Proof.Machine.execRoutingJobStart c bad s
  | .routingJobEnd c bad => Sys2Proof.Machine.execRoutingJobEnd c bad s
  | .linkCrcRetry ix flit groups again => Sys2Proof.Machine.execLinkCrcRetry ix flit groups again s
  | .linkIdleTimeout ix => Sys2Proof.Machine.execLinkIdleTimeout ix s
  | .linkRetrainDone ix ok => Sys2Proof.Machine.execLinkRetrainDone ix ok s
  | .linkRetrain rq ix => Sys2Proof.Machine.execLinkRetrain rq ix s
  | .linkRemove rq ix => Sys2Proof.Machine.execLinkRemove rq ix s
  | .routerHeartbeatCheck silent => Sys2Proof.Machine.execRouterHeartbeatCheck silent s
  | .topoSwitchArm rq => Sys2Proof.Machine.execTopoSwitchArm rq s
  | .topoSwitch => Sys2Proof.Machine.execTopoSwitch s
  | .sweepStart rq r => Sys2Proof.Machine.execSweepStart rq r s
  | .sweepExpiry reads => Sys2Proof.Machine.execSweepExpiry reads s
  | .routerDrainEnd field flitsLeft => Sys2Proof.Machine.execRouterDrainEnd field flitsLeft s
  | .ostlerHoldWatchdog kind unit index => Sys2Proof.Machine.execOstlerHoldWatchdog kind unit index s
  | .creditWatchdog r port => Sys2Proof.Machine.execCreditWatchdog r port s
  | .reduceAddMerge r n mismatch => Sys2Proof.Machine.execReduceAddMerge r n mismatch s
  | .reduceEntryForward id => Sys2Proof.Machine.execReduceEntryForward id s
  | .reduceAck id => Sys2Proof.Machine.execReduceAck id s
  | .hbmAccess rq op pa raw write parity ecc => Sys2Proof.Machine.execHbmAccess rq op pa raw write parity ecc s
  | .hbmEcsPoll counts => Sys2Proof.Machine.execHbmEcsPoll counts s
  | .hbmRateChange k => Sys2Proof.Machine.execHbmRateChange k s
  | .hbmRateChangeDone k => Sys2Proof.Machine.execHbmRateChangeDone k s
  | .translationWalk rq op va wr ex parity ecc lost => Sys2Proof.Machine.execTranslationWalk rq op va wr ex parity ecc lost s
  | .tlbInvalidate rq l first pages => Sys2Proof.Machine.execTlbInvalidate rq l first pages s
  | .tlbInvalidateDone => Sys2Proof.Machine.execTlbInvalidateDone s
  | .scrubSubmit rq first frames => Sys2Proof.Machine.execScrubSubmit rq first frames s
  | .scrubJobDone bad => Sys2Proof.Machine.execScrubJobDone bad s
  | .regionSyncCheck faults => Sys2Proof.Machine.execRegionSyncCheck faults s
  | .ptpSample kind port sub domain who time frac => Sys2Proof.Machine.execPtpSample kind port sub domain who time frac s
  | .siteTickEdge frac => Sys2Proof.Machine.execSiteTickEdge frac s
  | .disciplineHoldover => Sys2Proof.Machine.execDisciplineHoldover s
  | .stepForward rq amount => Sys2Proof.Machine.execStepForward rq amount s
  | .siteNowWrite rq v => Sys2Proof.Machine.execSiteNowWrite rq v s
  | .siteTickOutPulse => Sys2Proof.Machine.execSiteTickOutPulse s
  | .siteTickOutEnd => Sys2Proof.Machine.execSiteTickOutEnd s
  | .stepTableWrite rq ix w => Sys2Proof.Machine.execStepTableWrite rq ix w s
  | .switchCountWrite rq target count => Sys2Proof.Machine.execSwitchCountWrite rq target count s
  | .frequencySwitch late => Sys2Proof.Machine.execFrequencySwitch late s
  | .regionLateSwitch r => Sys2Proof.Machine.execRegionLateSwitch r s
  | .frequencySwitchComplete => Sys2Proof.Machine.execFrequencySwitchComplete s
  | .regionCeilingSwitch r => Sys2Proof.Machine.execRegionCeilingSwitch r s
  | .phaseFault d phase => Sys2Proof.Machine.execPhaseFault d phase s
  | .domainMeasure vals => Sys2Proof.Machine.execDomainMeasure vals s
  | .estimatorCalibration => Sys2Proof.Machine.execEstimatorCalibration s
  | .limiterTick acts leaks board demand duty pause gate pace hbm => Sys2Proof.Machine.execLimiterTick acts leaks board demand duty pause gate pace hbm s
  | .capWrite rq which v => Sys2Proof.Machine.execCapWrite rq which v s
  | .shedAssert => Sys2Proof.Machine.execShedAssert s
  | .shedRelease => Sys2Proof.Machine.execShedRelease s
  | .powerCeilingLower => Sys2Proof.Machine.execPowerCeilingLower s
  | .powerCeilingRaise => Sys2Proof.Machine.execPowerCeilingRaise s
  | .capScheduleStep ix => Sys2Proof.Machine.execCapScheduleStep ix s
  | .sensorScan temps bad => Sys2Proof.Machine.execSensorScan temps bad s
  | .thermalCeilingFall c => Sys2Proof.Machine.execThermalCeilingFall c s
  | .thermalCeilingRise c => Sys2Proof.Machine.execThermalCeilingRise c s
  | .fieldRoutersOff f => Sys2Proof.Machine.execFieldRoutersOff f s
  | .vstbyValid straps resetN => Sys2Proof.Machine.execVstbyValid straps resetN s
  | .pwrGoodRise => Sys2Proof.Machine.execPwrGoodRise s
  | .pwrGoodFall => Sys2Proof.Machine.execPwrGoodFall s
  | .resetNAssert => Sys2Proof.Machine.execResetNAssert s
  | .resetNRelease straps => Sys2Proof.Machine.execResetNRelease straps s
  | .startSequence => Sys2Proof.Machine.execStartSequence s
  | .startStepWatchdog done => Sys2Proof.Machine.execStartStepWatchdog done s
  | .bootRequest => Sys2Proof.Machine.execBootRequest s
  | .imageOffer h source version size list => Sys2Proof.Machine.execImageOffer h source version size list s
  | .imageData h source offset bs => Sys2Proof.Machine.execImageData h source offset bs s
  | .defectList h source p => Sys2Proof.Machine.execDefectList h source p s
  | .imageEnd h source => Sys2Proof.Machine.execImageEnd h source s
  | .imageTransferTimeout => Sys2Proof.Machine.execImageTransferTimeout s
  | .bootInstruct what => Sys2Proof.Machine.execBootInstruct what s
  | .wholeDeviceReset rq => Sys2Proof.Machine.execWholeDeviceReset rq s
  | .burnGeneration rq fails cut => Sys2Proof.Machine.execBurnGeneration rq fails cut s
  | .clearFailureCounts rq => Sys2Proof.Machine.execClearFailureCounts rq s
  | .coreReset rq c slot => Sys2Proof.Machine.execCoreReset rq c slot s
  | .clusterReset rq c scrub => Sys2Proof.Machine.execClusterReset rq c scrub s
  | .glLodgingResetStart rq l scrub => Sys2Proof.Machine.execGlLodgingResetStart rq l scrub s
  | .lodgingFreezePoint l => Sys2Proof.Machine.execLodgingFreezePoint l s
  | .lodgingResetSweep l => Sys2Proof.Machine.execLodgingResetSweep l s
  | .lodgingResetComplete l => Sys2Proof.Machine.execLodgingResetComplete l s
  | .absorbedResponse id => Sys2Proof.Machine.execAbsorbedResponse id s
  | .attach h mgmt role l key versions => Sys2Proof.Machine.execAttach h mgmt role l key versions s
  | .detach h => Sys2Proof.Machine.execDetach h s
  | .sessionTimeout n => Sys2Proof.Machine.execSessionTimeout n s
  | .ownerBind h => Sys2Proof.Machine.execOwnerBind h s
  | .attestReq h nonce modulus => Sys2Proof.Machine.execAttestReq h nonce modulus s
  | .keyInstall h l k id dir wrapped => Sys2Proof.Machine.execKeyInstall h l k id dir wrapped s
  | .keyErase h l k => Sys2Proof.Machine.execKeyErase h l k s
  | .lodgingOpen h q => Sys2Proof.Machine.execLodgingOpen h q s
  | .lodgingChange h q remove => Sys2Proof.Machine.execLodgingChange h q remove s
  | .lodgingClose h l => Sys2Proof.Machine.execLodgingClose h l s
  | .lodgingReset h l scrub => Sys2Proof.Machine.execLodgingReset h l scrub s
  | .pageMap h l es => Sys2Proof.Machine.execPageMap h l es s
  | .frameReturn h l fs => Sys2Proof.Machine.execFrameReturn h l fs s
  | .connOpen h l q => Sys2Proof.Machine.execConnOpen h l q s
  | .connClose h l c => Sys2Proof.Machine.execConnClose h l c s
  | .addrSet h port sub mac ip4 ip6 => Sys2Proof.Machine.execAddrSet h port sub mac ip4 ip6 s
  | .ledgerRead h w free => Sys2Proof.Machine.execLedgerRead h w free s
  | .eventPushRetry dst written => Sys2Proof.Machine.execEventPushRetry dst written s
  | .eventPushAck h written => Sys2Proof.Machine.execEventPushAck h written s
  | .defectRead h => Sys2Proof.Machine.execDefectRead h s
  | .otpBurn h fails cut => Sys2Proof.Machine.execOtpBurn h fails cut s
  | .fwMinRaise h v => Sys2Proof.Machine.execFwMinRaise h v s
  | .powerSet h ws => Sys2Proof.Machine.execPowerSet h ws s
  | .telemetryRead h => Sys2Proof.Machine.execTelemetryRead h s
  | .siteSet h ws => Sys2Proof.Machine.execSiteSet h ws s
  | .dressLease h c mask start length => Sys2Proof.Machine.execDressLease h c mask start length s
  | .dressLeaseEnd c => Sys2Proof.Machine.execDressLeaseEnd c s
  | .dressStatus h => Sys2Proof.Machine.execDressStatus h s
  | .updateCommit h count force => Sys2Proof.Machine.execUpdateCommit h count force s
  | .updateCommitExecute intact => Sys2Proof.Machine.execUpdateCommitExecute intact s
  | .controllerMismatch => Sys2Proof.Machine.execControllerMismatch s
  | .smbusReadByte cmd hung => Sys2Proof.Machine.execSmbusReadByte cmd hung s
  | .smbusReadWord cmd hung => Sys2Proof.Machine.execSmbusReadWord cmd hung s
  | .smbusTimeout => Sys2Proof.Machine.execSmbusTimeout s
  | .extest cells => Sys2Proof.Machine.execExtest cells s
  | .samplePreload cells => Sys2Proof.Machine.execSamplePreload cells s
  | .idcode => Sys2Proof.Machine.execIdcode s
  | .clamp => Sys2Proof.Machine.execClamp s
  | .highz => Sys2Proof.Machine.execHighz s
  | .bypass => Sys2Proof.Machine.execBypass s
  | .jtagTapReset => Sys2Proof.Machine.execJtagTapReset s
  | .imageLoadOffer size => Sys2Proof.Machine.execImageLoadOffer size s
  | .imageLoadData w busy => Sys2Proof.Machine.execImageLoadData w busy s
  | .imageLoadEnd => Sys2Proof.Machine.execImageLoadEnd s
  | .rdmaWrite p => Sys2Proof.Machine.execRdmaWrite p s
  | .rdmaWriteWithImmediate p => Sys2Proof.Machine.execRdmaWriteWithImmediate p s
  | .rdmaRead p => Sys2Proof.Machine.execRdmaRead p s
  | .send p => Sys2Proof.Machine.execSend p s
  | .sendWithImmediate p => Sys2Proof.Machine.execSendWithImmediate p s
  | .rdmaReadResponse p => Sys2Proof.Machine.execRdmaReadResponse p s
  | .acknowledgement p syndrome => Sys2Proof.Machine.execAcknowledgement p syndrome s
  | .ackTimeout l c => Sys2Proof.Machine.execAckTimeout l c s
  | .cnp p => Sys2Proof.Machine.execCnp p s
  | .cnpRateRecovery l c => Sys2Proof.Machine.execCnpRateRecovery l c s
  | .arpRequest port sub ip => Sys2Proof.Machine.execArpRequest port sub ip s
  | .neighborSolicitation port sub ip => Sys2Proof.Machine.execNeighborSolicitation port sub ip s
  | .pauseFrame port sub prio on => Sys2Proof.Machine.execPauseFrame port sub prio on s
  | .subportLinkChange port sub up => Sys2Proof.Machine.execSubportLinkChange port sub up s
  | .sendRingPost rq l c w => Sys2Proof.Machine.execSendRingPost rq l c w s
  | .rxRingFree rq l c w => Sys2Proof.Machine.execRxRingFree rq l c w s
  | .workRequestStart l c stall => Sys2Proof.Machine.execWorkRequestStart l c stall s
  | .checkpointDue l => Sys2Proof.Machine.execCheckpointDue l s
  | .checkpointCapture l => Sys2Proof.Machine.execCheckpointCapture l s
  | .captureLimitExpiry l => Sys2Proof.Machine.execCaptureLimitExpiry l s
  | .resume rq l base => Sys2Proof.Machine.execResume rq l base s
  | .coreResetComplete u => Sys2Proof.Machine.execCoreResetComplete u s
  | .clusterResetComplete c => Sys2Proof.Machine.execClusterResetComplete c s
  | .startStepComplete k r => Sys2Proof.Machine.execStartStepComplete k r s
  | .checkpointStateTaken l => Sys2Proof.Machine.execCheckpointStateTaken l s
  | .resumeCompleted l => Sys2Proof.Machine.execResumeCompleted l s
  | .controllerResume imageOk => Sys2Proof.Machine.execControllerResume imageOk s
  | .routerStorageError r corrected => Sys2Proof.Machine.execRouterStorageError r corrected s
  | .clusterInterfaceFailure c => Sys2Proof.Machine.execClusterInterfaceFailure c s
  | .hbmRefresh k pc bank mgmt => Sys2Proof.Machine.execHbmRefresh k pc bank mgmt s
  | .hbmTemperatureReadout temps => Sys2Proof.Machine.execHbmTemperatureReadout temps s
  | .delayReq frac => Sys2Proof.Machine.execDelayReq frac s
  | .smbusWrite cmd hung => Sys2Proof.Machine.execSmbusWrite cmd hung s
  | .frameNotAccepted port sub => Sys2Proof.Machine.execFrameNotAccepted port sub s
  | .unsupportedOperation p => Sys2Proof.Machine.execUnsupportedOperation p s
  | .vstbyRemoval => Sys2Proof.Machine.execVstbyRemoval s
  | .reservedOpcode u bcast word => Sys2Proof.Machine.execReservedOpcode u bcast word s
  | .reservedCommandKind c ix => Sys2Proof.Machine.execReservedCommandKind c ix s

end Sys2Proof.Machine
end

