-- ==== Sys2Proof/WellFormed.lean ====
section
/-! DEFINITION. What the operands of a command must keep to name something of the machine: units that exist, indices inside
their tables. A command outside it names nothing the spec describes; statements that need a bound say so. -/

namespace Sys2Proof

/-- 01_vuveand_at_a_glance.md: 48 clusters of 28 slots, 24 logical cores to a cluster. -/
def clusterOk (c : Nat) : Bool := decide (c < 48)
def slotOk (u : Nat) : Bool := decide (u < 1344)
def logicalOk (l : Nat) : Bool := decide (l < 24)

/-- 14: eight lodgings; 15: eight ports of up to four sub-ports, 1,024 connections to a lodging. -/
def lodgingOk (l : Nat) : Bool := decide (l < 8)
def portOk (port sub : Nat) : Bool := decide (port < 8) && decide (sub < 4)
def connOk (c : Nat) : Bool := decide (c < 1024)

/-- 08: 140 links and 48 routers; 09: 12 stacks; 11: 49 clock regions. -/
def linkOk (i : Nat) : Bool := decide (i < 140)
def routerOk (r : Nat) : Bool := decide (r < 48)
def stackOk (k : Nat) : Bool := decide (k < 12)
def regionOk (r : Nat) : Bool := decide (r < 49)

/-- 06: the command a request names: a waybill of 32 bits, a stream and a tag of 12 bits. -/
def orgOk (o : Option Machine.Origin) : Bool :=
  o.all (fun x => decide (x.way < 2 ^ 32) && decide (x.stream < 2 ^ 16) && decide (x.tag < 2 ^ 12))

/-- A requester that exists. -/
def rqOk (rq : Machine.Rq) : Bool :=
  match rq with
  | .core u o => slotOk u && orgOk o
  | .coreDma u o => slotOk u && orgOk o
  | .fetch u => slotOk u
  | .part u cls o => slotOk u && decide (cls < 13) && orgOk o
  | .walker c => clusterOk c
  | .seqDma c o => clusterOk c && orgOk o
  | .seqFetch c o => clusterOk c && orgOk o
  | .router c o => clusterOk c && orgOk o
  | .host l p => lodgingOk l && decide (p < 8)
  | .firmware => true
  | .scrubber => true

/-- 15: sequence numbers of 24 bits, and a payload of at most the largest path MTU. -/
def pktOk (p : Pkt) : Bool := lodgingOk p.l && connOk p.c && decide (p.psn < 2 ^ 24) && decide (p.payload.length ≤ 4096)

/-- 16, Table 16.3: a session number and a SEQUENCE of 32 bits. -/
def hdrOk (h : MsgHdr) : Bool := decide (h.session < 2 ^ 32) && decide (h.seq < 2 ^ 32)

def Instr.wellFormed (i : Instr) : Bool :=
  match i with
  | .registerWrite rq _ bytes _ => rqOk rq && decide (bytes ≤ 8)
  | .shCommit _ _ => true
  | .sramRead rq _ _ _ _ => rqOk rq
  | .sramWrite rq _ _ _ _ => rqOk rq
  | .transposingWrite rq _ _ _ _ _ _ => rqOk rq
  | .memPowerOff rq u q => rqOk rq && slotOk u && decide (q < 4)
  | .memPowerOn rq u q => rqOk rq && slotOk u && decide (q < 4)
  | .cmPowerOff rq c b => rqOk rq && clusterOk c && decide (b < 32)
  | .cmPowerOn rq c b => rqOk rq && clusterOk c && decide (b < 32)
  | .powerDownComplete _ => true
  | .powerUpComplete _ => true
  | .semWriteSet rq c k _ => rqOk rq && clusterOk c && decide (k < 256)
  | .semWriteAdd rq c k _ => rqOk rq && clusterOk c && decide (k < 256)
  | .semWriteSubtract rq c k _ => rqOk rq && clusterOk c && decide (k < 256)
  | .semaphoreSignal _ => true
  | .semaphoreWait _ => true
  | .semGrantArrival _ => true
  | .alu u _ => slotOk u
  | .addi u _ => slotOk u
  | .andi u _ => slotOk u
  | .ori u _ => slotOk u
  | .xori u _ => slotOk u
  | .shi u _ => slotOk u
  | .lih u _ => slotOk u
  | .cmp u _ => slotOk u
  | .plog u _ => slotOk u
  | .ld u _ => slotOk u
  | .st u _ => slotOk u
  | .vld u _ => slotOk u
  | .vst u _ => slotOk u
  | .br u _ => slotOk u
  | .j u _ => slotOk u
  | .jr u _ => slotOk u
  | .sysNop u _ => slotOk u
  | .sysEnd u _ => slotOk u
  | .programEnd u => slotOk u
  | .sysFence u _ => slotOk u
  | .semwait u _ => slotOk u
  | .semsig u _ => slotOk u
  | .sysIcinv u _ => slotOk u
  | .sysTrap u _ => slotOk u
  | .rdtime u _ => slotOk u
  | .rdcore u _ => slotOk u
  | .qput u _ => slotOk u
  | .rdbase u _ => slotOk u
  | .ldd u _ => slotOk u
  | .std u _ => slotOk u
  | .dset u _ => slotOk u
  | .valu u _ => slotOk u
  | .vcmp u _ => slotOk u
  | .vcvto u _ => slotOk u
  | .vcvti u _ => slotOk u
  | .vsplit u _ => slotOk u
  | .vred u _ => slotOk u
  | .vmov u _ => slotOk u
  | .matmul u _ _ => slotOk u
  | .pmout u _ _ => slotOk u
  | .pmclr u _ _ => slotOk u
  | .dmaGather u _ _ => slotOk u
  | .dmaScatter u _ _ => slotOk u
  | .dmaTranspose u _ _ => slotOk u
  | .dmaFill u _ _ => slotOk u
  | .dmaDispatchGather u _ _ => slotOk u
  | .dmaDispatchScatter u _ _ => slotOk u
  | .dmaReduceStore u _ _ => slotOk u
  | .reduce u _ _ => slotOk u
  | .zmap u _ _ => slotOk u
  | .icacheMiss u _ => slotOk u
  | .responseArrival _ _ _ => true
  | .stepCommit u _ => slotOk u
  | .longInstructionComplete _ => true
  | .stepReplay u _ _ _ _ _ => slotOk u
  | .takeoverCopyDone c l _ _ => clusterOk c && logicalOk l
  | .meInject rq u _ => rqOk rq && slotOk u
  | .meClrCounts rq u => rqOk rq && slotOk u
  | .coreHeartbeatProbe c _ => clusterOk c
  | .stormHoldEnd c => clusterOk c
  | .stormCeilingLift c => clusterOk c
  | .sequencerMismatch c => clusterOk c
  | .dressingSchedule => true
  | .dressingRunEnd u _ => slotOk u
  | .ledgerReadAdvance rq _ => rqOk rq
  | .ledgerMirrorSet rq _ => rqOk rq
  | .streamArm rq id _ => rqOk rq && decide (id < 65536)
  | .streamDisarm rq id _ => rqOk rq && decide (id < 65536)
  | .streamFree rq id _ => rqOk rq && decide (id < 65536)
  | .streamReleaseBoundary _ => true
  | .streamSlotAssign c i => clusterOk c && decide (i < 16)
  | .streamStop rq id => rqOk rq && decide (id < 65536)
  | .tensor c i => clusterOk c && decide (i < 16)
  | .tensorDelivery c => clusterOk c
  | .callCore c i => clusterOk c && decide (i < 16)
  | .coreProgramStart c l => clusterOk c && logicalOk l
  | .dma c i => clusterOk c && decide (i < 16)
  | .semSignal c i => clusterOk c && decide (i < 16)
  | .semWait c i => clusterOk c && decide (i < 16)
  | .flagSet c i => clusterOk c && decide (i < 16)
  | .flagWait c i => clusterOk c && decide (i < 16)
  | .barrier c i => clusterOk c && decide (i < 16)
  | .barrierWaveRelease b => decide (b < 64)
  | .waitTime c i => clusterOk c && decide (i < 16)
  | .waitTimeExpiry c i => clusterOk c && decide (i < 16)
  | .reduceQ c i => clusterOk c && decide (i < 16)
  | .branch c i => clusterOk c && decide (i < 16)
  | .rampNotice c i => clusterOk c && decide (i < 16)
  | .rampNoticeExpiry => true
  | .checkpointMark c i => clusterOk c && decide (i < 16)
  | .endCmd c i => clusterOk c && decide (i < 16)
  | .launchComplete _ => true
  | .streamWaitTimeout _ _ => true
  | .flagWriteSet rq c k _ => rqOk rq && clusterOk c && decide (k < 4096)
  | .flagWriteAdd rq c k _ => rqOk rq && clusterOk c && decide (k < 4096)
  | .flagWriteMax rq c k _ => rqOk rq && clusterOk c && decide (k < 4096)
  | .routeSubmit rq c _ => rqOk rq && clusterOk c
  | .routingJobStart c _ => clusterOk c
  | .routingJobEnd c _ => clusterOk c
  | .linkCrcRetry i _ _ _ => linkOk i
  | .linkIdleTimeout i => linkOk i
  | .linkRetrainDone i _ => linkOk i
  | .linkRetrain rq i => rqOk rq && linkOk i
  | .linkRemove rq i => rqOk rq && linkOk i
  | .routerHeartbeatCheck _ => true
  | .topoSwitchArm rq => rqOk rq
  | .topoSwitch => true
  | .sweepStart rq r => rqOk rq && routerOk r
  | .sweepExpiry reads => reads.all (fun x => rqOk x.1)
  | .routerDrainEnd _ _ => true
  | .ostlerHoldWatchdog _ _ _ => true
  | .creditWatchdog r _ => routerOk r
  | .reduceAddMerge r _ _ => routerOk r
  | .reduceEntryForward _ => true
  | .reduceAck _ => true
  | .hbmAccess rq _ _ _ _ _ _ => rqOk rq
  | .hbmEcsPoll _ => true
  | .hbmRateChange k => stackOk k
  | .hbmRateChangeDone k => stackOk k
  | .translationWalk rq _ _ _ _ _ _ _ => rqOk rq
  | .tlbInvalidate rq l _ _ => rqOk rq && lodgingOk l
  | .tlbInvalidateDone => true
  | .scrubSubmit rq _ _ => rqOk rq
  | .scrubJobDone _ => true
  | .regionSyncCheck _ => true
  | .ptpSample _ port sub _ who _ _ => decide (port < 8) && decide (sub < 4) && decide (who.length ≤ 16)
  | .siteTickEdge _ => true
  | .disciplineHoldover => true
  | .stepForward rq _ => rqOk rq
  | .siteNowWrite rq _ => rqOk rq
  | .siteTickOutPulse => true
  | .siteTickOutEnd => true
  | .stepTableWrite rq _ _ => rqOk rq
  | .switchCountWrite rq _ _ => rqOk rq
  | .frequencySwitch _ => true
  | .regionLateSwitch r => regionOk r
  | .frequencySwitchComplete => true
  | .regionCeilingSwitch r => regionOk r
  | .phaseFault _ _ => true
  | .domainMeasure _ => true
  | .estimatorCalibration => true
  | .limiterTick _ _ _ _ _ _ _ _ _ => true
  | .capWrite rq which _ => rqOk rq && decide (which < 3)
  | .shedAssert => true
  | .shedRelease => true
  | .powerCeilingLower => true
  | .powerCeilingRaise => true
  | .capScheduleStep i => decide (i < 16)
  | .sensorScan _ _ => true
  | .thermalCeilingFall c => clusterOk c
  | .thermalCeilingRise c => clusterOk c
  | .fieldRoutersOff f => decide (f < 6)
  | .vstbyValid _ _ => true
  | .pwrGoodRise => true
  | .pwrGoodFall => true
  | .resetNAssert => true
  | .resetNRelease straps => decide (straps < 4)
  | .startSequence => true
  | .startStepWatchdog _ => true
  | .bootRequest => true
  | .imageOffer h _ _ _ _ => h.all hdrOk
  | .imageData h _ _ _ => h.all hdrOk
  | .defectList h _ _ => h.all hdrOk
  | .imageEnd h _ => h.all hdrOk
  | .imageTransferTimeout => true
  | .bootInstruct what => decide (what < 3)
  | .wholeDeviceReset rq => rqOk rq
  | .burnGeneration rq _ _ => rqOk rq
  | .clearFailureCounts rq => rqOk rq
  | .coreReset rq c slot => rqOk rq && clusterOk c && decide (slot < 28)
  | .clusterReset rq c _ => rqOk rq && clusterOk c
  | .glLodgingResetStart rq l _ => rqOk rq && lodgingOk l
  | .lodgingFreezePoint l => lodgingOk l
  | .lodgingResetSweep l => lodgingOk l
  | .lodgingResetComplete l => lodgingOk l
  | .absorbedResponse _ => true
  | .attach h _ role l _ _ => lodgingOk l && hdrOk h && decide (role < 2)
  | .detach h => hdrOk h
  | .sessionTimeout _ => true
  | .ownerBind h => hdrOk h
  | .attestReq h _ _ => hdrOk h
  | .keyInstall h l _ _ _ _ => lodgingOk l && hdrOk h
  | .keyErase h l _ => lodgingOk l && hdrOk h
  | .lodgingOpen h _ => hdrOk h
  | .lodgingChange h _ _ => hdrOk h
  | .lodgingClose h l => lodgingOk l && hdrOk h
  | .lodgingReset h l _ => lodgingOk l && hdrOk h
  | .pageMap h l _ => lodgingOk l && hdrOk h
  | .frameReturn h l _ => lodgingOk l && hdrOk h
  | .connOpen h l q => lodgingOk l && hdrOk h && connOk q.c
  | .connClose h l c => connOk c && lodgingOk l && hdrOk h
  | .addrSet h port sub _ _ _ => hdrOk h && portOk port sub
  | .ledgerRead h _ _ => hdrOk h
  | .eventPushRetry _ _ => true
  | .eventPushAck h _ => hdrOk h
  | .defectRead h => hdrOk h
  | .otpBurn h _ _ => hdrOk h
  | .fwMinRaise h _ => hdrOk h
  | .powerSet h _ => hdrOk h
  | .telemetryRead h => hdrOk h
  | .siteSet h _ => hdrOk h
  | .dressLease h c _ _ _ => clusterOk c && hdrOk h
  | .dressLeaseEnd c => clusterOk c
  | .dressStatus h => hdrOk h
  | .updateCommit h _ _ => hdrOk h
  | .updateCommitExecute _ => true
  | .controllerMismatch => true
  | .smbusReadByte _ _ => true
  | .smbusReadWord _ _ => true
  | .smbusTimeout => true
  | .extest _ => true
  | .samplePreload _ => true
  | .idcode => true
  | .clamp => true
  | .highz => true
  | .bypass => true
  | .jtagTapReset => true
  | .imageLoadOffer _ => true
  | .imageLoadData _ _ => true
  | .imageLoadEnd => true
  | .rdmaWrite p => pktOk p
  | .rdmaWriteWithImmediate p => pktOk p
  | .rdmaRead p => pktOk p
  | .send p => pktOk p
  | .sendWithImmediate p => pktOk p
  | .rdmaReadResponse p => pktOk p
  | .acknowledgement p _ => pktOk p
  | .ackTimeout l c => connOk c && lodgingOk l
  | .cnp p => pktOk p
  | .cnpRateRecovery l c => connOk c && lodgingOk l
  | .arpRequest port sub _ => portOk port sub
  | .neighborSolicitation port sub _ => portOk port sub
  | .pauseFrame port sub _ _ => portOk port sub
  | .subportLinkChange port sub _ => portOk port sub
  | .sendRingPost rq l c _ => rqOk rq && connOk c && lodgingOk l
  | .rxRingFree rq l c _ => rqOk rq && connOk c && lodgingOk l
  | .workRequestStart l c _ => connOk c && lodgingOk l
  | .checkpointDue l => lodgingOk l
  | .checkpointCapture l => lodgingOk l
  | .captureLimitExpiry l => lodgingOk l
  | .resume rq l _ => rqOk rq && lodgingOk l
  | .coreResetComplete u => slotOk u
  | .clusterResetComplete c => clusterOk c
  | .startStepComplete k _ => decide (1 ≤ k) && decide (k ≤ 14)
  | .checkpointStateTaken l => lodgingOk l
  | .resumeCompleted l => lodgingOk l
  | .controllerResume _ => true
  | .routerStorageError r _ => routerOk r
  | .clusterInterfaceFailure c => clusterOk c
  | .hbmRefresh k pc bank _ => stackOk k && decide (pc < 64) && decide (bank < 64)
  | .hbmTemperatureReadout _ => true
  | .delayReq _ => true
  | .smbusWrite _ _ => true
  | .frameNotAccepted port sub => portOk port sub
  | .unsupportedOperation p => pktOk p
  | .vstbyRemoval => true
  | .reservedOpcode u _ _ => slotOk u
  | .reservedCommandKind c i => clusterOk c && decide (i < 16)

end Sys2Proof
end

