-- ==== Sys2Proof/Safety.lean ====
section
/-! DEFINITION. What claims mean by a run that goes on, by a state in order, and by what a command leaves alone. -/

namespace Sys2Proof.Machine

/-- n steps end in a state, with no fault and no refusal. -/
def State.runs (s : State) (n : Nat) : Prop := ∃ t, Sys2Proof.core.run n s = Host.Outcome.next t

/-- The commands that wait are commands of this machine. -/
def State.queueOk (s : State) : Bool := s.pending.all Instr.wellFormed

/-- Memory and the registers are in their canonical form, so that equal contents are equal data. -/
def State.canonical (s : State) : Bool := Memory.wf s.mem && mwf regReset s.regs

/-- Every register word but those at the listed keys reads as it did. -/
def State.regsKept (s t : State) (keys : List Nat) : Prop :=
  ∀ k, k ∉ keys → mget regReset t.regs k = mget regReset s.regs k

/-- Every byte of memory reads as it did, but for those of some physical addresses. -/
def State.bytesKept (s t : State) (p : Nat → Prop) : Prop := ∀ a, ¬ p a → t.rd a = s.rd a

/-- The state but for where the messages in the network stand, what the ostlers hold of turns and of parked requesters, and
which rows of the HBM are open: what a passage through the network leaves alone (08_on_die_network.md R221-R224, R238, R252). -/
def State.still (s : State) : State :=
  { s with
    net := { s.net with
      ostlers := []
      signals := s.net.signals.map (fun g => { g with pos := none })
      waitMsgs := s.net.waitMsgs.map (fun g => { g with pos := none })
      grants := s.net.grants.map (fun g => { g with pos := none })
      resps := s.net.resps.map (fun g => { g with pos := none })
      flits := s.net.flits.map (fun g => { g with pos := none }) }
    hbm := { s.hbm with rows := [], acts := [] } }

/-- A range of addresses. -/
abbrev inSpan (lo n a : Nat) : Prop := lo ≤ a ∧ a < lo + n

end Sys2Proof.Machine
end

