-- ==== Sys2Proof/Certificates/Slice0/Obligations.lean ====
section
/-! DEFINITION. What this row states of the machine for the provers: of each command its result (a definition under Claim, with
the rule it follows), of a family of commands the claims together, and of the whole machine what every command keeps. -/

open Sys2Proof Sys2Proof.Machine

/-- A step with a command at the front of the queue is that command's meaning on the state with the queue's rest. -/
def Obligations.StepRunsTheFrontCommand : Prop :=
  ∀ (c : Instr) (q : List Instr) (s : State), step { s with pending := c :: q } = exec c { s with pending := q }

/-! ### Registers and memories of the cores and clusters (chapters 0 and 4) -/

/-- The registers whose writes have an effect of their own, by row; every other register follows Table 0.7 alone. -/
def Claim.ownRuleRows : List Nat :=
  [rCO_ME_TEST, rCO_MEM_POWER, rCO_SR_SEED, rCL_SEM_WRITE, rCL_CM_POWER, rCL_FLAG_WRITE, rCL_ROUTE_SUBMIT, rCL_RESET, rSQ_Q,
   rSQ_TRACE_BASE, rSQ_TRACE_CTRL, rGL_STREAM0, rGL_STREAM1, rGL_STREAM2, rGL_STREAM3, rGL_STREAM4, rGL_STREAM5, rGL_STREAM6,
   rGL_STREAM7, rGL_BARRIER, rGL_STREAM_CTRL, rGL_PT_REGION, rGL_LODGING_CFG, rGL_TLB_INVAL, rGL_SCRUB_SUBMIT,
   rGL_LODGING_RESET, rNW_DETOUR,
   rNW_TOPO_CTRL, rNW_LINK_CMD, rNW_SWEEP, rNW_OSTLER_CTRL, rHB_RATE_CTRL, rHB_RATE_SWITCH, rHB_REFRESH, rMG_LEDGER_MIRROR,
   rMG_START_CTRL, rTM_SITE_NOW, rTM_STEP_FWD, rTM_STEP_TABLE, rTM_SWITCH_COUNT, rTM_FREQ_ADJ, rTM_TICK_NEXT,
   rPW_CAP_SUSTAINED, rPW_CAP_PEAK, rPW_SHED_CAP, rPW_PRIORITY, rPW_CAP_SCHED0, rPW_CAP_SCHED1, rET_PORT_CFG, rET_CONN_POST,
   rET_RESUME0]

/-- REGISTER_WRITE: Table 0.7 (R8), R12 for an SH field. A write let through to a register without a rule of its own: each RW
field takes its bits, an RWS or W1C bit written 1 clears and one written 0 stays, a field of any other code stays; the word of
a register with SH fields waits. No other register changes, and nothing else does but what a passage through the network moves. -/
def Claim.registerWrite : Prop :=
  ∀ (rq : Rq) (a : Nat) (w : Word) (r u i : Nat) (s : State),
    a % 8 = 0 → s.csRoute rq a = 0 → s.csHeld rq a = false → s.csRefusal rq a true = none →
    csDecode a = some (r, u, i) → r ∉ Claim.ownRuleRows →
    ∃ t, exec (.registerWrite rq a 8 w) s = .next t ∧ t.still = { s.still with regs := t.regs, sh := t.sh } ∧
      s.regsKept t [rkey r u i] ∧
      (∀ f, f ∈ (regRow r).fields → t.fld ⟨r, f.1, f.2.1⟩ u i =
        (match f.2.2 with
          | .rw => fieldOf f.1 f.2.1 w.toNat
          | .rws => s.fld ⟨r, f.1, f.2.1⟩ u i &&& (2 ^ f.2.1 - 1 - fieldOf f.1 f.2.1 w.toNat)
          | .w1c => s.fld ⟨r, f.1, f.2.1⟩ u i &&& (2 ^ f.2.1 - 1 - fieldOf f.1 f.2.1 w.toNat)
          | _ => s.fld ⟨r, f.1, f.2.1⟩ u i)) ∧
      ((regRow r).fields.any (fun f => decide (f.2.2 = .sh)) = true → t.pendingSh (rkey r u i) = some w)

/-- REGISTER_WRITE, R5: a narrower or misaligned write is not performed, and draws an error response. -/
def Claim.registerWriteRefused : Prop :=
  ∀ (rq : Rq) (a bytes : Nat) (w : Word) (s : State), bytes ≠ 8 ∨ a % 8 ≠ 0 →
    exec (.registerWrite rq a bytes w) s = .next (s.emit .errorResponse rq.unit 0 [a])

/-- REGISTER_WRITE, R6: a write to an address that holds no register sets UNMAPPED_WRITE and does nothing else. -/
def Claim.registerWriteUnmapped : Prop :=
  ∀ (rq : Rq) (a : Nat) (w : Word) (s : State),
    a % 8 = 0 → s.csRoute rq a = 0 → s.csRefusal rq a true = none → csDecode a = none →
    ∃ t, exec (.registerWrite rq a 8 w) s = .next t ∧ t.still = (s.put fMG_STICKY0_UNMAPPED_WRITE 0 0 1).still

/-- SH_COMMIT, R12, R376: at a commit point of its block the one word that waits takes effect in the SH fields of its register,
and waits no longer. The registers whose commit starts something are CO_SR_SEED, TM_DISC_CFG, MG_LEDGER_READ and
NW_OSTLER_CTRL. -/
def Claim.shCommit : Prop :=
  ∀ (r u i : Nat) (w : Word) (s : State), u < 4096 → i < 2 ^ 20 →
    r ∉ [rCO_SR_SEED, rTM_DISC_CFG, rMG_LEDGER_READ, rNW_OSTLER_CTRL] →
    s.sh = [(rkey r u i, w)] → s.atCommit r i = true →
    ∃ t, exec (.shCommit (regRow r).block u) s = .next t ∧ t = { s with regs := t.regs, sh := [] } ∧
      s.regsKept t [rkey r u i] ∧
      (∀ f, f ∈ (regRow r).fields → t.fld ⟨r, f.1, f.2.1⟩ u i =
        if f.2.2 = .sh then fieldOf f.1 f.2.1 w.toNat else s.fld ⟨r, f.1, f.2.1⟩ u i)

/-- REGISTER_WRITE and SH_COMMIT complete as Table 0.7 has it. -/
def Obligations.RegisterWritesFollowAccessCodes : Prop :=
  Claim.registerWrite ∧ Claim.registerWriteRefused ∧ Claim.shCommit

/-- The register that counts the cycles a remote request waited at the memory of a place (R122): there is one for a slot. -/
def Claim.stallKeys (p : Place) : List Nat := (p.slot?.map (fun u => rkey rCO_REMOTE_STALL u 0)).toList

/-- SRAM_READ, R85-R91, R281: a read that finds its place, no poison and no flipped bit answers with the bytes there, and changes no
byte, and no register but CO_REMOTE_STALL of the slot. -/
def Claim.sramRead : Prop :=
  ∀ (rq : Rq) (a n parity stall : Nat) (p : Place) (s : State), 0x010000000000 ≤ a → a + n ≤ 0x010300000000 →
    s.locate rq a = .ok p → s.poisonIn p.addr (p.addr + n) = false → s.upsetIn p.addr n = none → parity ≠ 1 → parity ≠ 2 →
    ∃ t, exec (.sramRead rq a n parity stall) s = .next t ∧ t.mem = s.mem ∧ s.regsKept t (Claim.stallKeys p) ∧
      t.out = s.out ++ [⟨.response, rq.unit, a, (List.range n).map (fun i => (s.rd (p.addr + i)).toNat)⟩]

/-- SRAM_READ and SRAM_WRITE, R89, R122: CO_REMOTE_STALL of a slot counts the cycles that accesses of others to its memories
waited. -/
def Claim.remoteStall : Prop :=
  ∀ (rq : Rq) (a n stall u : Nat) (p : Place) (bs : List (BitVec 8)) (s : State), 0x010000000000 ≤ a →
    a + n ≤ 0x010300000000 → a + bs.length ≤ 0x010300000000 → s.locate rq a = .ok p → s.poisonIn p.addr (p.addr + n) = false →
    s.ms.upsets = [] → p.slot? = some u → rq.slot ≠ some u →
    s.fld fCO_REMOTE_STALL_CYCLES u + stall < 2 ^ fCO_REMOTE_STALL_CYCLES.w →
    (∃ t, exec (.sramRead rq a n 0 stall) s = .next t ∧
      t.fld fCO_REMOTE_STALL_CYCLES u = s.fld fCO_REMOTE_STALL_CYCLES u + stall) ∧
    (∃ t, exec (.sramWrite rq a bs 0 stall) s = .next t ∧
      t.fld fCO_REMOTE_STALL_CYCLES u = s.fld fCO_REMOTE_STALL_CYCLES u + stall)

/-- SRAM_WRITE, R94: a write that finds its place, and no flipped bit in the words it touches, stores its bytes, in order from there
on; no other byte changes, and no register but CO_REMOTE_STALL of the slot. -/
def Claim.sramWrite : Prop :=
  ∀ (rq : Rq) (a parity stall : Nat) (bs : List (BitVec 8)) (p : Place) (s : State), 0x010000000000 ≤ a →
    a + bs.length ≤ 0x010300000000 → s.locate rq a = .ok p → s.upsetIn p.addr bs.length = none → parity ≠ 1 → parity ≠ 2 →
    ∃ t, exec (.sramWrite rq a bs parity stall) s = .next t ∧ s.regsKept t (Claim.stallKeys p) ∧
      (∀ i, i < bs.length → t.rd (p.addr + i) = bs.getD i 0#8) ∧ s.bytesKept t (inSpan p.addr bs.length) ∧
      t.out = s.out ++ [⟨.response, rq.unit, a, []⟩]

/-- SRAM_READ and SRAM_WRITE, R88, R180: no byte is read or written for a refused request: it draws an error response, and memory,
where no mirror of the ledger lies, is as it was; the record of it names the command of the request. -/
def Claim.sramRefused : Prop :=
  ∀ (rq : Rq) (a n parity stall e unit c : Nat) (slot : Option Nat) (bs : List (BitVec 8)) (s : State),
    0x010000000000 ≤ a → a + n ≤ 0x010300000000 → a + bs.length ≤ 0x010300000000 →
    s.locate rq a = .bad e unit slot c → s.fld fMG_LEDGER_MIRROR_BASE = 0 →
    (∃ t, exec (.sramRead rq a n parity stall) s = .next t ∧ t.mem = s.mem ∧
      t.out.getLast? = some ⟨.errorResponse, rq.unit, e, [a]⟩ ∧
      (s.fld fMG_LEDGER_STATUS_UNREAD = 0 → s.fld fMG_LEDGER_READ_READ < 1024 →
        ∃ r, t.recAt (s.fld fMG_LEDGER_READ_READ) = some r ∧ r.event = e ∧ r.waybill = (s.originRq rq).way ∧
          r.tag = (s.originRq rq).tag)) ∧
    (∃ t, exec (.sramWrite rq a bs parity stall) s = .next t ∧ t.mem = s.mem ∧
      t.out.getLast? = some ⟨.errorResponse, rq.unit, e, [a]⟩)

/-- TRANSPOSING_WRITE, R95: element (r, c) of the source is element r of destination row c, at base + c × pitch; no other byte and
no register changes. -/
def Claim.transposingWrite : Prop :=
  ∀ (rq : Rq) (w dst pitch : Nat) (rows : List Nat) (pa : Nat → Nat) (s : State),
    0x010000000000 ≤ dst → dst < 0x010300000000 → tileBad w dst pitch false rows = false → s.pathBusy rq dst = false →
    (∀ c, c < 32 → s.request rq (dst + c * pitch) (4 * w) false true false = (.ok (pa c), s)) →
    (∀ c, c < 32 → 0x010000000000 ≤ pa c) → (∀ c, c < 31 → pa c + 4 * w ≤ pa (c + 1)) →
    ∃ t, exec (.transposingWrite rq w dst pitch false rows false) s = .next t ∧ t.regs = s.regs ∧
      (∀ r c, r < 32 → c < 32 →
        fieldOf (w * r) w (leNat (t.physRead (pa c) (4 * w))) = fieldOf (w * c) w (rows.getD r 0)) ∧
      s.bytesKept t (fun a => ∃ c, c < 32 ∧ inSpan (pa c) (4 * w) a)

/-- TRANSPOSING_WRITE, R96: a tile that stops short of 32 rows, a width other than 4, 8 or 16 bits, an MX format, a misaligned base
or pitch, or a pitch below the row: the write is refused whole with event 0x2005 at its destination, and no byte changes, where
no mirror of the ledger lies. -/
def Claim.transposingRefused : Prop :=
  ∀ (rq : Rq) (w dst pitch : Nat) (mx : Bool) (rows : List Nat) (p : Place) (s : State),
    0x010000000000 ≤ dst → dst < 0x010300000000 → tileBad w dst pitch mx rows = true → s.pathBusy rq dst = false →
    s.locate rq dst = .ok p → s.fld fMG_LEDGER_MIRROR_BASE = 0 →
    ∃ t, exec (.transposingWrite rq w dst pitch mx rows false) s = .next t ∧ t.mem = s.mem ∧
      t.out.getLast? = some ⟨.errorResponse, rq.unit, 0x2005, [dst]⟩ ∧
      (s.fld fMG_LEDGER_STATUS_UNREAD = 0 → s.fld fMG_LEDGER_READ_READ < 1024 →
        ∃ r, t.recAt (s.fld fMG_LEDGER_READ_READ) = some r ∧ r.event = 0x2005 ∧ r.unit = placeUnit p)

/-- TRANSPOSING_WRITE, R95, R237: a writer that stalls after its grant holds it, and a tile buffer with it, until it delivers the
rest or is cut. -/
def Claim.transposingStall : Prop :=
  ∀ (rq : Rq) (w dst pitch : Nat) (mx : Bool) (rows : List Nat) (s : State),
    0x010000000000 ≤ dst → dst < 0x010300000000 → s.pathBusy rq dst = false →
    (∀ h, h ∈ (s.ostler (ostlerAt 2 (s.pathAt rq dst).1 (s.pathAt rq dst).2)).holds → h.isFor rq dst = false) →
    ∃ t h, exec (.transposingWrite rq w dst pitch mx rows true) s = .next t ∧ t.still = s.still ∧
      h ∈ (t.ostler (ostlerAt 2 (s.pathAt rq dst).1 (s.pathAt rq dst).2)).holds ∧ h.isFor rq dst = true ∧ h.since = s.now

/-- MEM_POWER_OFF and CM_POWER_OFF, R116: the part's gate closes (requests are refused from then on with 0x2004) and PENDING is
set; nothing else changes. -/
def Claim.powerOff : Prop :=
  (∀ (rq : Rq) (u q : Nat) (s : State), u < 1344 → q < 4 → s.regGate rq (u / 28) = none →
    s.partPending (halfPart u q) = false → s.partOn (halfPart u q) = true →
    ∃ t, exec (.memPowerOff rq u q) s = .next t ∧ t.partState (halfPart u q) = 1 ∧ t.partPending (halfPart u q) = true ∧
      t.partOn (halfPart u q) = true ∧ s.regsKept t [rkey rCO_MEM_POWER u 0] ∧
      t = { s with regs := t.regs, ms := { s.ms with powerDir := nput s.ms.powerDir (halfPart u q) 1 } }) ∧
  (∀ (rq : Rq) (c b : Nat) (s : State), c < 48 → b < 32 → s.regGate rq c = none →
    s.partPending (bankPart c b) = false → s.partOn (bankPart c b) = true →
    ∃ t, exec (.cmPowerOff rq c b) s = .next t ∧ t.partState (bankPart c b) = 1 ∧ t.partPending (bankPart c b) = true ∧
      t.partOn (bankPart c b) = true ∧ s.regsKept t [rkey rCL_CM_POWER_STATE c 0] ∧
      t = { s with regs := t.regs, ms := { s.ms with powerDir := nput s.ms.powerDir (bankPart c b) 1 } })

/-- MEM_POWER_ON and CM_POWER_ON, R117: a power-up starts: PENDING is set, and STATE stays clear until it completes. -/
def Claim.powerOn : Prop :=
  (∀ (rq : Rq) (u q : Nat) (s : State), u < 1344 → q < 4 → s.regGate rq (u / 28) = none →
    s.partPending (halfPart u q) = false → s.partOn (halfPart u q) = false →
    ∃ t, exec (.memPowerOn rq u q) s = .next t ∧ t.partState (halfPart u q) = 2 ∧ t.partPending (halfPart u q) = true ∧
      t.partOn (halfPart u q) = false ∧ s.regsKept t [rkey rCO_MEM_POWER u 0] ∧
      t = { s with regs := t.regs, ms := { s.ms with powerDir := nput s.ms.powerDir (halfPart u q) 2 } }) ∧
  (∀ (rq : Rq) (c b : Nat) (s : State), c < 48 → b < 32 → s.regGate rq c = none →
    s.partPending (bankPart c b) = false → s.partOn (bankPart c b) = false →
    ∃ t, exec (.cmPowerOn rq c b) s = .next t ∧ t.partState (bankPart c b) = 2 ∧ t.partPending (bankPart c b) = true ∧
      t.partOn (bankPart c b) = false ∧ s.regsKept t [rkey rCL_CM_POWER_STATE c 0] ∧
      t = { s with regs := t.regs, ms := { s.ms with powerDir := nput s.ms.powerDir (bankPart c b) 2 } })

/-- POWER_DOWN_COMPLETE, R116, and POWER_UP_COMPLETE, R117: STATE follows, PENDING clears, and every byte of the part reads 0;
every other byte is as it was. -/
def Claim.powerComplete : Prop :=
  ∀ (k : Nat) (s : State), k < 4 * 1344 ∨ (0x10000 ≤ k ∧ k < 0x10000 + 32 * 48) → s.partPending k = true →
    s.ms.powerQueue.any (fun p => p.1 == k) = false →
    (nget s.ms.powerDir k = 1 → ∃ t, exec (.powerDownComplete k) s = .next t ∧ t.partOn k = false ∧
      t.partPending k = false ∧ (∀ a, inSpan (partRange k).1 (partRange k).2 a → t.rd a = 0#8) ∧
      s.bytesKept t (inSpan (partRange k).1 (partRange k).2)) ∧
    (nget s.ms.powerDir k = 2 → ∃ t, exec (.powerUpComplete k) s = .next t ∧ t.partOn k = true ∧
      t.partPending k = false ∧ t.partState k = 0 ∧ (∀ a, inSpan (partRange k).1 (partRange k).2 a → t.rd a = 0#8) ∧
      s.bytesKept t (inSpan (partRange k).1 (partRange k).2))

/-- Reads and writes of the memories of chapter 4. -/
def Obligations.MemoryReadsAndWritesMoveTheirBytes : Prop :=
  Claim.sramRead ∧ Claim.remoteStall ∧ Claim.sramWrite ∧ Claim.sramRefused ∧ Claim.transposingWrite ∧ Claim.transposingRefused ∧
    Claim.transposingStall

/-- Power changes of the memories of chapter 4. -/
def Obligations.MemoryPartsAreTurnedOffAndOn : Prop :=
  Claim.powerOff ∧ Claim.powerOn ∧ Claim.powerComplete

/-- Nobody waits at a semaphore. -/
def Claim.noWaiter (s : State) (c k : Nat) : Prop := s.ms.semQueue.any (fun w => w.sem == 256 * c + k) = false

/-- SEM_WRITE_SET, SEM_WRITE_ADD and SEM_WRITE_SUBTRACT, R107, Table 4.5, with nobody waiting: the count set; raised; lowered,
stopping at 0. Nothing else changes. -/
def Claim.semWrite : Prop :=
  ∀ (rq : Rq) (c k v : Nat) (s : State), c < 48 → k < 256 → v < 2 ^ 32 → s.regGate rq c = none → Claim.noWaiter s c k →
    exec (.semWriteSet rq c k v) s = .next (s.put fCL_SEM_COUNT c k v) ∧
    (s.fld fCL_SEM_COUNT c k + v < 2 ^ 32 →
      exec (.semWriteAdd rq c k v) s = .next (s.put fCL_SEM_COUNT c k (s.fld fCL_SEM_COUNT c k + v))) ∧
    exec (.semWriteSubtract rq c k v) s = .next (s.put fCL_SEM_COUNT c k (s.fld fCL_SEM_COUNT c k - v))

/-- SEM_WRITE_SET, SEM_WRITE_ADD and SEM_WRITE_SUBTRACT, R107: after the write the queue is examined as for a signal: a wait at its
head that the new count covers is granted, and the count is lowered by its amount. -/
def Claim.semWriteServes : Prop :=
  ∀ (rq : Rq) (c k v : Nat) (w : SemWait) (s : State), c < 48 → k < 256 → v < 2 ^ 32 → s.regGate rq c = none →
    s.ms.semQueue = [w] → w.sem = 256 * c + k → w.amount ≤ v →
    ∃ t, exec (.semWriteSet rq c k v) s = .next t ∧ t.fld fCL_SEM_COUNT c k = v - w.amount ∧ t.ms.semQueue = [] ∧
      t.net.grants = s.net.grants ++ [{ sem := w.sem, seq := w.seq, who := w.who, amount := w.amount }] ∧ t.mem = s.mem ∧
      s.regsKept t [rkey rCL_SEM c k]

/-- The command a wait message belongs to. -/
def Claim.waitOrigin (s : State) (w : SemWait) : Origin := ⟨(s.waiter w).2.2.2, (s.waiter w).2.2.1, 0⟩

/-- A wait that has come to its semaphore, and is taken there: nobody resets its cluster, and the semaphore is its lodging's. -/
def Claim.waitComes (s : State) (n : Nat) (w : SemWait) : Prop :=
  s.net.waitMsgs[n]? = some w ∧ (s.sigTravel 1 n (s.waiter w).1 (w.sem / 256) (Claim.waitOrigin s w)).1 = 0 ∧
    s.clusterHeld (w.sem / 256) = false ∧ s.semTakes (s.waiter w).2.1 w.sem = true

/-- The command a signal belongs to. -/
def Claim.sigOrigin (g : SemSig) : Origin := ⟨g.waybill, g.stream, g.tag⟩

/-- A signal that has come to its semaphore, and is taken there. -/
def Claim.signalComes (s : State) (n : Nat) (g : SemSig) : Prop :=
  s.net.signals[n]? = some g ∧ (s.sigTravel 0 n g.unit (g.sem / 256) (Claim.sigOrigin g)).1 = 0 ∧
    s.clusterHeld (g.sem / 256) = false ∧ s.semTakes g.lodging g.sem = true

/-- SEMAPHORE_SIGNAL, SEMAPHORE_WAIT and SEM_GRANT_ARRIVAL, R220-R223: a message that has not come to its destination, because an
output on its way grants nothing, a buffer has no room or its source has its full number of messages in flight, changes nothing
but places in the network. -/
def Claim.messageOnItsWay : Prop :=
  (∀ (n : Nat) (g : SemSig) (s : State), s.net.signals[n]? = some g →
    (s.sigTravel 0 n g.unit (g.sem / 256) (Claim.sigOrigin g)).1 = 2 →
    ∃ t, exec (.semaphoreSignal n) s = .next t ∧ t.still = s.still) ∧
  (∀ (n : Nat) (w : SemWait) (s : State), s.net.waitMsgs[n]? = some w →
    (s.sigTravel 1 n (s.waiter w).1 (w.sem / 256) (Claim.waitOrigin s w)).1 = 2 →
    ∃ t, exec (.semaphoreWait n) s = .next t ∧ t.still = s.still) ∧
  (∀ (n : Nat) (g : SemGrant) (s : State), s.net.grants[n]? = some g →
    (s.sigTravel 2 n (unitCl (g.sem / 256) 0) (if g.seq then g.who / 16 else g.who / 28) ⟨0, 0, 0⟩).1 = 2 →
    ∃ t, exec (.semGrantArrival n) s = .next t ∧ t.still = s.still)

/-- SEMAPHORE_WAIT, R100: waits are served strictly in the order in which they entered the queue: one at the head that cannot be
met holds back every later wait on its semaphore, even a smaller one. -/
def Claim.semaphoreOrder : Prop :=
  ∀ (n : Nat) (h w : SemWait) (s : State), Claim.waitComes s n w →
    s.ms.semQueue.find? (fun q => q.sem == w.sem) = some h →
    s.fld fCL_SEM_COUNT (w.sem / 256) (w.sem % 256) < h.amount →
    ∃ t, exec (.semaphoreWait n) s = .next t ∧ t.regs = s.regs ∧ t.still.net.grants = s.still.net.grants ∧
      t.ms.semQueue = s.ms.semQueue ++ [{ w with pos := none }]

/-- SEMAPHORE_SIGNAL, R99: a signal of amount 0 changes nothing; one that would carry the count above 0xFFFF_FFFF leaves it there
and raises event 0x4201. -/
def Claim.semaphoreSignalEdges : Prop :=
  ∀ (n : Nat) (g : SemSig) (s : State), Claim.signalComes s n g →
    (g.amount = 0 → ∃ t, exec (.semaphoreSignal n) s = .next t ∧ t.regs = s.regs ∧ t.mem = s.mem ∧
      t.still.net.signals = s.still.net.signals.eraseIdx n) ∧
    (Claim.noWaiter s (g.sem / 256) (g.sem % 256) → s.fld fMG_LEDGER_STATUS_UNREAD = 0 →
      s.fld fMG_LEDGER_READ_READ < 1024 → 2 ^ 32 ≤ s.fld fCL_SEM_COUNT (g.sem / 256) (g.sem % 256) + g.amount →
      ∃ t r, exec (.semaphoreSignal n) s = .next t ∧ t.fld fCL_SEM_COUNT (g.sem / 256) (g.sem % 256) = 0xFFFFFFFF ∧
        t.recAt (s.fld fMG_LEDGER_READ_READ) = some r ∧ r.event = 0x4201 ∧ r.tag = g.tag)

/-- SEM_WRITE_ADD, R99: an addition that would carry the count above 0xFFFF_FFFF leaves it there, and SEM_OVERFLOW is set. -/
def Claim.semOverflow : Prop :=
  ∀ (rq : Rq) (c k v : Nat) (s : State), c < 48 → k < 256 → v < 2 ^ 32 → s.regGate rq c = none → Claim.noWaiter s c k →
    2 ^ 32 ≤ s.fld fCL_SEM_COUNT c k + v →
    ∃ t, exec (.semWriteAdd rq c k v) s = .next t ∧ t.fld fCL_SEM_COUNT c k = 0xFFFFFFFF ∧
      t.fld fCL_MEM_STATUS_SEM_OVERFLOW c = 1

/-- SEMAPHORE_SIGNAL, R99: a signal taken by its semaphore raises the count by its amount, and is on its way no longer. -/
def Claim.semaphoreSignal : Prop :=
  ∀ (n : Nat) (g : SemSig) (s : State), Claim.signalComes s n g → g.amount ≠ 0 →
    Claim.noWaiter s (g.sem / 256) (g.sem % 256) →
    s.fld fCL_SEM_COUNT (g.sem / 256) (g.sem % 256) + g.amount < 2 ^ 32 →
    ∃ t, exec (.semaphoreSignal n) s = .next t ∧
      t.fld fCL_SEM_COUNT (g.sem / 256) (g.sem % 256) =
        s.fld fCL_SEM_COUNT (g.sem / 256) (g.sem % 256) + g.amount ∧
      t.still.net.signals = s.still.net.signals.eraseIdx n ∧ t.mem = s.mem ∧
      s.regsKept t [rkey rCL_SEM (g.sem / 256) (g.sem % 256)]

/-- SEMAPHORE_WAIT, R100: a wait at a semaphore without waiters is granted when the count covers it, which is lowered by the
amount in the same step, and waits in the queue when it does not. -/
def Claim.semaphoreWait : Prop :=
  ∀ (n : Nat) (w : SemWait) (s : State), Claim.waitComes s n w → Claim.noWaiter s (w.sem / 256) (w.sem % 256) →
    ∃ t, exec (.semaphoreWait n) s = .next t ∧ t.still.net.waitMsgs = s.still.net.waitMsgs.eraseIdx n ∧ t.mem = s.mem ∧
      s.regsKept t [rkey rCL_SEM (w.sem / 256) (w.sem % 256)] ∧
      (w.amount ≤ s.fld fCL_SEM_COUNT (w.sem / 256) (w.sem % 256) →
        t.fld fCL_SEM_COUNT (w.sem / 256) (w.sem % 256) =
          s.fld fCL_SEM_COUNT (w.sem / 256) (w.sem % 256) - w.amount ∧
        t.ms.semQueue = s.ms.semQueue ∧
        t.still.net.grants = s.still.net.grants ++ [{ sem := w.sem, seq := w.seq, who := w.who, amount := w.amount }]) ∧
      (s.fld fCL_SEM_COUNT (w.sem / 256) (w.sem % 256) < w.amount →
        t.fld fCL_SEM_COUNT (w.sem / 256) (w.sem % 256) = s.fld fCL_SEM_COUNT (w.sem / 256) (w.sem % 256) ∧
        t.ms.semQueue = s.ms.semQueue ++ [{ w with pos := none }] ∧ t.still.net.grants = s.still.net.grants)

/-- SEM_GRANT_ARRIVAL, R100, R105: a grant that has come to its waiter and finds its core waiting lets it run on past the wait; one
that finds nobody goes back to its semaphore as a signal. -/
def Claim.semGrantArrival : Prop :=
  ∀ (n : Nat) (g : SemGrant) (s : State), s.net.grants[n]? = some g →
    (s.sigTravel 2 n (unitCl (g.sem / 256) 0) (if g.seq then g.who / 16 else g.who / 28) ⟨0, 0, 0⟩).1 = 0 →
    (g.seq = false → g.who < 1344 → s.awaits g = true →
      ∃ t, exec (.semGrantArrival n) s = .next t ∧ t.still.net.grants = s.still.net.grants.eraseIdx n ∧
        nget t.core.wait g.who = 0 ∧ t.fld fCO_CORE_STATUS_STATE g.who = 1 ∧
        t.fld fCO_CORE_STATUS_PC g.who = (s.fld fCO_CORE_STATUS_PC g.who + 4) % 2 ^ 40 ∧ t.mem = s.mem ∧
        s.regsKept t [rkey rCO_CORE_STATUS g.who 0]) ∧
    (s.awaits g = false →
      ∃ t, exec (.semGrantArrival n) s = .next t ∧ t.still.net.grants = s.still.net.grants.eraseIdx n ∧ t.regs = s.regs ∧
        t.mem = s.mem ∧ (∃ x, t.still.net.signals = s.still.net.signals ++ [x] ∧ x.sem = g.sem ∧ x.amount = g.amount))

/-- Writes of semaphores. -/
def Obligations.SemaphoreCountsAreWritten : Prop :=
  Claim.semWrite ∧ Claim.semWriteServes ∧ Claim.semOverflow

/-- Waits and grants of semaphores. -/
def Obligations.SemaphoreWaitsAreServedInOrder : Prop :=
  Claim.semaphoreWait ∧ Claim.semaphoreOrder ∧ Claim.semGrantArrival ∧ Claim.messageOnItsWay

/-! ### Instructions of a core's own program (chapter 5) -/

/-- What an instruction that goes on to the next leaves alone: nothing changes but registers of the core's own (each claim says
which), free values drawn, the program counter, which advances by one word modulo 2^40, and the numeric status, which gains the
bits `fl` (R54). -/
def Claim.issued (s t : State) (u fl : Nat) : Prop :=
  t = { s with regs := t.regs, fresh := t.fresh,
               core := { s.core with s := t.core.s, p := t.core.p, v := t.core.v, d := t.core.d, lfsr := t.core.lfsr } } ∧
    s.regsKept t [rkey rCO_CORE_STATUS u 0, rkey rCO_NUM_STATUS u 0] ∧
    t.reg rCO_NUM_STATUS u 0 = s.reg rCO_NUM_STATUS u 0 ||| BitVec.ofNat 64 fl ∧
    t.fld fCO_CORE_STATUS_PC u = (s.fld fCO_CORE_STATUS_PC u + 4) % 2 ^ 40 ∧
    (∀ lo w, lo + w ≤ 24 → fieldOf lo w (t.reg rCO_CORE_STATUS u 0).toNat = fieldOf lo w (s.reg rCO_CORE_STATUS u 0).toNat)

/-- One scalar register of a slot takes a word, s0 discarding it (R124); every other one of every slot is as it was. -/
def Claim.sTook (s t : State) (u d : Nat) (w : Word) : Prop :=
  ∀ v r, r < 32 → t.sReg v r = if v = u ∧ r = d ∧ r ≠ 0 then w else s.sReg v r

/-- One predicate of a slot takes a word, p0 discarding it. -/
def Claim.pTook (s t : State) (u d : Nat) (w : Word) : Prop :=
  ∀ v r, r < 8 → t.pReg v r = if v = u ∧ r = d ∧ r ≠ 0 then w else s.pReg v r

/-- A scalar result: the destination, the status bits and the program counter, and nothing else. -/
def Claim.scalar (s t : State) (u d : Nat) (w : Word) (fl : Nat) : Prop :=
  Claim.issued s t u fl ∧ Claim.sTook s t u d w ∧ t.core.p = s.core.p ∧ t.core.v = s.core.v ∧ t.core.d = s.core.d ∧
    t.core.lfsr = s.core.lfsr ∧ t.fresh = s.fresh

/-- A predicate result. -/
def Claim.predicate (s t : State) (u d : Nat) (w : Word) : Prop :=
  Claim.issued s t u 0 ∧ Claim.pTook s t u d w ∧ t.core.s = s.core.s ∧ t.core.v = s.core.v ∧ t.core.d = s.core.d ∧
    t.core.lfsr = s.core.lfsr ∧ t.fresh = s.fresh

/-- An instruction of the program whose predicate lets it execute: the core issues and awaits none of the registers. -/
def Claim.executes (s : State) (u : Nat) (x : Payload) (regs : List Nat) : Prop :=
  s.issues u regs = true ∧ s.predOk u (xPred x) (xNeg x) = true

/-- Table 5.7, the integer functions: the exact number, which the result is modulo 2^64 (R134). -/
def Claim.aluNumber (fn : Nat) (a b : Word) : Option Int :=
  match fn with
  | 0x00 => some (a.toInt + b.toInt)
  | 0x01 => some (a.toInt - b.toInt)
  | 0x05 => some (a.toNat * 2 ^ (b.toNat % 64))
  | 0x06 => some (a.toNat / 2 ^ (b.toNat % 64))
  | 0x07 => some (Int.fdiv a.toInt (2 ^ (b.toNat % 64)))
  | 0x08 => some (a.toInt * b.toInt)
  | 0x09 => some (a.toNat * b.toNat / 2 ^ 64)
  | 0x0A => some (if b.toInt = 0 then -1 else Int.tdiv a.toInt b.toInt)
  | 0x0B => some (if b.toNat = 0 then -1 else a.toNat / b.toNat)
  | 0x0C => some (if b.toInt = 0 then a.toInt else Int.tmod a.toInt b.toInt)
  | 0x0D => some (if b.toNat = 0 then a.toNat else a.toNat % b.toNat)
  | 0x0E => some (min a.toInt b.toInt)
  | 0x0F => some (max a.toInt b.toInt)
  | _ => none

/-- ALU, R134, Table 5.7: integer functions by exact arithmetic modulo 2^64, with R134's awkward cases of division; the bitwise
ones bit by bit; the FP32 functions in bits 31:0 with zeros above and the status bits they raise; F2I. -/
def Claim.alu : Prop :=
  ∀ (u : Nat) (x : Payload) (s : State), Claim.executes s u x [xD x, xA x, xB x] →
    (∀ n, Claim.aluNumber (xFn x) (s.sReg u (xA x)) (s.sReg u (xB x)) = some n →
      ∃ t, exec (.alu u x) s = .next t ∧ Claim.scalar s t u (xD x) (BitVec.ofInt 64 n) 0) ∧
    (∀ f : Bool → Bool → Bool, (xFn x = 0x02 ∧ f = and) ∨ (xFn x = 0x03 ∧ f = or) ∨ (xFn x = 0x04 ∧ f = xor) →
      ∃ t w, exec (.alu u x) s = .next t ∧ Claim.scalar s t u (xD x) w 0 ∧
        ∀ i, i < 64 → w.getLsbD i = f ((s.sReg u (xA x)).getLsbD i) ((s.sReg u (xB x)).getLsbD i)) ∧
    (∀ p, aluFp (xFn x) (s.sReg u (xA x)) (s.sReg u (xB x)) = some p →
      ∃ t, exec (.alu u x) s = .next t ∧ Claim.scalar s t u (xD x) (p.1.setWidth 64) p.2) ∧
    (xFn x = 0x18 →
      ∃ t, exec (.alu u x) s = .next t ∧ Claim.scalar s t u (xD x) (f2i ((s.sReg u (xA x)).setWidth 32)) 0)

/-- ADDI, ANDI, ORI and XORI, R135: the immediate is sign-extended. -/
def Claim.immediates : Prop :=
  ∀ (u : Nat) (x : Payload) (s : State), Claim.executes s u x [xD x, xA x] →
    (∃ t, exec (.addi u x) s = .next t ∧
      Claim.scalar s t u (xD x) (BitVec.ofInt 64 ((s.sReg u (xA x)).toInt + signed 12 x.toNat)) 0) ∧
    (∃ t, exec (.andi u x) s = .next t ∧
      Claim.scalar s t u (xD x) (s.sReg u (xA x) &&& BitVec.ofInt 64 (signed 12 x.toNat)) 0) ∧
    (∃ t, exec (.ori u x) s = .next t ∧
      Claim.scalar s t u (xD x) (s.sReg u (xA x) ||| BitVec.ofInt 64 (signed 12 x.toNat)) 0) ∧
    (∃ t, exec (.xori u x) s = .next t ∧
      Claim.scalar s t u (xD x) (s.sReg u (xA x) ^^^ BitVec.ofInt 64 (signed 12 x.toNat)) 0)

/-- SHI, R135: IMM12[7:6] the kind, IMM12[5:0] the amount, IMM12[11:8] zero; anything else faults with 0x4101. -/
def Claim.shi : Prop :=
  ∀ (u : Nat) (x : Payload) (s : State), Claim.executes s u x [xD x, xA x] →
    (∀ w : Word, fieldOf 8 4 x.toNat = 0 →
      (fieldOf 6 2 x.toNat = 0 ∧ w = BitVec.ofNat 64 ((s.sReg u (xA x)).toNat * 2 ^ fieldOf 0 6 x.toNat)) ∨
        (fieldOf 6 2 x.toNat = 1 ∧ w = BitVec.ofNat 64 ((s.sReg u (xA x)).toNat / 2 ^ fieldOf 0 6 x.toNat)) ∨
        (fieldOf 6 2 x.toNat = 2 ∧ w = BitVec.ofInt 64 (Int.fdiv (s.sReg u (xA x)).toInt (2 ^ fieldOf 0 6 x.toNat))) →
      ∃ t, exec (.shi u x) s = .next t ∧ Claim.scalar s t u (xD x) w 0) ∧
    (fieldOf 8 4 x.toNat ≠ 0 ∨ fieldOf 6 2 x.toNat = 3 → exec (.shi u x) s = .next (s.progFault u 0x4101 0))

/-- LIH, R135: IMM16 in bits 16 × POS + 15 : 16 × POS, the other bits cleared or kept. -/
def Claim.lih : Prop :=
  ∀ (u : Nat) (x : Payload) (s : State), s.issues u [lihRd x] = true → fieldOf 16 2 x.toNat = 0 →
    ∃ t w, exec (.lih u x) s = .next t ∧ Claim.scalar s t u (lihRd x) w 0 ∧
      ∀ j, j < 4 → fieldOf (16 * j) 16 w.toNat =
        if j = lihPos x then fieldOf 0 16 x.toNat
        else if x.getLsbD 18 then 0 else fieldOf (16 * j) 16 (s.sReg u (lihRd x)).toNat

/-- Table 5.8, the integer conditions, over the exact numbers. -/
def Claim.condition (c : Nat) (a b : Word) : Option Bool :=
  match c with
  | 0 => some (decide (a.toNat = b.toNat))
  | 1 => some (decide (a.toNat ≠ b.toNat))
  | 2 => some (decide (a.toInt < b.toInt))
  | 3 => some (decide (b.toInt ≤ a.toInt))
  | 4 => some (decide (a.toNat < b.toNat))
  | 5 => some (decide (b.toNat ≤ a.toNat))
  | 6 => some (condFp 6 (a.setWidth 32) (b.setWidth 32))
  | 7 => some (condFp 7 (a.setWidth 32) (b.setWidth 32))
  | 8 => some (condFp 8 (a.setWidth 32) (b.setWidth 32))
  | 9 => some (condFp 9 (a.setWidth 32) (b.setWidth 32))
  | 10 => some (condFp 10 (a.setWidth 32) (b.setWidth 32))
  | 11 => some (condFp 11 (a.setWidth 32) (b.setWidth 32))
  | _ => none

/-- CMP, R135, R136: the result goes to all 64 bits of the predicate. -/
def Claim.cmp : Prop :=
  ∀ (u : Nat) (x : Payload) (r : Bool) (s : State), Claim.executes s u x [xA x, xB x] → xD x < 8 →
    Claim.condition (xFn x) (s.sReg u (xA x)) (s.sReg u (xB x)) = some r →
    ∃ t, exec (.cmp u x) s = .next t ∧ Claim.predicate s t u (xD x) (if r then BitVec.allOnes 64 else 0#64)

/-- CMP and PLOG, R135: FN[6:4] and RD[4:3] of CMP that are not 0, and the reserved functions of PLOG, fault. -/
def Claim.cmpPlogReserved : Prop :=
  ∀ (u : Nat) (x : Payload) (s : State),
    (Claim.executes s u x [xA x, xB x] → fieldOf 4 3 (xFn x) ≠ 0 ∨ fieldOf 3 2 (xD x) ≠ 0 →
      exec (.cmp u x) s = .next (s.progFault u 0x4101 0)) ∧
    (Claim.executes s u x [xD x, xA x] → 6 < xFn x → exec (.plog u x) s = .next (s.progFault u 0x4101 0))

/-- PLOG, R135: functions 0 to 4 bit by bit, 5 and 6 between a predicate and a scalar. -/
def Claim.plog : Prop :=
  ∀ (u : Nat) (x : Payload) (s : State), Claim.executes s u x [xD x, xA x] →
    (∀ f : Bool → Bool → Bool, (xFn x = 0 ∧ f = and) ∨ (xFn x = 1 ∧ f = or) ∨ (xFn x = 2 ∧ f = xor) ∨
        (xFn x = 3 ∧ f = fun a b => a && !b) ∨ (xFn x = 4 ∧ f = fun a _ => !a) →
      ∃ t w, exec (.plog u x) s = .next t ∧ Claim.predicate s t u (xD x % 8) w ∧
        ∀ i, i < 64 → w.getLsbD i = f ((s.pReg u (xA x % 8)).getLsbD i) ((s.pReg u (xB x % 8)).getLsbD i)) ∧
    (xFn x = 5 → ∃ t, exec (.plog u x) s = .next t ∧ Claim.predicate s t u (xD x % 8) (s.sReg u (xA x))) ∧
    (xFn x = 6 → ∃ t, exec (.plog u x) s = .next t ∧ Claim.scalar s t u (xD x) (s.pReg u (xA x % 8)) 0)

/-- DSET, R143: an extent of level k (functions 0 to 5), where the value fits: the field takes it, every field that lies apart is
as it was, and no other descriptor changes. -/
def Claim.dset : Prop :=
  ∀ (u : Nat) (x : Payload) (s : State), Claim.executes s u x [xA x] → xB x = 0 → xD x < 16 → xFn x < 6 →
    (s.sReg u (xA x)).toNat < 2 ^ 32 →
    (descLevels (s.dReg u (xD x)) ≤ 4 ∨ 3 ≤ s.level u) →
    ∃ t, exec (.dset u x) s = .next t ∧ Claim.issued s t u 0 ∧ t.core.s = s.core.s ∧ t.core.p = s.core.p ∧
      t.core.v = s.core.v ∧ t.core.lfsr = s.core.lfsr ∧
      descCount (t.dReg u (xD x)) (xFn x) = (s.sReg u (xA x)).toNat ∧
      (∀ lo w, (lo + w ≤ 32 * xFn x ∨ 32 * xFn x + 32 ≤ lo) → lo + w ≤ 512 →
        descBits (t.dReg u (xD x)) lo w = descBits (s.dReg u (xD x)) lo w) ∧
      (∀ v r, r < 16 → ¬ (v = u ∧ r = xD x) → t.dReg v r = s.dReg v r)

/-- ALU and DSET. -/
def Obligations.AluAndDsetComputeTheirResults : Prop := Claim.alu ∧ Claim.dset

/-- Only the program counter of a slot changes, to a value. -/
def Claim.jumped (s t : State) (u pc : Nat) : Prop :=
  t = { s with regs := t.regs } ∧ s.regsKept t [rkey rCO_CORE_STATUS u 0] ∧ t.fld fCO_CORE_STATUS_PC u = pc ∧
    (∀ lo w, lo + w ≤ 24 → fieldOf lo w (t.reg rCO_CORE_STATUS u 0).toNat = fieldOf lo w (s.reg rCO_CORE_STATUS u 0).toNat)

/-- BR and J, R135: to the instruction's own address plus 4 × the displacement, modulo 2^40; BR goes on where the condition does
not hold. -/
def Claim.branches : Prop :=
  (∀ (u : Nat) (x : Payload) (r : Bool) (s : State), s.issues u [xD x, xA x] = true →
    Claim.condition (fieldOf 22 4 x.toNat) (s.sReg u (xD x)) (s.sReg u (xA x)) = some r →
    ∃ t, exec (.br u x) s = .next t ∧
      Claim.jumped s t u (if r then (((s.pc u : Int) + 4 * signed 12 x.toNat) % 2 ^ 40).toNat else (s.pc u + 4) % 2 ^ 40)) ∧
  (∀ (u : Nat) (x : Payload) (s : State), Claim.executes s u x [] →
    ∃ t, exec (.j u x) s = .next t ∧ Claim.jumped s t u (((s.pc u : Int) + 4 * signed 22 x.toNat) % 2 ^ 40).toNat)

/-- JR, R135: sA, read first, is the target; sD takes the address of the next instruction. A target that is no multiple of 4 below
2^40 raises fault 0x4102. -/
def Claim.jr : Prop :=
  ∀ (u : Nat) (x : Payload) (s : State), Claim.executes s u x [xD x, xA x] →
    ((s.sReg u (xA x)).toNat % 4 = 0 → (s.sReg u (xA x)).toNat < 2 ^ 40 →
      ∃ t, exec (.jr u x) s = .next t ∧ t.fld fCO_CORE_STATUS_PC u = (s.sReg u (xA x)).toNat ∧
        Claim.sTook s t u (xD x) (BitVec.ofNat 64 ((s.pc u + 4) % 2 ^ 40)) ∧ s.regsKept t [rkey rCO_CORE_STATUS u 0] ∧
        t = { s with regs := t.regs, core := { s.core with s := t.core.s } }) ∧
    ((s.sReg u (xA x)).toNat % 4 ≠ 0 ∨ 2 ^ 40 ≤ (s.sReg u (xA x)).toNat →
      exec (.jr u x) s = .next (s.progFault u 0x4102 (s.sReg u (xA x)).toNat))

/-- R135, whole. -/
def Obligations.RemainingScalarInstructionsWorkAsLaidDown : Prop :=
  Claim.immediates ∧ Claim.shi ∧ Claim.lih ∧ Claim.cmp ∧ Claim.plog ∧ Claim.cmpPlogReserved ∧ Claim.branches ∧ Claim.jr

/-- SYS NOP, FENCE with nothing of its classes under way, and SEMWAIT of amount 0: the next instruction, and nothing else
(Table 5.9, R100). -/
def Claim.sysOnward : Prop :=
  (∀ (u : Nat) (x : Payload) (s : State), Claim.executes s u x [] → xFn x = 0 →
    ∃ t, exec (.sysNop u x) s = .next t ∧ Claim.jumped s t u ((s.pc u + 4) % 2 ^ 40)) ∧
  (∀ (u : Nat) (x : Payload) (s : State), Claim.executes s u x [] → xFn x = 2 → s.fencePending u (xB x % 16) = false →
    ∃ t, exec (.sysFence u x) s = .next t ∧ Claim.jumped s t u ((s.pc u + 4) % 2 ^ 40)) ∧
  (∀ (u : Nat) (x : Payload) (s : State), Claim.executes s u x [xA x] → xFn x = 3 →
    semWordOk (s.sReg u (xA x)).toNat = true → semAmount (s.sReg u (xA x)).toNat = 0 →
    ∃ t, exec (.semwait u x) s = .next t ∧ Claim.jumped s t u ((s.pc u + 4) % 2 ^ 40))

/-- FENCE with work of its classes under way, and SEMWAIT of an amount: the core waits (STATE 2) at the same address, SEMWAIT with
its wait message on its way (R100, R137). -/
def Claim.sysWait : Prop :=
  (∀ (u : Nat) (x : Payload) (s : State), Claim.executes s u x [] → xFn x = 2 → s.fencePending u (xB x % 16) = true →
    ∃ t, exec (.sysFence u x) s = .next t ∧ t.fld fCO_CORE_STATUS_STATE u = 2 ∧ nget t.core.wait u = 2 ∧
      t.pc u = s.pc u ∧ t.mem = s.mem ∧ t.core.s = s.core.s ∧ s.regsKept t [rkey rCO_CORE_STATUS u 0]) ∧
  (∀ (u : Nat) (x : Payload) (s : State), Claim.executes s u x [xA x] → xFn x = 3 →
    semWordOk (s.sReg u (xA x)).toNat = true → semAmount (s.sReg u (xA x)).toNat ≠ 0 →
    ∃ t, exec (.semwait u x) s = .next t ∧ t.fld fCO_CORE_STATUS_STATE u = 2 ∧ nget t.core.wait u = 1 ∧
      t.net.waitMsgs = s.net.waitMsgs ++
        [{ sem := semName (s.sReg u (xA x)).toNat, seq := false, who := u, amount := semAmount (s.sReg u (xA x)).toNat }] ∧
      t.pc u = s.pc u ∧ t.mem = s.mem ∧ t.core.s = s.core.s ∧ s.regsKept t [rkey rCO_CORE_STATUS u 0])

/-- SEMSIG of a core with no long instruction under way and no store unanswered, R99, R102: its signal is on its way, with the
core's unit, lodging and waybill; otherwise the signal is held until these have ended. -/
def Claim.semsig : Prop :=
  ∀ (u : Nat) (x : Payload) (s : State), Claim.executes s u x [xA x] → xFn x = 4 →
    semWordOk (s.sReg u (xA x)).toNat = true →
    (s.core.ops.any (fun o => o.u == u) = false → s.net.resps.any (fun r => r.rq == .core u) = false →
      ∃ t, exec (.semsig u x) s = .next t ∧ t.pc u = (s.pc u + 4) % 2 ^ 40 ∧ t.mem = s.mem ∧ t.core = s.core ∧
        s.regsKept t [rkey rCO_CORE_STATUS u 0] ∧
        ∃ g, t.net.signals = s.net.signals ++ [g] ∧ g.sem = semName (s.sReg u (xA x)).toNat ∧
          g.amount = semAmount (s.sReg u (xA x)).toNat ∧ g.waybill = nget s.core.waybill u ∧ g.unit = unitIssue u ∧
          g.lodging = (s.ownerOf (u / 28)).getD 0xFF ∧ g.stream = nget s.core.stream u) ∧
    (s.core.ops.any (fun o => o.u == u) = true ∨ s.net.resps.any (fun r => r.rq == .core u) = true →
      ∃ t h, exec (.semsig u x) s = .next t ∧ t.pc u = (s.pc u + 4) % 2 ^ 40 ∧ t.mem = s.mem ∧ t.net = s.net ∧
        s.regsKept t [rkey rCO_CORE_STATUS u 0] ∧ t.core = { s.core with heldSigs := s.core.heldSigs ++ [h] } ∧
        h.sem = semName (s.sReg u (xA x)).toNat ∧ h.amount = semAmount (s.sReg u (xA x)).toNat ∧
        (∀ o, o ∈ s.core.ops → o.u = u → o.id ∈ h.after) ∧
        (∀ r, r ∈ s.net.resps → r.rq = .core u → r.id ∈ h.acks))

/-- ICINV, R156: the core's cache holds no line; every other core's is as it was. -/
def Claim.icinv : Prop :=
  ∀ (u : Nat) (x : Payload) (s : State), Claim.executes s u x [] → xFn x = 5 →
    ∃ t, exec (.sysIcinv u x) s = .next t ∧ t.pc u = (s.pc u + 4) % 2 ^ 40 ∧ t.mem = s.mem ∧
      s.regsKept t [rkey rCO_CORE_STATUS u 0] ∧ (∀ l, l ∈ t.core.icache ↔ l ∈ s.core.icache ∧ l.u ≠ u) ∧
      t = { s with regs := t.regs, core := { s.core with icache := t.core.icache } }

/-- END, R137, and PROGRAM_END, R178: END issues nothing further (STATE 3); the program ends (STATE 0) when every earlier long
instruction has completed. -/
def Claim.programEnds : Prop :=
  (∀ (u : Nat) (x : Payload) (s : State), Claim.executes s u x [] → xFn x = 1 →
    ∃ t, exec (.sysEnd u x) s = .next t ∧ t.fld fCO_CORE_STATUS_STATE u = 3 ∧ t = { s with regs := t.regs } ∧
      s.regsKept t [rkey rCO_CORE_STATUS u 0]) ∧
  (∀ (u : Nat) (s : State), s.fld fCO_CORE_STATUS_STATE u = 3 → s.core.ops.any (fun o => o.u == u) = false →
    ∃ t, exec (.programEnd u) s = .next t ∧ t.fld fCO_CORE_STATUS_STATE u = 0 ∧ t.mem = s.mem ∧ t.core = s.core ∧
      s.regsKept t [rkey rCO_CORE_STATUS u 0])

/-- RDTIME, RDCORE and RDBASE, Table 5.9: the site time of the core's region (next to the master count, log 9); the numbers of the
core; the address of its own sub-window (R85). -/
def Claim.sysReads : Prop :=
  (∀ (u : Nat) (x : Payload) (s : State), Claim.executes s u x [xD x] → xFn x = 7 →
    ∃ t, exec (.rdtime u x) s = .next t ∧ Claim.scalar s t u (xD x) (BitVec.ofNat 64 (s.regionNow (u / 28))) 0) ∧
  (∀ (u : Nat) (x : Payload) (s : State), u < 1344 → Claim.executes s u x [xD x] → xFn x = 8 →
    ∃ t w, exec (.rdcore u x) s = .next t ∧ Claim.scalar s t u (xD x) w 0 ∧ w.toNat < 2 ^ 16 ∧
      fieldOf 0 5 w.toNat = s.logicalOf u ∧ fieldOf 5 6 w.toNat = u / 28 ∧
      fieldOf 11 3 w.toNat = s.fld fCL_OWNER_LODGING (u / 28) ∧ fieldOf 14 2 w.toNat = s.fld fCO_CORE_STATUS_LEVEL u) ∧
  (∀ (u : Nat) (x : Payload) (s : State), Claim.executes s u x [xD x] → xFn x = 10 →
    ∃ t, exec (.rdbase u x) s = .next t ∧ Claim.scalar s t u (xD x)
      (BitVec.ofNat 64 (0x010000000000 + 0x10000000 * (u / 28) + 0x08000000 + 0x200000 * s.logicalOf u)) 0)

/-- QPUT, R186: at contract level 3, into a slot that is free and that no REDUCE_Q awaits: the slot holds the contribution. -/
def Claim.qput : Prop :=
  ∀ (u : Nat) (x : Payload) (n : Nat) (s : State), Claim.executes s u x [xA x, xB x] → xFn x = 9 → 3 ≤ s.level u →
    n = (s.sReg u (xB x)).toNat % 16 → nget s.core.slotFull (redKey (u / 28) (s.logicalOf u) n) ≠ 1 →
    s.reduceWaits (u / 28) n = [] →
    ∃ t, exec (.qput u x) s = .next t ∧ t.pc u = (s.pc u + 4) % 2 ^ 40 ∧ t.mem = s.mem ∧
      nget t.core.slotFull (redKey (u / 28) (s.logicalOf u) n) = 1 ∧
      mget zeroW t.core.slotVal (redKey (u / 28) (s.logicalOf u) n) = s.sReg u (xA x) ∧
      s.regsKept t [rkey rCO_CORE_STATUS u 0] ∧ t.core.s = s.core.s

/-- SYS, and the end of a program. -/
def Obligations.SysInstructionsDoWhatTheySay : Prop :=
  Claim.sysOnward ∧ Claim.sysWait ∧ Claim.semsig ∧ Claim.icinv ∧ Claim.programEnds ∧
    Claim.sysReads ∧ Claim.qput

/-- The commands that R133's first point covers: scalar, control and system instructions with a predicate. -/
def Claim.predicatedCommands (u : Nat) (x : Payload) : List Instr :=
  [.alu u x, .addi u x, .andi u x, .ori u x, .xori u x, .shi u x, .cmp u x, .plog u x, .ld u x, .st u x, .j u x, .jr u x,
   .ldd u x, .std u x, .dset u x] ++
  ([(0, .sysNop u x), (1, .sysEnd u x), (2, .sysFence u x), (3, .semwait u x), (4, .semsig u x), (5, .sysIcinv u x),
    (6, .sysTrap u x), (7, .rdtime u x), (8, .rdcore u x), (9, .qput u x), (10, .rdbase u x)].filter
      (fun (p : Nat × Instr) => p.1 == xFn x)).map Prod.snd

/-- R133 for the instructions of a core's own program. -/
def Obligations.FalsePredicateOnlyAdvances : Prop :=
  ∀ (u : Nat) (x : Payload) (s : State) (c : Instr), c ∈ Claim.predicatedCommands u x →
    (∀ regs, s.issues u regs = true) → s.lsFree u 1 = true → s.predOk u (xPred x) (xNeg x) = false →
    ∃ t, exec c s = .next t ∧ Claim.jumped s t u ((s.pc u + 4) % 2 ^ 40)

/-- The fault registers of a core as R157 has them, and its state; its registers, and memory where no mirror lies, as before. -/
def Claim.faulted (s t : State) (u event addr : Nat) : Prop :=
  t.fld fCO_CORE_STATUS_STATE u = 4 ∧ t.fld fCO_FAULT_EVENT u = event ∧ t.fld fCO_FAULT_ADDR_ADDR u = addr ∧
    t.fld fCO_FAULT_PC_PC u = s.pc u ∧ t.pc u = s.pc u ∧ t.fld fCO_FAULT_WAYBILL u = nget s.core.waybill u % 2 ^ 32 ∧
    t.core.s = s.core.s ∧ t.core.p = s.core.p ∧ t.core.v = s.core.v ∧ t.core.d = s.core.d ∧
    (s.fld fMG_LEDGER_MIRROR_BASE = 0 → t.mem = s.mem) ∧
    t.fld fMG_LEDGER_STATUS_WRITTEN = s.fld fMG_LEDGER_STATUS_WRITTEN + 1

/-- R157, for the instructions that fault by themselves. -/
def Obligations.CoreFaultsTakeTheFaultRegisters : Prop :=
  ∀ (u : Nat) (x : Payload) (s : State), u < 1344 → s.fld fCO_FAULT_EVENT u = 0 →
    s.fld fGL_STREAM7_STATE 0 (nget s.core.stream u) ≠ 3 → nget s.core.stream u < 65536 →
    s.fld fMG_LEDGER_STATUS_UNREAD = 0 → s.fld fMG_LEDGER_STATUS_WRITTEN + 1 < 2 ^ 32 →
    (Claim.executes s u x [xA x] → xFn x = 6 →
      ∃ t, exec (.sysTrap u x) s = .next t ∧ Claim.faulted s t u 0x4107 ((s.sReg u (xA x)).toNat % 2 ^ 48)) ∧
    (∀ word : BitVec 32, s.issues u [] = true → reservedOpc (word.toNat / 2 ^ 26) = true →
      ∃ t, exec (.reservedOpcode u false word) s = .next t ∧ Claim.faulted s t u 0x4101 0) ∧
    (Claim.executes s u x [xD x, xA x, xB x] → 0x18 < xFn x →
      ∃ t, exec (.alu u x) s = .next t ∧ Claim.faulted s t u 0x4101 0) ∧
    (Claim.executes s u x [xA x, xB x] → 12 ≤ xFn x ∨ 8 ≤ xD x →
      ∃ t, exec (.cmp u x) s = .next t ∧ Claim.faulted s t u 0x4101 0) ∧
    (Claim.executes s u x [xD x, xA x] → 6 < xFn x →
      ∃ t, exec (.plog u x) s = .next t ∧ Claim.faulted s t u 0x4101 0)

/-! ### Loads, stores and vector instructions -/

/-- What a load of a core leaves alone: memory, every register word but the program counter's, every other register file. -/
def Claim.loadFrame (s t : State) (u : Nat) : Prop :=
  t.mem = s.mem ∧ t.pc u = (s.pc u + 4) % 2 ^ 40 ∧ s.regsKept t [rkey rCO_CORE_STATUS u 0] ∧ t.core.p = s.core.p ∧ t.out = s.out

/-- LD, R137: 2^SZ bytes at sA + IMM10 × 2^SZ, zero-extended, from where the request is served; t0 is the state that serving it
leaves, the corrected reading of flipped bits included (R280). -/
def Claim.ld : Prop :=
  ∀ (u : Nat) (x : Payload) (pa : Nat) (t0 s : State), Claim.executes s u x [xD x, xA x] → s.lsFree u 1 = true →
    lsFault (addrOf (s.sReg u (xA x)) (signed 10 x.toNat * 2 ^ xSz x)) (xSz x) = none →
    addrForm (addrOf (s.sReg u (xA x)) (signed 10 x.toNat * 2 ^ xSz x)) ≠ 2 →
    s.request (.core u) (addrOf (s.sReg u (xA x)) (signed 10 x.toNat * 2 ^ xSz x)) (2 ^ xSz x) true false false =
      (.ok pa, t0) →
    ∃ t, exec (.ld u x) s = .next t ∧ Claim.loadFrame t0 t u ∧ t.core.v = t0.core.v ∧ t.core.d = t0.core.d ∧
      Claim.sTook t0 t u (xD x) (BitVec.ofNat 64 (leNat ((List.range (2 ^ xSz x)).map (fun i => t0.rd (pa + i)))))

/-- Every access, R86-R91, R266-R269: one that is served, where no stored bit has flipped, changes no byte, no register, and
nothing of the cores; what may change is cached translations, with the free values that choose among them, the ostlers and the
places of messages. -/
def Claim.servedAccess : Prop :=
  ∀ (rq : Rq) (a n pa : Nat) (rd wr ex : Bool) (t0 s : State), s.ms.upsets = [] →
    s.request rq a n rd wr ex = (.ok pa, t0) →
    t0.still = { s.still with hbm := t0.still.hbm, fresh := t0.fresh }

/-- LD of control space, R6, R137: of an address that holds no register reads 0. -/
def Claim.ldNothing : Prop :=
  ∀ (u : Nat) (x : Payload) (s : State), Claim.executes s u x [xD x, xA x] → s.lsFree u 1 = true → xSz x = 3 →
    s.lsAddr u x % 8 = 0 → addrForm (s.lsAddr u x) = 2 → s.csRoute (.core u) (s.lsAddr u x) = 0 →
    s.csRefusal (.core u) (s.lsAddr u x) false = none → csDecode (s.lsAddr u x) = none →
    ∃ t0 t, exec (.ld u x) s = .next t ∧ t0.still = s.still ∧ Claim.scalar t0 t u (xD x) 0#64 0

/-- ST, R137: the low 2^SZ bytes of sD at the address; no other byte, and no register but the program counter; t0 is the state
that serving its request leaves. -/
def Claim.st : Prop :=
  ∀ (u : Nat) (x : Payload) (pa : Nat) (t0 s : State), Claim.executes s u x [xD x, xA x] → s.lsFree u 1 = true →
    lsFault (addrOf (s.sReg u (xA x)) (signed 10 x.toNat * 2 ^ xSz x)) (xSz x) = none →
    addrForm (addrOf (s.sReg u (xA x)) (signed 10 x.toNat * 2 ^ xSz x)) ≠ 2 →
    s.request (.core u) (addrOf (s.sReg u (xA x)) (signed 10 x.toNat * 2 ^ xSz x)) (2 ^ xSz x) false true false =
      (.ok pa, t0) →
    ∃ t, exec (.st u x) s = .next t ∧ t.pc u = (t0.pc u + 4) % 2 ^ 40 ∧ t0.regsKept t [rkey rCO_CORE_STATUS u 0] ∧
      t.core = t0.core ∧ t.out = t0.out ∧
      (∀ i, i < 2 ^ xSz x → (t.rd (pa + i)).toNat = (s.sReg u (xD x)).toNat / 256 ^ i % 256) ∧
      t0.bytesKept t (inSpan pa (2 ^ xSz x))

/-- LD and ST, R126, R137: a misaligned address faults with 0x4102, one of no form, or narrower than control space takes, with
0x4103. -/
def Claim.ldStFault : Prop :=
  ∀ (u : Nat) (x : Payload) (a : Nat) (s : State), Claim.executes s u x [xD x, xA x] → s.lsFree u 1 = true →
    a = addrOf (s.sReg u (xA x)) (signed 10 x.toNat * 2 ^ xSz x) →
    (a % 2 ^ xSz x ≠ 0 → exec (.ld u x) s = .next (s.progFault u 0x4102 a) ∧ exec (.st u x) s = .next (s.progFault u 0x4102 a)) ∧
    (a % 2 ^ xSz x = 0 → addrForm a = 3 ∨ (addrForm a = 2 ∧ xSz x ≠ 3) →
      exec (.ld u x) s = .next (s.progFault u 0x4103 a) ∧ exec (.st u x) s = .next (s.progFault u 0x4103 a))

/-- Lanes of one v register of a slot take values where the mask has a 1; every other lane of every register is as it was. -/
def Claim.vTook (s t : State) (u d : Nat) (m : Word) (xs : Nat → BitVec 32) : Prop :=
  ∀ v r k, r < 32 → k < 64 → t.vLane v r k = if v = u ∧ r = d ∧ m.getLsbD k = true then xs k else s.vLane v r k

/-- VLD, R138, of lanes that stand in one run: lane k + j takes the four bytes at the address plus 4 × (k + j), and the others
keep their values; t0 is the state that the reading leaves. -/
def Claim.vld : Prop :=
  ∀ (u : Nat) (x : Payload) (k n : Nat) (bs : List (BitVec 8)) (t0 s : State), s.issuesV u [xA x] = true →
    s.lsFree u (laneRequests (s.lanes u x)) = true → xSz x = 0 →
    lsFault64 (addrOf (s.sReg u (xA x)) (signed 10 x.toNat * 64)) 256 = none →
    (∀ i, i < 64 → (s.lanes u x).getLsbD i = decide (k ≤ i ∧ i < k + n)) → k + n ≤ 64 → 0 < n →
    s.readMem (.core u) (addrOf (s.sReg u (xA x)) (signed 10 x.toNat * 64) + 4 * k) (4 * n) = (.ok bs, t0) →
    ∃ t, exec (.vld u x) s = .next t ∧ Claim.loadFrame t0 t u ∧ t.core.s = t0.core.s ∧ t.core.d = t0.core.d ∧
      Claim.vTook t0 t u (xD x) (s.lanes u x)
        (fun i => BitVec.ofNat 32 (leNat ((bs.drop (4 * (i - k))).take 4)))

/-- VST, R138, to on-package SRAM, with no other message in the network: the lanes the mask leaves on, and no other byte. -/
def Claim.vst : Prop :=
  ∀ (u : Nat) (x : Payload) (pa : Nat) (s : State), s.issuesV u [xA x] = true →
    s.lsFree u (laneRequests (s.lanes u x)) = true → xSz x = 0 → s.traffic = [] →
    lsFault64 (addrOf (s.sReg u (xA x)) (signed 10 x.toNat * 64)) 256 = none →
    addrForm (addrOf (s.sReg u (xA x)) (signed 10 x.toNat * 64)) = 1 →
    (∀ q, q < 4 → s.request (.core u) (addrOf (s.sReg u (xA x)) (signed 10 x.toNat * 64) + 64 * q) 64 false true false =
      (.ok (pa + 64 * q), s)) →
    ∃ t, exec (.vst u x) s = .next t ∧ t.pc u = (s.pc u + 4) % 2 ^ 40 ∧ s.regsKept t [rkey rCO_CORE_STATUS u 0] ∧
      t.core = s.core ∧ t.out = s.out ∧
      (∀ k i, k < 64 → i < 4 → (s.lanes u x).getLsbD k = true →
        (t.rd (pa + 4 * k + i)).toNat = (s.vLane u (xD x) k).toNat / 256 ^ i % 256) ∧
      s.bytesKept t (fun a => ∃ k, k < 64 ∧ (s.lanes u x).getLsbD k = true ∧ inSpan (pa + 4 * k) 4 a)

/-- LDD and STD, R143: the 64 bytes of a descriptor; LDD takes one that keeps its must-be-0 fields and its level's bound; t0 is the
state that serving the request leaves. -/
def Claim.lddStd : Prop :=
  ∀ (u : Nat) (x : Payload) (a pa : Nat) (t0 s : State), Claim.executes s u x [xA x] → s.lsFree u 1 = true → xD x < 16 →
    xSz x = 0 → a = addrOf (s.sReg u (xA x)) (signed 10 x.toNat * 64) → lsFault64 a 64 = none →
    (s.request (.core u) a 64 true false false = (.ok pa, t0) →
      descOk (wordsOf 8 (t0.physRead pa 64)) = true → levelsOk (s.level u) (wordsOf 8 (t0.physRead pa 64)) = true →
      ∃ t, exec (.ldd u x) s = .next t ∧ Claim.loadFrame t0 t u ∧ t.core.s = t0.core.s ∧ t.core.v = t0.core.v ∧
        t.dReg u (xD x) = wordsOf 8 (t0.physRead pa 64) ∧
        (∀ v r, r < 16 → ¬ (v = u ∧ r = xD x) → t.dReg v r = t0.dReg v r)) ∧
    (s.request (.core u) a 64 false true false = (.ok pa, t0) →
      ∃ t, exec (.std u x) s = .next t ∧ t.pc u = (t0.pc u + 4) % 2 ^ 40 ∧ t0.regsKept t [rkey rCO_CORE_STATUS u 0] ∧
        t.core = t0.core ∧ wordsOf 8 (t.physRead pa 64) = s.dReg u (xD x) ∧ t0.bytesKept t (inSpan pa 64))

/-- LD and ST. -/
def Obligations.ScalarLoadsAndStoresMoveTheirBytes : Prop :=
  Claim.ld ∧ Claim.st ∧ Claim.ldStFault ∧ Claim.servedAccess

/-- VLD, VST, LDD and STD. -/
def Obligations.VectorAndDescriptorMovesMoveTheirBytes : Prop :=
  Claim.vld ∧ Claim.vst ∧ Claim.lddStd

/-- Register files a vector instruction leaves alone unless it says otherwise. -/
def Claim.vectorFrame (s t : State) (u fl : Nat) : Prop :=
  Claim.issued s t u fl ∧ t.core.d = s.core.d ∧ t.mem = s.mem

/-- Table 5.10, the 32-bit integer functions: the exact number, which the lane is modulo 2^32. -/
def Claim.laneNumber (fn : Nat) (a b : BitVec 32) : Option Int :=
  match fn with
  | 0x10 => some (a.toInt + b.toInt)
  | 0x11 => some (a.toInt - b.toInt)
  | 0x12 => some (a.toInt * b.toInt)
  | 0x16 => some (a.toNat * 2 ^ (b.toNat % 32))
  | 0x17 => some (a.toNat / 2 ^ (b.toNat % 32))
  | 0x18 => some (Int.fdiv a.toInt (2 ^ (b.toNat % 32)))
  | _ => none

/-- VALU, R133, R138: lane by lane where the predicate has a 1, from the lanes before the instruction; the status bits of those
lanes alone; the integer functions exactly. -/
def Claim.valu : Prop :=
  ∀ (u : Nat) (x : Payload) (r : Nat → BitVec 32 × Nat) (s : State), s.issuesV u [] = true →
    (∀ k, k < 64 → valuLane (xFn x) (s.vLane u (xA x) k) (s.vLane u (xB x) k) (s.vLane u (xD x) k) = some (r k)) →
    ∃ t, exec (.valu u x) s = .next t ∧
      Claim.vectorFrame s t u (orFlags ((maskLanes (s.lanes u x)).map (fun k => (r k).2))) ∧
      Claim.vTook s t u (xD x) (s.lanes u x) (fun k => (r k).1) ∧ t.core.s = s.core.s ∧ t.core.p = s.core.p ∧
      t.core.lfsr = s.core.lfsr ∧
      (∀ k n, k < 64 → (s.lanes u x).getLsbD k = true →
        Claim.laneNumber (xFn x) (s.vLane u (xA x) k) (s.vLane u (xB x) k) = some n →
        t.vLane u (xD x) k = BitVec.ofInt 32 n)

/-- VCMP, R136, R138: one bit of the predicate for each lane; lanes masked off keep their bits. -/
def Claim.vcmp : Prop :=
  ∀ (u : Nat) (x : Payload) (s : State), s.issuesV u [] = true → xFn x < 12 → xD x < 8 →
    ∃ t, exec (.vcmp u x) s = .next t ∧ Claim.vectorFrame s t u 0 ∧ t.core.s = s.core.s ∧ t.core.v = s.core.v ∧
      t.core.lfsr = s.core.lfsr ∧ (∃ w, Claim.pTook s t u (xD x) w) ∧
      (xD x ≠ 0 → ∀ k, k < 64 → (t.pReg u (xD x)).getLsbD k =
        if (s.lanes u x).getLsbD k then condLane (xFn x) (s.vLane u (xA x) k) (s.vLane u (xB x) k)
        else (s.pReg u (xD x)).getLsbD k)

/-- VCVTO to a format that is not MX, R138: all 64 elements converted, with the draws of the core's generator under stochastic
rounding, and packed from bit 0 with zeros above; the predicate masks the 32-bit lanes of the packed result. -/
def Claim.vcvto : Prop :=
  ∀ (u : Nat) (x : Payload) (fmt : Nat) (r : List Nat × Nat) (s : State), s.issuesV u [] = true →
    fmt = fieldOf 3 4 (xFn x) → fmtIsMx fmt = false → fmtLevel fmt ≤ s.level u →
    r = cvtElts fmt ((xFn x).testBit 2) ((xFn x).testBit 0)
      (if (xFn x).testBit 1 then some (s.srDraws u 64).1 else none) ((List.range 64).map (fun k => valF32 (s.vLane u (xA x) k))) →
    ∃ t, exec (.vcvto u x) s = .next t ∧ Claim.vectorFrame s t u r.2 ∧ t.core.s = s.core.s ∧ t.core.p = s.core.p ∧
      Claim.vTook s t u (xD x) (s.lanes u x)
        (fun k => BitVec.ofNat 32 (packElts (fmtBits fmt) r.1 / 2 ^ (32 * k)))

/-- VCVTO to an MX format, R42, R47, R138: two blocks, which under stochastic rounding draw their 64 values where neither has
scale 0xFF; their scales go to bits 7:0 and 15:8 of the scalar VB, the rest of it zero, whatever the predicate. -/
def Claim.vcvtoMx : Prop :=
  ∀ (u : Nat) (x : Payload) (fmt : Nat) (d : Option (List Nat)) (b0 b1 : Nat × List Nat × Nat) (y0 y1 : List Val) (s : State),
    s.issuesV u [xB x] = true →
    fmt = fieldOf 3 4 (xFn x) → fmtIsMx fmt = true → fmtLevel fmt ≤ s.level u →
    d = (if (xFn x).testBit 1 then some (s.srDraws u 64).1 else none) →
    y0 = (List.range 32).map (fun k => valF32 (s.vLane u (xA x) k)) →
    y1 = (List.range 32).map (fun k => valF32 (s.vLane u (xA x) (32 + k))) →
    ((xFn x).testBit 1 = true → blockDraws ((xFn x).testBit 2) y0 = true ∧ blockDraws ((xFn x).testBit 2) y1 = true) →
    b0 = mxBlock fmt ((xFn x).testBit 2) (d.map (fun l => l.take 32)) ((xFn x).testBit 0) y0 →
    b1 = mxBlock fmt ((xFn x).testBit 2) (d.map (fun l => l.drop 32)) ((xFn x).testBit 0) y1 →
    ∃ t, exec (.vcvto u x) s = .next t ∧ Claim.vectorFrame s t u (b0.2.2 ||| b1.2.2) ∧ t.core.p = s.core.p ∧
      Claim.sTook s t u (xB x) (BitVec.ofNat 64 (b0.1 + 256 * b1.1)) ∧
      Claim.vTook s t u (xD x) (s.lanes u x)
        (fun k => BitVec.ofNat 32 (packElts (fmtBits fmt) (b0.2.1 ++ b1.2.1) / 2 ^ (32 * k)))

/-- VCVTI, R44, R138: 64 elements of VA unpacked, an MX format with its two scales from bits 15:0 of the scalar VB. -/
def Claim.vcvti : Prop :=
  ∀ (u : Nat) (x : Payload) (fmt : Nat) (r : Nat → BitVec 32 × Nat) (s : State), s.issuesV u [xB x] = true →
    fmt = fieldOf 3 4 (xFn x) → xFn x % 8 = 0 → fmtLevel fmt ≤ s.level u →
    (∀ k, k < 64 → r k = cvtToF32 fmt (fieldOf (8 * (k / 32)) 8 (s.sReg u (xB x)).toNat)
      (eltOf (fmtBits fmt) (laneNat (s.vReg u (xA x))) k)) →
    ∃ t, exec (.vcvti u x) s = .next t ∧
      Claim.vectorFrame s t u (orFlags ((maskLanes (s.lanes u x)).map (fun k => (r k).2))) ∧ t.core.s = s.core.s ∧
      t.core.p = s.core.p ∧ Claim.vTook s t u (xD x) (s.lanes u x) (fun k => (r k).1)

/-- VSPLIT, R52, R138: the high parts of lanes 2j and 2j + 1 packed in lane j of VD, the low parts in VD + 1, lanes 32 to 63 zero;
no status bit. An odd VD faults. -/
def Claim.vsplit : Prop :=
  ∀ (u : Nat) (x : Payload) (s : State), s.issuesV u [] = true → 3 ≤ s.level u →
    (xD x % 2 = 0 →
      ∃ t, exec (.vsplit u x) s = .next t ∧ Claim.vectorFrame s t u 0 ∧ t.core.s = s.core.s ∧ t.core.p = s.core.p ∧
        (∀ v r k, r < 32 → k < 64 → t.vLane v r k =
          if v = u ∧ r = xD x ∧ (s.lanes u x).getLsbD k = true then
            (if k < 32 then (splitF32 (s.vLane u (xA x) (2 * k + 1))).1 ++ (splitF32 (s.vLane u (xA x) (2 * k))).1 else 0#32)
          else if v = u ∧ r = xD x + 1 ∧ (s.lanes u x).getLsbD k = true then
            (if k < 32 then (splitF32 (s.vLane u (xA x) (2 * k + 1))).2 ++ (splitF32 (s.vLane u (xA x) (2 * k))).2 else 0#32)
          else s.vLane v r k)) ∧
    (xD x % 2 = 1 → exec (.vsplit u x) s = .next (s.progFault u 0x4101 0))

/-- VRED, R138, R155: the lanes whose predicate bit is 1, reduced by the operation and the ABS bit, a sum in an order that is left
open (log 9), into the scalar RD. -/
def Claim.vred : Prop :=
  ∀ (u : Nat) (x : Payload) (s : State), s.issuesV u [xD x] = true → xFn x % 8 < 5 →
    ∃ t c r, exec (.vred u x) s = .next t ∧
      reduceVals c (xFn x % 8) ((xFn x).testBit 3) ((maskLanes (s.lanes u x)).map (fun k => (k, s.vLane u (xA x) k))) = some r ∧
      Claim.vectorFrame s t u r.2 ∧ Claim.sTook s t u (xD x) r.1 ∧ t.core.p = s.core.p ∧ t.core.v = s.core.v

/-- VMOV, R138: a scalar to every lane or to one, a lane to a scalar whatever the predicate, lanes by index, a whole register. -/
def Claim.vmov : Prop :=
  ∀ (u : Nat) (x : Payload) (s : State), s.issuesV u [xD x, xA x, xB x] = true →
    (xFn x = 0 → ∃ t, exec (.vmov u x) s = .next t ∧ Claim.vectorFrame s t u 0 ∧ t.core.s = s.core.s ∧ t.core.p = s.core.p ∧
      Claim.vTook s t u (xD x) (s.lanes u x) (fun _ => (s.sReg u (xA x)).setWidth 32)) ∧
    (xFn x = 1 → ∃ t, exec (.vmov u x) s = .next t ∧ Claim.vectorFrame s t u 0 ∧ t.core.s = s.core.s ∧ t.core.p = s.core.p ∧
      (∀ v r k, r < 32 → k < 64 → t.vLane v r k =
        if v = u ∧ r = xD x ∧ (s.lanes u x).getLsbD k = true ∧ k = (s.sReg u (xB x)).toNat % 64
        then (s.sReg u (xA x)).setWidth 32 else s.vLane v r k)) ∧
    (xFn x = 2 → ∃ t, exec (.vmov u x) s = .next t ∧ Claim.vectorFrame s t u 0 ∧ t.core.v = s.core.v ∧ t.core.p = s.core.p ∧
      Claim.sTook s t u (xD x) ((s.vLane u (xA x) ((s.sReg u (xB x)).toNat % 64)).setWidth 64)) ∧
    (xFn x = 3 → ∃ t, exec (.vmov u x) s = .next t ∧ Claim.vectorFrame s t u 0 ∧ t.core.s = s.core.s ∧ t.core.p = s.core.p ∧
      Claim.vTook s t u (xD x) (s.lanes u x) (fun k => s.vLane u (xA x) ((s.vLane u (xB x) k).toNat % 64))) ∧
    (xFn x = 4 → ∃ t, exec (.vmov u x) s = .next t ∧ Claim.vectorFrame s t u 0 ∧ t.core.s = s.core.s ∧ t.core.p = s.core.p ∧
      Claim.vTook s t u (xD x) (s.lanes u x) (fun k => s.vLane u (xA x) k))

/-- VALU, VCMP, VRED and VMOV. -/
def Obligations.VectorArithmeticWorksLaneByLane : Prop :=
  Claim.valu ∧ Claim.vcmp ∧ Claim.vred ∧ Claim.vmov

/-- VCVTO, VCVTI and VSPLIT. -/
def Obligations.VectorConversionsWorkLaneByLane : Prop :=
  Claim.vcvto ∧ Claim.vcvtoMx ∧ Claim.vcvti ∧ Claim.vsplit

/-! ### Rules of chapters 0 and 4 stated whole -/

/-- SEMAPHORE_SIGNAL, R99, whole. -/
def Obligations.SignalsAddTheirAmounts : Prop :=
  Claim.semaphoreSignal ∧ Claim.semaphoreSignalEdges ∧ ∀ w, semAmount w ≤ 65535

/-- Control space, R6: a read of an address without a register answers 0, whoever reads. -/
def Claim.unmappedRead : Prop :=
  ∀ (rq : Rq) (a : Nat) (s : State), a % 8 = 0 → s.csRoute rq a = 0 → s.csRefusal rq a false = none → csDecode a = none →
    ∃ t, s.csRead rq a = (.ok 0#64, t) ∧ t.still = s.still

/-- R6, whole. -/
def Obligations.UnmappedControlSpaceReadsZero : Prop :=
  Claim.unmappedRead ∧ Claim.ldNothing ∧ Claim.registerWriteUnmapped

/-! ### Long instructions (chapters 3, 5, 7 and 8) -/

/-- A long instruction that is let through: of the program, at an address that is a multiple of 8 with a predicate that holds, or
the one at the head of the broadcast queue; its unit takes it, no register it names awaits a REDUCE, nothing of its latch `lt`
(R140, R176) is illegal, and it has walk points. -/
def Claim.issuing (s : State) (u opc : Nat) (bcast : Bool) (w : LPayload) (lt : Latch) : Prop :=
  s.unitTakes u opc false = true ∧ longCheck u opc lt = none ∧ longEmpty opc lt = false ∧
    (bcast = false → s.issues u (lRegs (lWord0 opc w) (lWord1 w)) = true ∧
      s.predOk u (lPred (lWord0 opc w)) (lNeg (lWord0 opc w)) = true ∧ s.pc u % 8 = 0 ∧
      lt = s.latchProg u (lWord0 opc w) (lWord1 w)) ∧
    (bcast = true → ∃ e, s.bqHead u = some e ∧
      recWord e.record 2 = (lWord0 opc w).toNat + 2 ^ 32 * (lWord1 w).toNat ∧ s.bqReady u e = true ∧ lt = s.latchBcast u e)

/-- A core whose units work and have nothing in flight: no long instruction of it, no signal that waits for one, every generator
free, a place in its response table; and no memory with a flipped bit to be found. -/
def Claim.alone (s : State) (u : Nat) : Prop :=
  (∀ o, o ∈ s.core.ops → o.u ≠ u ∧ o.id ≠ s.core.nextOp) ∧ s.fld fCO_CORE_STATUS_AG_BUSY u = 0 ∧ s.commits u = true ∧
    s.coreHalted u = false ∧ 1 ≤ s.tableFree (.coreDma u) ∧ s.ms.upsets = [] ∧
    (∀ h, h ∈ s.core.heldSigs → h.u ≠ u ∧ (h.after ≠ [] ∨ h.acks ≠ []))

/-- The state in which the first step of a long instruction is carried out: it has entered, its walks hold generators, a program
goes on by two words, a broadcast has left its queue. Accumulators, memories and register files are as they were. -/
def Claim.atIssue (s s1 : State) (u : Nat) (bcast : Bool) : Prop :=
  s1 = { s with regs := s1.regs, core := { s.core with ops := s1.core.ops, nextOp := s.core.nextOp + 1, bq := s1.core.bq } } ∧
    s.regsKept s1 [rkey rCO_CORE_STATUS u 0] ∧ (∀ off, s1.pmWord u off = s.pmWord u off) ∧
    (bcast = false → s1.pc u = (s.pc u + 8) % 2 ^ 40 ∧ s1.core.bq = s.core.bq) ∧
    (bcast = true → s1.pc u = s.pc u ∧ ∃ e, s.bqHead u = some e ∧ s1.core.bq = s.core.bq.erase e)

/-- The long instructions, with the opcode and the SUBs of each: those of the matrix path and the vector unit, and the DMAs. -/
def Claim.unitCommands (u : Nat) (bcast : Bool) (w : LPayload) : List (Instr × Nat × List Nat) :=
  [(.matmul u bcast w, 0x20, List.range 16), (.pmout u bcast w, 0x21, List.range 16), (.pmclr u bcast w, 0x22, List.range 16),
   (.reduce u bcast w, 0x24, List.range 16), (.zmap u bcast w, 0x25, List.range 16)]

def Claim.dmaCommands (u : Nat) (bcast : Bool) (w : LPayload) : List (Instr × Nat × List Nat) :=
  [(.dmaGather u bcast w, 0x23, [0]), (.dmaScatter u bcast w, 0x23, [1]), (.dmaTranspose u bcast w, 0x23, [2, 3, 4]),
   (.dmaFill u bcast w, 0x23, [5]), (.dmaDispatchGather u bcast w, 0x23, [6]), (.dmaDispatchScatter u bcast w, 0x23, [7]),
   (.dmaReduceStore u bcast w, 0x23, [8])]

def Claim.longCommands (u : Nat) (bcast : Bool) (w : LPayload) : List (Instr × Nat × List Nat) :=
  Claim.unitCommands u bcast w ++ Claim.dmaCommands u bcast w

/-- What a first step leaves of the machine: its own effect, and no more than generators and what the engine shows. -/
def Claim.stepLeaves (r : LStep × State) (t : State) (u : Nat) : Prop :=
  t.mem = r.2.mem ∧ t.out = r.2.out ∧ t.core.s = r.2.core.s ∧ t.core.p = r.2.core.p ∧ t.core.v = r.2.core.v ∧
    t.core.d = r.2.core.d ∧ t.net.flits = r.2.net.flits ∧ r.2.regsKept t [rkey rCO_CORE_STATUS u 0, rkey rCO_ME_STATUS u 0]

/-- R140, R144, R282, R283: a long instruction of a core with nothing in flight enters, and its first step is carried out at once:
its effect outside the core stands, its accumulator words and status bits wait in flight until it commits, with the scalar it is
to write and the writes to be acknowledged. A MATMUL, PMOUT or PMCLR of more steps carries out two at most before the first has
committed; a held access leaves the instruction where it was. -/
def Claim.longIssue (commands : Nat → Bool → LPayload → List (Instr × Nat × List Nat)) : Prop :=
  ∀ (u : Nat) (bcast : Bool) (w : LPayload) (c : Instr × Nat × List Nat) (lt : Latch) (s : State),
    c ∈ commands u bcast w → lSub (lWord0 c.2.1 w) ∈ c.2.2 → Claim.issuing s u c.2.1 bcast w lt → Claim.alone s u →
    ∃ t s1, exec c.1 s = .next t ∧ Claim.atIssue s s1 u bcast ∧ (∀ o, o ∈ s.core.ops → o ∈ t.core.ops) ∧
      ((s1.longStep u s.core.nextOp c.2.1 lt {}).1.err = none → (s1.longStep u s.core.nextOp c.2.1 lt {}).1.fault = none →
        ((s1.longStep u s.core.nextOp c.2.1 lt {}).1.held = false → (s1.longStep u s.core.nextOp c.2.1 lt {}).1.next = none →
          Claim.stepLeaves (s1.longStep u s.core.nextOp c.2.1 lt {}) t u ∧
          ∃ op, op ∈ t.core.ops ∧ op.id = s.core.nextOp ∧ op.u = u ∧ op.opc = c.2.1 ∧ op.latch = lt ∧
            op.steps = (s1.longStep u s.core.nextOp c.2.1 lt {}).1.res.toList ∧ op.next = none ∧ op.done = 0 ∧
            op.fault = none ∧ op.sreg = (s1.longStep u s.core.nextOp c.2.1 lt {}).1.sreg ∧
            (op.writes = 0 ↔ (s1.longStep u s.core.nextOp c.2.1 lt {}).1.writes = 0)) ∧
        ((s1.longStep u s.core.nextOp c.2.1 lt {}).1.held = false → (s1.longStep u s.core.nextOp c.2.1 lt {}).1.next ≠ none →
          ∃ op, op ∈ t.core.ops ∧ op.id = s.core.nextOp ∧ op.u = u ∧ op.opc = c.2.1 ∧ op.latch = lt ∧
            op.steps.head? = (s1.longStep u s.core.nextOp c.2.1 lt {}).1.res ∧ op.steps.length ≤ 2 ∧ op.done = 0) ∧
        ((s1.longStep u s.core.nextOp c.2.1 lt {}).1.held = true → t.mem = s.mem ∧
          ∃ op, op ∈ t.core.ops ∧ op.id = s.core.nextOp ∧ op.u = u ∧ op.opc = c.2.1 ∧ op.latch = lt ∧ op.steps = [] ∧
            op.next = some {} ∧ op.done = 0))

/-- R133, R142: a long instruction whose predicate is false counts as one with zero iterations, which completes at once. -/
def Obligations.FalsePredicateLongInstructionHasNoIterations : Prop :=
  ∀ (u : Nat) (w : LPayload) (c : Instr × Nat × List Nat) (q : Quad) (s : State), c ∈ Claim.longCommands u false w →
    lSub (lWord0 c.2.1 w) ∈ c.2.2 → s.issues u (lRegs (lWord0 c.2.1 w) (lWord1 w)) = true → s.unitTakes u c.2.1 true = true →
    s.predOk u (lPred (lWord0 c.2.1 w)) (lNeg (lWord0 c.2.1 w)) = false → Claim.alone s u →
    q = quadOf (s.quadWords u (lWord1 w)) →
    ∃ t, exec c.1 s = .next t ∧ t.mem = s.mem ∧ t.core = { s.core with nextOp := s.core.nextOp + 1 } ∧
      t.pc u = (s.pc u + 8) % 2 ^ 40 ∧ s.regsKept t [rkey rCO_CORE_STATUS u 0, rkey rCO_ME_STATUS u 0] ∧
      (q.sig = false → t.net = s.net) ∧
      (q.sig = true → ∃ g, t.net = { s.net with signals := s.net.signals ++ [g] } ∧ g.sem = q.sigSem ∧
        g.amount = q.sigAmount ∧ g.waybill = nget s.core.waybill u ∧ g.tag = lTag (lWord1 w))

/-- MATMUL, R147, R283: a step changes nothing but the free values it has drawn; its accumulator words wait in it. -/
def Claim.matmulStep : Prop :=
  ∀ (u id : Nat) (lt : Latch) (pos : WalkPos) (s : State),
    (s.longStep u id 0x20 lt pos).2 = { s with fresh := (s.longStep u id 0x20 lt pos).2.fresh } ∧
      (s.longStep u id 0x20 lt pos).1.fault = none ∧ (s.longStep u id 0x20 lt pos).1.held = false ∧
      (s.longStep u id 0x20 lt pos).1.sreg = none ∧ (s.longStep u id 0x20 lt pos).1.writes = 0

/-- A dense MATMUL of one tile and one row of plain 8-bit elements in accumulators of single words, without maps or a second
source. -/
def Claim.plainTile (lt : Latch) : Prop :=
  fmtBits (quadOf lt.quad).fmtA = 8 ∧ fmtBits (quadOf lt.quad).fmtB = 8 ∧ fmtIsMx (quadOf lt.quad).fmtA = false ∧
    fmtIsMx (quadOf lt.quad).fmtB = false ∧ (quadOf lt.quad).sparse = 0 ∧ (quadOf lt.quad).split = false ∧
    (quadOf lt.quad).taps = 0 ∧ (quadOf lt.quad).pair = false ∧ (quadOf lt.quad).splitOp = false ∧
    (quadOf lt.quad).tileMap = false ∧ (quadOf lt.quad).zmapIn = false ∧ (quadOf lt.quad).src2 = false ∧
    walkCount lt.da = 1 ∧ walkCount lt.db = 1 ∧ walkCount lt.dy = 1

/-- MATMUL, R35, R55, R56: of one tile and one row: accumulator n gains the sum, rounded to FP32, of the products of element k of
the row and element n of row k of the tile, truncated as R35 has it; no other accumulator is written. -/
def Claim.matmulTile : Prop :=
  ∀ (u id oa ob oy : Nat) (lt : Latch) (s : State), Claim.plainTile lt → walkPoint lt.a.toNat lt.da 0 = oa →
    walkPoint lt.b.toNat lt.db 0 = ob → walkPoint lt.y.toNat lt.dy 0 = oy → oa % 16 = 0 → ob % 128 = 0 → oy % 128 = 0 →
    s.locErr .am u oa 32 true = none → s.locErr .wm u ob 1024 true = none → s.locErr .pm u oy 128 true = none →
    ∃ x, (s.longStep u id 0x20 lt {}).1.res = some x ∧ (s.longStep u id 0x20 lt {}).1.err = none ∧
      (s.longStep u id 0x20 lt {}).1.next = none ∧
      (∀ p, p ∈ x.pm ↔ ∃ n, n < 32 ∧ p = (oy + 4 * n, (fadd (s.pmWord u (oy + 4 * n)) (toF32 (passExact
        ((List.range 32).map (fun k => (decodeElt (quadOf lt.quad).fmtA (s.rd (amBase u + oa + k)).toNat).mul
          (decodeElt (quadOf lt.quad).fmtB (s.rd (wmBase u + ob + 32 * k + n)).toNat)))))).1))

/-- The walk points of a descriptor from a base lie at a multiple of n bytes inside the usable PM of a slot, and so do the rows
4,096 bytes on where there are pairs. -/
def Claim.rowsInPm (s : State) (u n : Nat) (pair rd : Bool) (y : Word) (d : List Word) : Prop :=
  ∀ i, i < walkCount d → walkPoint y.toNat d i % (4 * n : Nat) = 0 ∧
    s.locErr .pm u (walkPoint y.toNat d i) (4 * n + (if pair then 4096 else 0)) rd = none

/-- PMCLR, R152: every word of every walked row, of 32 words or of 16, and of the row 4,096 bytes on where there are pairs, is to
become +0 when its step commits. A step clears a row a cycle. -/
def Claim.pmclrStep : Prop :=
  ∀ (u id n : Nat) (lt : Latch) (s : State), pmclrCheck lt = none → (lSub lt.w0 = 0 ∧ n = 32 ∨ lSub lt.w0 = 1 ∧ n = 16) →
    Claim.rowsInPm s u n (quadOf lt.quad).pair false lt.y lt.dy →
    ∃ x, (s.longStep u id 0x22 lt {}).2 = s ∧ (s.longStep u id 0x22 lt {}).1.res = some x ∧
      (s.longStep u id 0x22 lt {}).1.err = none ∧ (s.longStep u id 0x22 lt {}).1.fault = none ∧
      ((s.longStep u id 0x22 lt {}).1.next = none ↔ walkCount lt.dy ≤ 65536) ∧
      (∀ p, p ∈ x.pm ↔ ∃ i j k, i < min (walkCount lt.dy) 65536 ∧ j < n ∧ (k = 0 ∨ (quadOf lt.quad).pair = true ∧ k = 4096) ∧
        p = ((walkPoint lt.y.toNat lt.dy i).toNat + k + 4 * j, 0#32))

/-- PMOUT, R40, R151, of one row without a quad or channel scales, with no other message in the network: the 32 accumulators, as
the matrix path sees them, scaled by 1.0 and converted to FP32, at the destination; no other byte changes. -/
def Claim.pmoutStep : Prop :=
  ∀ (u id pa ya : Nat) (lt : Latch) (s : State), lt.quad = [] → lSub lt.w0 = 0 → lSB lt.w0 = 0 → walkCount lt.da = 1 →
    walkCount lt.dy = 1 → Claim.rowsInPm s u 32 false true lt.a lt.da → walkPoint lt.y.toNat lt.dy 0 = ya →
    addrForm ya = 1 → ya % 64 = 0 → s.traffic = [] →
    s.request (s.outRq u lt ya) ya 64 false true false = (.ok pa, s) →
    s.request (s.outRq u lt ya) (ya + 64) 64 false true false = (.ok (pa + 64), s) →
    ∃ fl zs, (s.longStep u id 0x21 lt {}).1 = { res := some { pm := [], flags := fl, after := { i := 1, zeros := zs } },
                                                writes := if s.ownAccess (s.outRq u lt ya) ya then 0 else 2 } ∧
      s.bytesKept (s.longStep u id 0x21 lt {}).2 (inSpan pa 128) ∧
      (∀ j, j < 32 → leNat ((s.longStep u id 0x21 lt {}).2.physRead (pa + 4 * j) 4) =
        (cvtFmt 9 false .rne false (valF32 (fmul (s.pmWord u ((walkPoint lt.a.toNat lt.da 0).toNat + 4 * j))
          (fmul 0x3F800000#32 0x3F800000#32).1).1)).1 % 2 ^ 32)

/-- One run of a transfer, of n bytes, that each side serves with one request, with no other message in the network: where it is
read and where it is written. -/
def Claim.oneRun (s : State) (rq : Rq) (n src dst pa pb : Nat) : Prop :=
  formOk src n = true ∧ formOk dst n = true ∧ 0 < n ∧ src % 64 + n ≤ 64 ∧ dst % 64 + n ≤ 64 ∧ s.traffic = [] ∧
    s.request rq src n true false false = (.ok pa, s) ∧ s.request rq dst n false true false = (.ok pb, s)

/-- The n bytes of a run stand at its destination, and no other byte has changed. -/
def Claim.moved (s t : State) (n pa pb : Nat) : Prop :=
  (∀ i, i < n → t.rd (pb + i) = s.rd (pa + i)) ∧ s.bytesKept t (inSpan pb n)

/-- A step of a transfer whose units were all performed in it, with no scalar and no accumulator word. -/
def Claim.performed (r : LStep) : Prop :=
  (∃ x, r.res = some x ∧ x.pm = [] ∧ x.flags = 0) ∧ r.next = none ∧ r.sreg = none ∧ r.fault = none ∧ r.err = none ∧ r.held = false

/-- DMA_GATHER and DMA_SCATTER, R154, of one run: from the walk point to sY, and from sA to the walk point. -/
def Claim.dmaCopy : Prop :=
  (∀ (u id p pa pb : Nat) (lt : Latch) (s : State), lSub lt.w0 = 0 → walkCount lt.da = 1 →
    walkPoint lt.a.toNat lt.da 0 = p → Claim.oneRun s (.coreDma u lt.org) (fieldOf 0 32 lt.b.toNat) p lt.y.toNat pa pb →
    Claim.performed (s.longStep u id 0x23 lt {}).1 ∧
      Claim.moved s (s.longStep u id 0x23 lt {}).2 (fieldOf 0 32 lt.b.toNat) pa pb) ∧
  (∀ (u id p pa pb : Nat) (lt : Latch) (s : State), lSub lt.w0 = 1 → walkCount lt.dy = 1 →
    walkPoint lt.y.toNat lt.dy 0 = p → Claim.oneRun s (.coreDma u lt.org) (fieldOf 0 32 lt.b.toNat) lt.a.toNat p pa pb →
    Claim.performed (s.longStep u id 0x23 lt {}).1 ∧
      Claim.moved s (s.longStep u id 0x23 lt {}).2 (fieldOf 0 32 lt.b.toNat) pa pb)

/-- DMA_FILL, R154, of one run: every byte of it is the low byte of sA. -/
def Claim.dmaFill : Prop :=
  ∀ (u id p pb : Nat) (lt : Latch) (s : State), lSub lt.w0 = 5 → walkCount lt.dy = 1 → walkPoint lt.y.toNat lt.dy 0 = p →
    formOk p (fieldOf 0 32 lt.b.toNat) = true → 0 < fieldOf 0 32 lt.b.toNat → p % 64 + fieldOf 0 32 lt.b.toNat ≤ 64 →
    s.request (.coreDma u lt.org) p (fieldOf 0 32 lt.b.toNat) false true false = (.ok pb, s) →
    Claim.performed (s.longStep u id 0x23 lt {}).1 ∧
      (∀ i, i < fieldOf 0 32 lt.b.toNat → (s.longStep u id 0x23 lt {}).2.rd (pb + i) = BitVec.ofNat 8 lt.a.toNat) ∧
      s.bytesKept (s.longStep u id 0x23 lt {}).2 (inSpan pb (fieldOf 0 32 lt.b.toNat))

/-- DMA_TRANSPOSE, R95, R154, of one tile to CM or AM, with no other message in the network: 32 runs read in walk order are the rows
of a transposing write. -/
def Claim.dmaTranspose : Prop :=
  ∀ (u id width : Nat) (lt : Latch) (p pa pb : Nat → Nat) (s : State),
    (lSub lt.w0 = 2 ∧ width = 4 ∨ lSub lt.w0 = 3 ∧ width = 8 ∨ lSub lt.w0 = 4 ∧ width = 16) → walkCount lt.da = 32 →
    fieldOf 0 32 lt.b.toNat = 4 * width → transposes lt.y.toNat = true → lt.y.toNat % 16 = 0 →
    4 * width ≤ fieldOf 32 16 lt.b.toNat * 16 → s.pathBusy (.coreDma u lt.org) lt.y.toNat = false → s.traffic = [] →
    (∀ r, r < 32 → walkPoint lt.a.toNat lt.da r = p r ∧ formOk (p r) (4 * width) = true ∧ p r % 64 + 4 * width ≤ 64 ∧
      s.request (.coreDma u lt.org) (p r) (4 * width) true false false = (.ok (pa r), s)) →
    (∀ c, c < 32 → s.request (.coreDma u lt.org) (lt.y.toNat + c * (fieldOf 32 16 lt.b.toNat * 16)) (4 * width) false true false =
      (.ok (pb c), s)) →
    (∀ c, c < 31 → pb c + 4 * width ≤ pb (c + 1)) →
    Claim.performed (s.longStep u id 0x23 lt {}).1 ∧
      (∀ r c, r < 32 → c < 32 →
        fieldOf (width * r) width (leNat ((s.longStep u id 0x23 lt {}).2.physRead (pb c) (4 * width))) =
          fieldOf (width * c) width (leNat (s.physRead (pa r) (4 * width)))) ∧
      s.bytesKept (s.longStep u id 0x23 lt {}).2 (fun a => ∃ c, c < 32 ∧ inSpan (pb c) (4 * width) a)

/-- A dispatch list at an address with one entry for its one expert e: its header and the entry word, as the requester reads
them one after the other. -/
def Claim.oneEntry (s t : State) (rq : Rq) (list e entry k : Nat) : Prop :=
  ∃ h eb t1, formOk list 2112 = true ∧ s.readMem rq list 2112 = (.ok h, t1) ∧ listField h 0 4 = 1 ∧ e < listField h 20 2 ∧
    listField h (64 + 4 * e) 4 = 1 ∧ listField h 22 1 = k ∧
    t1.readMem rq (list + 2112 + 8 * listField h (1088 + 4 * e) 4) 8 = (.ok eb, t) ∧ leNat eb = entry

/-- DMA_DISPATCH_GATHER and DMA_DISPATCH_SCATTER, R207-R209, of one entry: the row its token names is gathered to sY; the row
from sA is scattered to where token and choice name. `t` is the state that reading the list leaves. -/
def Claim.dmaDispatch : Prop :=
  (∀ (u id p pa pb e entry k : Nat) (lt : Latch) (t s : State), lSub lt.w0 = 6 →
    fieldOf 32 8 lt.b.toNat = e → fieldOf 40 8 lt.b.toNat = e →
    Claim.oneEntry s t (.coreDma u lt.org) lt.b1.toNat e entry k → fieldOf 32 16 entry < walkCount lt.da →
    walkPoint lt.a.toNat lt.da (fieldOf 32 16 entry) = p →
    Claim.oneRun t (.coreDma u lt.org) (fieldOf 0 32 lt.b.toNat) p lt.y.toNat pa pb →
    Claim.performed (s.longStep u id 0x23 lt {}).1 ∧
      Claim.moved t (s.longStep u id 0x23 lt {}).2 (fieldOf 0 32 lt.b.toNat) pa pb) ∧
  (∀ (u id p pa pb e entry k : Nat) (lt : Latch) (t s : State), lSub lt.w0 = 7 →
    fieldOf 32 8 lt.b.toNat = e → fieldOf 40 8 lt.b.toNat = e →
    Claim.oneEntry s t (.coreDma u lt.org) lt.b1.toNat e entry k →
    fieldOf 32 16 entry * k + fieldOf 56 3 entry < walkCount lt.dy →
    walkPoint lt.y.toNat lt.dy (fieldOf 32 16 entry * k + fieldOf 56 3 entry) = p →
    Claim.oneRun t (.coreDma u lt.org) (fieldOf 0 32 lt.b.toNat) lt.a.toNat p pa pb →
    Claim.performed (s.longStep u id 0x23 lt {}).1 ∧
      Claim.moved t (s.longStep u id 0x23 lt {}).2 (fieldOf 0 32 lt.b.toNat) pa pb)

/-- DMA_REDUCE_STORE, R247, of one run of 64 bytes to CM or AM of the lodging's own: one flit of 16 lanes leaves for the
destination, and no byte changes. -/
def Claim.dmaReduceStore : Prop :=
  ∀ (u id p pa l : Nat) (lt : Latch) (s : State), lSub lt.w0 = 8 → walkCount lt.dy = 1 → fieldOf 0 32 lt.b.toNat = 64 →
    formOk lt.a.toNat 64 = true → lt.a.toNat % 64 = 0 → walkPoint lt.y.toNat lt.dy 0 = p → formOk p 64 = true → p % 64 = 0 →
    reduceDest p = true → s.lodgingOf (.coreDma u lt.org) = some l → s.ownerOf (clusterAt p) = some l →
    s.request (.coreDma u lt.org) lt.a.toNat 64 true false false = (.ok pa, s) →
    Claim.performed (s.longStep u id 0x23 lt {}).1 ∧ (s.longStep u id 0x23 lt {}).1.writes = 1 ∧
      (s.longStep u id 0x23 lt {}).2.mem = s.mem ∧
      ∃ f, (s.longStep u id 0x23 lt {}).2.still.net.flits = s.still.net.flits ++ [f] ∧ f.rq = .coreDma u lt.org ∧ f.op = id ∧
        f.addr = p ∧ f.lodging = l ∧ f.merge = true ∧ f.src = lt.a.toNat ∧ f.issued = s.now ∧ f.entry = none ∧
        f.lanes = (List.range 16).map (fun k => BitVec.ofNat 32 (leNat (s.physRead (pa + 4 * k) 4)))

/-- REDUCE, R155, of a walk that one step covers: the elements read and converted, reduced by the operation and the ABS bit, a sum
in an order that is left open (log 9), are what it will write to the scalar SY. -/
def Claim.reduceStep : Prop :=
  ∀ (u id : Nat) (lt : Latch) (xs : List (BitVec 32 × Nat)) (t s : State), reduceCheck lt = none → walkCount lt.da ≠ 0 →
    walkCount lt.da ≤ reduceStepElts (quadOf lt.quad) lt →
    s.reduceElts u (quadOf lt.quad) lt (List.range (walkCount lt.da)) = (.ok xs, t) →
    ∃ c r x, reduceVals c (lSub lt.w0 % 8) ((lSub lt.w0).testBit 3)
        ((List.range xs.length).map (fun i => (i, (xs.getD i (0#32, 0)).1))) = some r ∧
      (s.longStep u id 0x24 lt {}).1 = { res := some x, sreg := some (lSY lt.w1, r.1) } ∧ x.pm = [] ∧
      x.flags = orFlags (xs.map Prod.snd) ||| r.2 ∧ (s.longStep u id 0x24 lt {}).2.mem = t.mem

/-- ZMAP, R153, of one run of 32 elements: bit 0 of the map byte at the map's offset in AM is 1 when every element is zero; no
other byte changes. `t` is the state that reading the run leaves. -/
def Claim.zmapStep : Prop :=
  ∀ (u id : Nat) (lt : Latch) (z : Bool) (t s : State), descLevels lt.da = 0 →
    s.zmapRuns u (quadOf lt.quad) lt [0] = (.ok [z], t) → t.locErr .am u (quadOf lt.quad).zoutBase 1 false = none →
    Claim.performed (s.longStep u id 0x25 lt {}).1 ∧
      (s.longStep u id 0x25 lt {}).2.rd (amBase u + (quadOf lt.quad).zoutBase) = BitVec.ofNat 8 z.toNat ∧
      t.bytesKept (s.longStep u id 0x25 lt {}).2 (inSpan (amBase u + (quadOf lt.quad).zoutBase) 1)

/-- MATMUL, PMCLR, PMOUT, REDUCE and ZMAP. -/
def Obligations.MatrixReduceAndZmapIssueWithTheirResults : Prop :=
  Claim.longIssue Claim.unitCommands ∧ Claim.matmulStep ∧ Claim.matmulTile ∧ Claim.pmclrStep ∧ Claim.pmoutStep ∧
    Claim.reduceStep ∧ Claim.zmapStep

/-- The DMA rows of cores. -/
def Obligations.DmaInstructionsMoveTheirRuns : Prop :=
  Claim.longIssue Claim.dmaCommands ∧ Claim.dmaCopy ∧ Claim.dmaFill ∧ Claim.dmaTranspose ∧ Claim.dmaDispatch ∧
    Claim.dmaReduceStore

/-! ### Instruction cache, responses, commit, replay, takeover, dressing and the ledger (chapters 5 and 10) -/

/-- The record that an empty ledger's next place holds is of an event, a unit and an outcome (R304). -/
def Claim.logged (s t : State) (event unit outcome : Nat) : Prop :=
  ∃ r, t.recAt (s.fld fMG_LEDGER_READ_READ) = some r ∧ r.event = event ∧ r.unit = unit ∧ r.outcome = outcome ∧ r.time = s.now

/-- ICACHE_MISS, R156: a line that is not held is fetched with the next one, and both are in the cache; t0 and t1 are the states
that serving the two fetches leaves. -/
def Claim.icacheMiss : Prop :=
  ∀ (u line : Nat) (b0 b1 : List (BitVec 8)) (t0 t1 s : State), s.fld fCO_CORE_STATUS_STATE u = 1 → line = 128 * (s.pc u / 128) →
    s.icHas u line = false → s.icHas u (line + 128) = false → s.ms.upsets = [] →
    (s.core.icache.filter (fun l => l.u == u)).length < 4 → s.fetchMem (.fetch u) line 128 = (.ok b0, t0) →
    (t0.icPlace u line b0).fetchMem (.fetch u) (line + 128) 128 = (.ok b1, t1) →
    ∃ t, exec (.icacheMiss u false) s = .next t ∧ t = { t1 with core := { t1.core with icache := t.core.icache } } ∧
      (⟨u, line, b0⟩ : ICLine) ∈ t.core.icache ∧ (⟨u, line + 128, b1⟩ : ICLine) ∈ t.core.icache

/-- RESPONSE_ARRIVAL, R146, R222: a response that has come to its requester frees the entry of its request and no other, and the DMA
instruction it acknowledges awaits one write less; then the requester's core goes on. One that has not come changes nothing but
places in the network. -/
def Claim.responseArrival : Prop :=
  ∀ (id addr n : Nat) (r : Resp) (s : State), n = s.net.resps.findIdx (fun x => x.id == id) → s.net.resps[n]? = some r →
    ((s.respTravel n r).1 = 0 → ∃ t0, exec (.responseArrival id 0 addr) s = .next (match r.rq with
        | .core u _ => t0.fenceCheck u
        | .coreDma u _ => t0.feed u
        | _ => t0) ∧
      t0.mem = s.mem ∧ t0.regs = s.regs ∧ (∀ x, x ∈ t0.net.resps → x.id ≠ id) ∧
      (∀ x, x.id ≠ id → (x ∈ t0.still.net.resps ↔ x ∈ s.still.net.resps)) ∧
      (∀ u q o, r.rq = .coreDma u q → s.opAt r.op = some o →
        ∃ p, t0.opAt r.op = some p ∧ p.writes = o.writes - 1 ∧ p.steps = o.steps)) ∧
    ((s.respTravel n r).1 = 2 → ∃ t, exec (.responseArrival id 0 addr) s = .next t ∧ t.still = s.still)

/-- STEP_COMMIT, R283, R284, with no replay and no burst under way: the step's accumulator words become committed contents, its
numeric status is added, and the instruction has one step fewer to commit; with the last one its scalar is written. Then the
core's long instructions go on. -/
def Claim.stepCommit : Prop :=
  ∀ (u op : Nat) (o : LongOp) (r : StepRes) (rest : List StepRes) (s : State), op ≠ 0 → s.opAt op = some o → o.u = u →
    o.steps = r :: rest → o.fault = none → s.commits u = true → s.firstOnPath o = true → nget s.core.inject u = 0 →
    s.integ.replaying = [] → s.integ.bursts = [] → (r.pm.map Prod.fst).Nodup →
    (∀ p, p ∈ r.pm → p.1 % 4 = 0 ∧ p.1 < 0x30000) →
    ∃ t, exec (.stepCommit u op) s = .next (t.feed u) ∧
      (∀ p i, p ∈ r.pm → i < 4 → (t.rd (pmBase u + p.1 + i)).toNat = p.2.toNat / 256 ^ i % 256) ∧
      s.bytesKept t (fun a => ∃ p, p ∈ r.pm ∧ inSpan (pmBase u + p.1) 4 a) ∧
      t.reg rCO_NUM_STATUS u 0 = s.reg rCO_NUM_STATUS u 0 ||| BitVec.ofNat 64 r.flags ∧
      (rest ≠ [] ∨ o.next.isSome = true → t.core.s = s.core.s ∧
        t.opAt op = some { o with steps := rest, start := r.after, done := o.done + 1 }) ∧
      (rest = [] → o.next = none → (∃ p, t.opAt op = some p ∧ p.steps = [] ∧ p.next = none ∧ p.done = o.done + 1) ∧
        (o.sreg = none → t.core.s = s.core.s) ∧
        (∀ x, o.sreg = some x → 0 < x.1 → x.1 < 32 → t.sReg u x.1 = x.2 ∧
          ∀ v k, k < 32 → ¬ (v = u ∧ k = x.1) → t.sReg v k = s.sReg v k))

/-- LONG_INSTRUCTION_COMPLETE, R104, R146: with every step committed and every write performed the instruction leaves its entry,
and its signal-at-commit, if it names one, goes out. Then the core's long instructions go on. -/
def Claim.longComplete : Prop :=
  ∀ (op : Nat) (o : LongOp) (s : State), s.opAt op = some o → opPending o = false → o.writes = 0 → s.commits o.u = true →
    (matrixOpc o.opc = true → ∀ x, x ∈ s.matrixPending o.u → o.id < x.id) → s.core.heldSigs = [] →
    nget s.core.wait o.u ≠ 2 →
    ∃ t : State, exec (.longInstructionComplete op) s = .next (t.feed o.u) ∧ t.mem = s.mem ∧
      (∀ x, x ∈ t.core.ops ↔ x ∈ s.core.ops ∧ x.id ≠ op) ∧ t.core.s = s.core.s ∧
      ((quadOf o.latch.quad).sig = false → t.net = s.net) ∧
      ((quadOf o.latch.quad).sig = true → ∃ g, t.net = { s.net with signals := s.net.signals ++ [g] } ∧
        g.sem = (quadOf o.latch.quad).sigSem ∧ g.amount = (quadOf o.latch.quad).sigAmount ∧ g.waybill = o.latch.waybill ∧
        g.tag = o.latch.tag ∧ g.stream = o.latch.stream ∧ g.lodging = (s.ownerOf (o.u / 28)).getD 0xFF) ∧
      (o.opc = 0x23 → t.fld fCO_CORE_STATUS_DMA_QUEUE o.u = s.fld fCO_CORE_STATUS_DMA_QUEUE o.u - 1)

/-- STEP_REPLAY, R285, of a single-word instruction: the detection is recorded with outcome 2 and counted, the step is being
replayed, and no register of the core has changed. -/
def Claim.stepReplay : Prop :=
  ∀ (u event inst dev : Nat) (s : State), u < 1344 → event ∈ [0x1009, 0x100A, 0x100B, 0x100C, 0x100D] →
    s.fld fCO_CORE_STATUS_STATE u = 1 → nget s.core.inject u = 0 → s.integ.replaying = [] →
    s.fld fMG_LEDGER_STATUS_UNREAD = 0 →
    ∃ t, exec (.stepReplay u 0 event inst dev false) s = .next t ∧
      (∃ b, t.integ.replaying = [⟨u, 0, event, b, false, s.now⟩]) ∧
      t.fld fCO_INTEG_STATUS_DETECTIONS u = min (2 ^ 16 - 1) (s.fld fCO_INTEG_STATUS_DETECTIONS u + 1) ∧
      Claim.logged s t event (unitCore u (detectClass event inst).1 (detectClass event inst).2) 2 ∧ t.core.s = s.core.s ∧
      t.core.v = s.core.v

/-- STEP_REPLAY, R285, of a long instruction: its uncommitted steps are discarded, and with a matrix-path instruction every
uncommitted step of the core's matrix path; each is carried out again from where it began. -/
def Claim.longReplay : Prop :=
  ∀ (u op event inst dev : Nat) (o : LongOp) (s : State), op ≠ 0 → s.opAt op = some o → o.u = u → opPending o = true →
    s.fld fCO_CORE_STATUS_STATE u ≠ 5 → event ∈ stepEvents → detectable o event dev = true → nget s.core.inject u = 0 →
    s.integ.replaying = [] → s.fld fMG_LEDGER_MIRROR_BASE = 0 → s.fld fMG_LEDGER_STATUS_UNREAD = 0 →
    ∃ t, exec (.stepReplay u op event inst dev false) s = .next (t.feed u) ∧ t.mem = s.mem ∧ t.core.s = s.core.s ∧
      Claim.logged s t event (unitCore u (detectClass event inst).1 (detectClass event inst).2) 2 ∧
      (∃ p, t.opAt op = some p ∧ p.steps = [] ∧ p.next = some o.start ∧ p.done = o.done ∧ p.latch = o.latch) ∧
      (∀ x, x ∈ t.core.ops → x.u = u → matrixOpc o.opc = true → matrixOpc x.opc = true → x.steps = [])

/-- STEP_REPLAY, R77: a tally check that does not deviate beyond the window of any uncommitted pass is no failure. -/
def Claim.withinWindow : Prop :=
  ∀ (u op inst dev : Nat) (o : LongOp) (s : State), op ≠ 0 → s.opAt op = some o → nget s.core.inject u = 0 →
    (∀ r l, r ∈ o.steps → r.tally = some l → dev ≤ l) → exec (.stepReplay u op 0x1002 inst dev false) s = .next s

/-- ME_INJECT and ME_CLR_COUNTS, R81, Table 3.11: the fault that the next pass will fail with; the three counters cleared. -/
def Claim.meTest : Prop :=
  ∀ (rq : Rq) (u code : Nat) (s : State), u < 1344 → s.csRefusal rq (coAddr u 0x508) true = none →
    (code % 4 ≠ 0 → ∃ t, exec (.meInject rq u code) s = .next t ∧ nget t.core.inject u = code % 4 ∧ t.regs = s.regs ∧
      t.mem = s.mem) ∧
    (∃ t, exec (.meClrCounts rq u) s = .next t ∧ t.fld fCO_ME_STATUS_TALLY_FAILS u = 0 ∧
      t.fld fCO_ME_STATUS_RESIDUE_FAILS u = 0 ∧ t.fld fCO_ME_STATUS_PARITY_FAILS u = 0 ∧ t = { s with regs := t.regs } ∧
      s.regsKept t [rkey rCO_ME_STATUS u 0] ∧ t.fld fCO_ME_STATUS_MODE u = s.fld fCO_ME_STATUS_MODE u)

/-- The rows of a core's work in flight. -/
def Obligations.CoreWorkIsFetchedCommittedAndReplayed : Prop :=
  Claim.icacheMiss ∧ Claim.responseArrival ∧ Claim.stepCommit ∧ Claim.longComplete ∧ Claim.stepReplay ∧ Claim.longReplay ∧
    Claim.withinWindow ∧ Claim.meTest

/-- TAKEOVER_COPY_DONE, R289, R290: with nothing lost, no row bad and no other takeover waiting, the logical core is in its new
slot, which holds the old one's scalars; the takeover is over and counted. -/
def Claim.takeoverCopyDone : Prop :=
  ∀ (c l : Nat) (k : Takeover) (s : State), c < 48 → l < 24 → s.integ.takeovers = [k] → k.c = c → k.l = l →
    k.old < 28 → k.new < 28 → k.old ≠ k.new → k.dress = false → s.integ.takeoverWait = [] → s.ms.poison = [] →
    s.ms.upsets = [] → s.fld fCO_INTEG_STATUS_FENCE_REASON (28 * c + k.old) ≠ 4 →
    (∀ o, o ∈ s.core.ops → o.u ≠ 28 * c + k.old ∧ o.u ≠ 28 * c + k.new) → s.net.resps = [] → s.canonical = true → mwf zeroW s.core.s = true →
    ∃ t, exec (.takeoverCopyDone c l false []) s = .next t ∧ t.slotOf c l = k.new ∧ t.integ.takeovers = [] ∧
      t.fld fCL_TAKEOVER_BUSY c = 0 ∧
      t.fld fCL_TAKEOVER_TAKEOVERS c = min (2 ^ 16 - 1) (s.fld fCL_TAKEOVER_TAKEOVERS c + 1) ∧
      (∀ r, r < 32 → t.sReg (28 * c + k.new) r = s.sReg (28 * c + k.old) r) ∧
      (s.fld fMG_LEDGER_MIRROR_BASE = 0 → ∀ o, o < 0x1F0000 →
        t.rd (slotWindow (28 * c + k.new) + o) = s.rd (slotWindow (28 * c + k.old) + o))

/-- CORE_HEARTBEAT_PROBE, R288: an active core that answers has missed none; its first miss fences nothing. -/
def Claim.heartbeat : Prop :=
  ∀ (c l : Nat) (silent : List Nat) (s : State), c < 48 → l < 24 → s.atBoundary 250000 = true → s.slotOf c l < 28 →
    (∀ u, nget s.integ.missed u = 0) →
    ∃ t, exec (.coreHeartbeatProbe c silent) s = .next t ∧ t.regs = s.regs ∧ t.mem = s.mem ∧
      (silent.contains (s.slotOf c l) = false → nget t.integ.missed (28 * c + s.slotOf c l) = 0) ∧
      (silent.contains (s.slotOf c l) = true → nget t.integ.missed (28 * c + s.slotOf c l) = 1)

/-- STORM_HOLD_END and STORM_CEILING_LIFT, R296: the clock restarts one step lower; the ceiling lifts after 1 s. -/
def Claim.storm : Prop :=
  ∀ (c : Nat) (b : Burst) (s : State), c < 48 → s.integ.bursts = [b] → b.c = c →
    (b.held = true → b.stop + 250000 * s.fld fMG_INTEG_CFG_STORM_HOLD ≤ s.now →
      ∃ t, exec (.stormHoldEnd c) s = .next t ∧ t.integ.bursts = [{ b with held := false, restarted := some s.now }] ∧
        t.ceilAt .burst c = b.ceiling ∧ t.mem = s.mem ∧ s.regsKept t [rkey rTM_REGION_STEP 0 c]) ∧
    (∀ at_, b.restarted = some at_ → at_ + 250000000 ≤ s.now →
      ∃ t, exec (.stormCeilingLift c) s = .next t ∧ t.integ.bursts = [] ∧ t.ceilAt .burst c = 7 ∧ t.mem = s.mem ∧
        s.regsKept t [rkey rTM_REGION_STEP 0 c])

/-- SEQUENCER_MISMATCH, R293, R295, and CLUSTER_INTERFACE_FAILURE, R293, R294: a first mismatch is recorded and the sequencer is
reset; a second within 1 s, or an interface failure, fences the cluster. -/
def Claim.clusterFailures : Prop :=
  (∀ (c : Nat) (s : State), c < 48 → nget s.sq.seqMismatch c = 0 →
    ∃ t, exec (.sequencerMismatch c) s = .next t ∧ nget t.sq.seqMismatch c = s.now + 1 ∧
      t.clusterFenced c = s.clusterFenced c ∧ (∀ x, x ∈ t.sq.launches → x.c ≠ c) ∧ (∀ x, x ∈ t.sq.tensors → x.c ≠ c)) ∧
  (∀ (c : Nat) (s : State), c < 48 → s.resetHolds c = false → nget s.sq.seqMismatch c ≠ 0 → s.now < nget s.sq.seqMismatch c - 1 + 250000000 →
    ∃ t, exec (.sequencerMismatch c) s = .next t ∧ t.clusterFenced c = true) ∧
  (∀ (c : Nat) (s : State), c < 48 → s.resetHolds c = false →
    ∃ t, exec (.clusterInterfaceFailure c) s = .next t ∧ t.clusterFenced c = true ∧
      (s.clusterFenced c = false → t.fld fMG_STICKY1_CLUSTER_FENCED = 1 ∧ ∀ x, x ∈ t.integ.takeovers → x.c ≠ c))

/-- DRESSING_SCHEDULE, R299, R301: with no lease, no run under way and exactly one slot ready, which has no spare that fits, that
slot's run starts with its core held. -/
def Claim.dressingSchedule : Prop :=
  ∀ (u : Nat) (s : State), u < 1344 → s.atBoundary 250000000 = true → s.is fMG_DRESS_CFG_EN = true → s.mg.ctrl = 0 →
    s.fld fMG_START_STATUS_STATE = 1 → s.mg.leases = [] → s.integ.dressings = [] → s.integ.takeovers = [] →
    s.integ.redo = [] → s.actFirst 8 = true → (∀ v, v ∈ s.allActive → s.now < nget s.integ.dueAt v) →
    s.earliest (s.allActive.filter (fun v => s.dressReady v)) = some u → s.spareFits u = false →
    ∃ t, exec .dressingSchedule s = .next t ∧ t.integ.dressings = [⟨u, false, some (s.logicalOf u), (s.stress (u / 28)).1,
        (s.stress (u / 28)).2, false⟩] ∧
      t.fld fCO_INTEG_STATUS_DRESSING u = 1 ∧ t.mem = s.mem

/-- DRESSING_RUN_END, R299, R302: a run that passes writes event 0x1020 with outcome 0 and is over, its slot next due after PERIOD;
one that fails writes event 0x1021, and its slot is fenced; one that something has interrupted ends without a verdict, and the slot
that gave up its core for it is to be dressed again. -/
def Claim.dressingRunEnd : Prop :=
  (∀ (u : Nat) (d : Dressing) (s : State), u < 1344 → s.integ.dressings = [d] → d.u = u → s.mg.leases = [] → d.cut = false →
    s.dressSuspended (u / 28) = false → s.fld fMG_LEDGER_STATUS_UNREAD = 0 →
    (∃ t, exec (.dressingRunEnd u 0) s = .next t ∧ t.integ.dressings = [] ∧ t.fld fCO_INTEG_STATUS_DRESSING u = 0 ∧
      nget t.integ.dueAt u = s.now + 900000000000 * s.fld fMG_DRESS_CFG_PERIOD ∧
      Claim.logged s t 0x1020 (unitCore u 0 0) 0 ∧ t.fld fMG_DRESS_STATUS_RUNNING = 0xFFFF) ∧
    (s.rst.cores = [] → (s.fld fCL_ROW_SPARE_FENCED (u / 28)).testBit (u % 28) = false →
      ∃ t, exec (.dressingRunEnd u 1) s = .next t ∧ t.integ.dressings = [] ∧ Claim.logged s t 0x1021 (unitCore u 0 0) 3 ∧
        t.fld fCO_CORE_STATUS_STATE u = 5 ∧ t.fld fCO_INTEG_STATUS_FENCE_REASON u = 5)) ∧
  (∀ (u v : Nat) (d : Dressing) (s : State), u < 1344 → s.integ.dressings = [d] → d.u = u → s.mg.leases = [] → d.cut = true →
    ∃ t, exec (.dressingRunEnd u v) s = .next t ∧ t.integ.dressings = [] ∧ t.fld fCO_INTEG_STATUS_DRESSING u = 0 ∧
      t.integ.dueAt = s.integ.dueAt ∧ t.integ.ledger = s.integ.ledger ∧ (d.leased = none → u ∈ t.integ.redo))

/-- The integrity rows. -/
def Obligations.IntegrityCommandsDoWhatTheySay : Prop :=
  Claim.takeoverCopyDone ∧ Claim.heartbeat ∧ Claim.storm ∧ Claim.clusterFailures ∧ Claim.dressingSchedule ∧
    Claim.dressingRunEnd

/-- LEDGER_READ_ADVANCE, R309, whole. -/
def Obligations.LedgerReadFreesUpToTheNewIndex : Prop :=
  ∀ (rq : Rq) (v n : Nat) (s : State), v < 1024 → s.csRefusal rq (mgAddr 0x1008) true = none →
    n = (v + 1024 - s.fld fMG_LEDGER_READ_READ) % 1024 →
    (n ≤ s.fld fMG_LEDGER_STATUS_UNREAD →
      ∃ t, exec (.ledgerReadAdvance rq v) s = .next t ∧ t.fld fMG_LEDGER_READ_READ = v ∧
        t.fld fMG_LEDGER_STATUS_UNREAD = s.fld fMG_LEDGER_STATUS_UNREAD - n ∧ t = { s with regs := t.regs } ∧
        s.regsKept t [rkey rMG_LEDGER_READ 0 0, rkey rMG_LEDGER_STATUS 0 0] ∧
        t.fld fMG_LEDGER_STATUS_WRITTEN = s.fld fMG_LEDGER_STATUS_WRITTEN) ∧
    (s.fld fMG_LEDGER_STATUS_UNREAD < n → exec (.ledgerReadAdvance rq v) s = .next s) ∧
    (v = s.fld fMG_LEDGER_READ_READ →
      ∃ t, exec (.ledgerReadAdvance rq v) s = .next t ∧
        t.fld fMG_LEDGER_STATUS_UNREAD = s.fld fMG_LEDGER_STATUS_UNREAD ∧ t.fld fMG_LEDGER_READ_READ = v)

/-- LEDGER_MIRROR_SET, R303: a BASE of 0 makes no mirror; any other, a multiple of 2^16, has every record the ledger holds copied
to the ring, each at its index, here for a ledger of one record. -/
def Claim.mirrorSet : Prop :=
  ∀ (rq : Rq) (v : Nat) (s : State), v < 2 ^ 40 → v % 65536 = 0 → s.csRefusal rq (mgAddr 0x1028) true = none →
    (v = 0 → ∃ t, exec (.ledgerMirrorSet rq v) s = .next t ∧ t.mem = s.mem ∧ t.fld fMG_LEDGER_MIRROR_BASE = 0 ∧
      s.regsKept t [rkey rMG_LEDGER_MIRROR 0 0]) ∧
    (∀ i r, v ≠ 0 → v < hbmSize - 65536 → i < 1024 → s.integ.ledger = [(i, some r)] → r.detail.length ≤ 28 →
      ∃ t, exec (.ledgerMirrorSet rq v) s = .next t ∧ t.fld fMG_LEDGER_MIRROR_BASE = v ∧
        t.physRead (v + 64 * i) 64 = recBytes r ∧ s.bytesKept t (inSpan (v + 64 * i) 64) ∧
        s.regsKept t [rkey rMG_LEDGER_MIRROR 0 0])

/-- The one recording operation, and LEDGER_MIRROR_SET. -/
def Obligations.EventsAreRecordedInTheLedger : Prop :=
  Claim.mirrorSet ∧
  (∀ (e : Ev) (s : State), s.fld fMG_LEDGER_STATUS_UNREAD = 0 →
    Claim.logged s (s.record e) e.event e.unit e.outcome ∧ (s.record e).fld fMG_LEDGER_STATUS_UNREAD = 1 ∧
      (s.record e).fld fMG_LEDGER_STATUS_WRITTEN = (s.fld fMG_LEDGER_STATUS_WRITTEN + 1) % 2 ^ 32) ∧
  (∀ (e : Ev) (s : State), s.fld fMG_LEDGER_STATUS_UNREAD = 1024 →
    (∀ q, s.recAt ((s.fld fMG_LEDGER_READ_READ + 2047) % 1024) = some q → q.event ≠ e.event) →
    (s.record e).fld fMG_LEDGER_STATUS_UNREAD = 1024 ∧ (s.record e).fld fMG_STICKY1_LEDGER_OVERFLOW = 1 ∧
      (s.record e).fld fMG_LEDGER_STATUS_OVERFLOWS = min (2 ^ 16 - 1) (s.fld fMG_LEDGER_STATUS_OVERFLOWS + 1) ∧
      ∃ r, (s.record e).recAt ((s.fld fMG_LEDGER_READ_READ + 2047) % 1024) = some r ∧ r.event = e.event) ∧
  (∀ (e : Ev) (q : LedgerRec) (s : State), s.fld fMG_LEDGER_STATUS_UNREAD = 1 →
    s.recAt (s.fld fMG_LEDGER_READ_READ) = some q → q.event = e.event → q.unit = e.unit → q.waybill = e.waybill →
    s.now ≤ q.time + 250000 → q.count < 0xFFFFFF →
    (s.record e).recAt (s.fld fMG_LEDGER_READ_READ) = some { q with count := q.count + 1 } ∧
      (s.record e).regs = s.regs)

/-- R307, whole. -/
def Obligations.LikeEventsAdvanceCount : Prop :=
  ∀ (e : Ev) (q q' : LedgerRec) (n base : Nat) (s : State), s.fld fMG_LEDGER_STATUS_UNREAD ≠ 0 →
    n = (s.fld fMG_LEDGER_READ_READ + s.fld fMG_LEDGER_STATUS_UNREAD + 1023) % 1024 → s.recAt n = some q →
    q.event = e.event → q.unit = e.unit → q.waybill = e.waybill → s.now ≤ q.time + 250000 →
    q' = { q with count := min 0xFFFFFF (q.count + 1) } → base = s.fld fMG_LEDGER_MIRROR_BASE → base % 65536 = 0 →
    base < hbmSize - 65536 →
    (s.record e).recAt n = some q' ∧ (∀ i, i ≠ n → (s.record e).recAt i = s.recAt i) ∧ (s.record e).regs = s.regs ∧
    (base = 0 → (s.record e).mem = s.mem) ∧
    (base ≠ 0 → (s.record e).physRead (base + 64 * n) 64 = recBytes q' ∧
      s.bytesKept (s.record e) (inSpan (base + 64 * n) 64))

/-- R308, whole. -/
def Obligations.FullLedgerKeepsTheFirstAndTheNewest : Prop :=
  ∀ (e : Ev) (n : Nat) (s : State), s.fld fMG_LEDGER_STATUS_UNREAD = 1024 →
    n = (s.fld fMG_LEDGER_READ_READ + 2047) % 1024 →
    (∀ q, s.recAt n = some q →
      ¬ (q.event = e.event ∧ q.unit = e.unit ∧ q.waybill = e.waybill ∧ s.now ≤ q.time + 250000)) →
    (s.record e).recAt n = some (s.mkRec e) ∧ (∀ i, i ≠ n → (s.record e).recAt i = s.recAt i) ∧
    (s.record e).fld fMG_LEDGER_STATUS_UNREAD = 1024 ∧
    (s.record e).fld fMG_LEDGER_READ_READ = s.fld fMG_LEDGER_READ_READ ∧
    (s.record e).fld fMG_LEDGER_STATUS_OVERFLOWS = min 65535 (s.fld fMG_LEDGER_STATUS_OVERFLOWS + 1) ∧
    (s.record e).fld fMG_STICKY1_LEDGER_OVERFLOW = 1

/-! ### Streams and their records (chapter 6) -/

/-- No sequencer traces. -/
def Claim.untraced (s : State) : Prop := ∀ c, c < 64 → s.is fSQ_TRACE_CTRL_EN c = false

/-- R161, R171-R173: slot i of sequencer c is about to issue the record x, of a kind: the stream runs in it, its record at
POSITION has been fetched (`s0` is the state before, and `s` that which the fetch leaves), has no reserved bit set and names the
stream, and what its class waits for is over. Nothing is traced, and no stored bit has flipped. -/
def Claim.record (s0 s : State) (c i opc : Nat) (x : Iss) : Prop :=
  c < 48 ∧ i < 16 ∧ s0.canIssue c i = true ∧ s0.ms.upsets = [] ∧ Claim.untraced s ∧ x.c = c ∧ x.i = i ∧
    x.id = s0.fld fSQ_SLOT_STREAM c i ∧ x.pos = s0.fld fGL_STREAM3_POSITION 0 x.id ∧ s.fld fGL_STREAM7_HOME 0 x.id = c ∧
    s0.fetchRec c i x.pos = (.ok x.words, s) ∧ recLegal x.words = true ∧
    x.opc = opc ∧ recStream x.words = x.id ∧ (ordered opc = true ∨ recFence x.words = true → s.outstanding x.id = 0) ∧
    (launches opc = true → s.outstanding x.id < 32)

/-- R161: fetching a record, and fetching ahead, changes nothing but what the sequencer holds, and what a request that is served
changes; a fetch ahead that gave what memory still holds is the record. -/
def Claim.recordFetch : Prop :=
  (∀ (c i pos : Nat) (ws : List Word) (t s : State), s.ms.upsets = [] → s.fetchRec c i pos = (.ok ws, t) →
    t.still = { s.still with hbm := t.still.hbm, fresh := t.fresh }) ∧
  (∀ (c i : Nat) (s : State), s.ms.upsets = [] →
    (s.ahead c i).still = { s.still with hbm := (s.ahead c i).still.hbm, fresh := (s.ahead c i).fresh,
                                         sq := { s.sq with prefetch := (s.ahead c i).sq.prefetch } } ∧
      ((s.sq.prefetch.filter (fun p => p.1 == slotKey c i)).length ≤ 8 →
        ((s.ahead c i).sq.prefetch.filter (fun p => p.1 == slotKey c i)).length ≤ 8)) ∧
  (∀ (c i pos : Nat) (ws : List Word) (s : State), s.aheadOf c i pos = some ws → (s.readRec c pos).1 = .ok ws →
    s.fetchRec c i pos = (.ok ws, s))

/-- R173: an ordered record, or one with FENCE, whose stream has launches outstanding waits for them, timed, where it stands. -/
def Claim.orderedWaits : Prop :=
  ∀ (c i opc : Nat) (ws : List Word) (cmd : Instr) (s0 s : State),
    (cmd, opc) ∈ [(.semSignal c i, 0x04), (.flagSet c i, 0x06), (.barrier c i, 0x08), (.checkpointMark c i, 0x0D),
      (.endCmd c i, 0x0F)] → c < 48 → i < 16 → s0.canIssue c i = true → s0.ms.upsets = [] → Claim.untraced s →
    s0.fetchRec c i (s0.fld fGL_STREAM3_POSITION 0 (s0.fld fSQ_SLOT_STREAM c i)) = (.ok ws, s) → recLegal ws = true →
    recOpc ws = opc → recStream ws = s0.fld fSQ_SLOT_STREAM c i → s.outstanding (recStream ws) ≠ 0 → s.fld fSQ_SLOT_WAIT c i = 0 →
    ∃ t w, exec cmd s0 = .next (t.ahead c i) ∧ t.fld fSQ_SLOT_WAIT c i = 6 ∧ t.waitOf (slotKey c i) = some w ∧
      w.limit = some (s.streamLimit (recStream ws)) ∧ w.since = s.now ∧ t.mem = s.mem ∧ s.regsKept t [rkey rSQ_SLOT c i]

/-- The slot awaits nothing after the record, and the stream goes on with the record after it (R173). -/
def Claim.passed (t : State) (x : Iss) : Prop :=
  t.fld fGL_STREAM3_POSITION 0 x.id = (x.pos + 64) % 2 ^ 40 ∧ t.fld fSQ_SLOT_WAIT x.c x.i = 0 ∧
    t.waitOf (slotKey x.c x.i) = none ∧ t.fld fSQ_SLOT_STREAM x.c x.i = x.id ∧ t.is fSQ_SLOT_VALID x.c x.i = true

/-- The keys of the registers that a record moves on. -/
def Claim.recKeys (x : Iss) : List Nat := [rkey rGL_STREAM3 0 x.id, rkey rGL_STREAM5 0 x.id, rkey rSQ_SLOT x.c x.i]

/-- The record has completed: COMPLETED counts it, LAST_WAYBILL names it, and no register changes but those named. -/
def Claim.done (s t : State) (x : Iss) (keys : List Nat) : Prop :=
  Claim.passed t x ∧ t.fld fGL_STREAM5_COMPLETED 0 x.id = (s.fld fGL_STREAM5_COMPLETED 0 x.id + 1) % 2 ^ 32 ∧
    t.fld fGL_STREAM5_LAST_WAYBILL 0 x.id = x.way ∧ s.regsKept t (Claim.recKeys x ++ keys)

/-- The record's launch is on its way: the stream goes on, and nothing has completed. -/
def Claim.launched (s t : State) (x : Iss) (cores : List Nat) (sig : Option (Nat × Nat)) : Prop :=
  Claim.passed t x ∧ s.regsKept t [rkey rGL_STREAM3 0 x.id, rkey rSQ_SLOT x.c x.i] ∧
    t.sq.launches = s.sq.launches ++ [⟨s.sq.nextLaunch, x.c, x.id, x.way, x.opc, cores, sig⟩]

/-- The slot has begun a wait (R173, R191): its code, the object, the value required, whether it is timed, and its cores. -/
def Claim.waits (s t : State) (x : Iss) (code obj need : Nat) (timed : Bool) (cores : List Nat) (keys : List Nat) : Prop :=
  t.fld fGL_STREAM3_POSITION 0 x.id = (x.pos + 64) % 2 ^ 40 ∧ t.fld fSQ_SLOT_WAIT x.c x.i = code ∧
    s.regsKept t (rkey rGL_STREAM3 0 x.id :: rkey rSQ_SLOT x.c x.i :: keys) ∧
    ∃ w, t.waitOf (slotKey x.c x.i) = some w ∧ w.obj = obj ∧ w.need = need ∧ w.since = s.now ∧ w.cores = cores ∧
      w.record = x.words ∧ w.limit = if timed then some (s.streamLimit x.id) else none

/-- STREAM_ARM, R165: an entry that is not active and passes the checks, with the word written, is ARMED and is examined at the
next boundary; LODGING shows the owner of its range. -/
def Claim.streamArm : Prop :=
  ∀ (rq : Rq) (id l : Nat) (w : Word) (s : State), id < 65536 → s.csRefusal rq (entryAddr id 7) true = none →
    s.fld fGL_STREAM7_STATE 0 id ∉ [1, 2, 3] → w.toNat % 8 = 1 → s.rangeOwner id = some l →
    s.owns l (fieldOf 48 6 w.toNat) = true → s.fld fGL_STREAM2_BASE 0 id % 64 = 0 →
    (w.toNat.testBit 17 = true → s.fld fGL_STREAM3_POSITION 0 id % 64 = 0) →
    (2 ≤ fieldOf 8 2 w.toNat → s.fld fGL_STREAM1_FLAG_CMP 0 id ≠ 3 ∧ s.owns l (s.fld fGL_STREAM1_FLAG_CLUSTER 0 id) = true) →
    ∃ t, exec (.streamArm rq id w) s = .next t ∧ t.fld fGL_STREAM7_STATE 0 id = 1 ∧ t.fld fGL_STREAM7_LODGING 0 id = l ∧
      t.fld fGL_STREAM7_HOME 0 id = fieldOf 48 6 w.toNat ∧ t.fld fGL_STREAM7_COND 0 id = fieldOf 8 2 w.toNat ∧
      s.regsKept t [rkey rGL_STREAM7 0 id] ∧
      t = { s with regs := t.regs, sq := { s.sq with examine := s.sq.examine ++ [id],
                                                     overdue := s.sq.overdue.filter (fun x => x != id) } }

/-- STREAM_DISARM and STREAM_FREE, R165: an ARMED entry, and one that has ended, become FREE. -/
def Claim.streamFree : Prop :=
  ∀ (rq : Rq) (id : Nat) (w : Word) (s : State), id < 65536 → s.csRefusal rq (entryAddr id 7) true = none → w.toNat % 8 = 0 →
    (s.fld fGL_STREAM7_STATE 0 id = 1 → ∃ t, exec (.streamDisarm rq id w) s = .next t ∧ t.fld fGL_STREAM7_STATE 0 id = 0 ∧
      t.fld fGL_STREAM7_HOME 0 id = s.fld fGL_STREAM7_HOME 0 id ∧ id ∉ t.sq.examine ∧ id ∉ t.sq.overdue ∧
      s.regsKept t [rkey rGL_STREAM7 0 id] ∧ t = { s with regs := t.regs, sq := t.sq }) ∧
    (4 ≤ s.fld fGL_STREAM7_STATE 0 id → ∃ t, exec (.streamFree rq id w) s = .next t ∧ t.fld fGL_STREAM7_STATE 0 id = 0 ∧
      t.fld fGL_STREAM7_HOME 0 id = fieldOf 48 6 w.toNat ∧ s.regsKept t [rkey rGL_STREAM7 0 id] ∧
      t = { s with regs := t.regs })

/-- STREAM_RELEASE_BOUNDARY, R167-R169, R279: the one entry due, on time, in a live cluster and held by nothing, is READY, at BASE
unless it resumes, with its counters as R169 has them; the next boundary examines anew. Where the copies of the scheduler disagree
nothing is released, event 0x1018 is recorded, and the entries due wait for the next boundary. -/
def Claim.releaseBoundary : Prop :=
  ∀ (id : Nat) (s : State), s.atBoundary 250 = true → s.sq.examinedAt ≠ s.now + 1 → s.actFirst 6 = true →
    (id < 65536 → Claim.untraced s → s.dueNow = [id] → s.sq.overdue = [] → s.missed (s.dueFrom id) = false →
      s.rst.lodgings = [] → s.eligible 5 0 0 (schedAsker (s.rangeOwner id)) = true →
      s.clusterFenced (s.fld fGL_STREAM7_HOME 0 id) = false →
      ∃ t, exec (.streamReleaseBoundary false) s = .next t ∧ t.fld fGL_STREAM7_STATE 0 id = 2 ∧
        t.fld fGL_STREAM3_POSITION 0 id =
          (if s.is fGL_STREAM7_RESUME 0 id then s.fld fGL_STREAM3_POSITION 0 id else s.fld fGL_STREAM2_BASE 0 id) ∧
        t.fld fGL_STREAM5_COMPLETED 0 id = 0 ∧ t.fld fGL_STREAM6_FAULT 0 id = 0 ∧
        t.fld fGL_STREAM6_RELEASES 0 id = (s.fld fGL_STREAM6_RELEASES 0 id + 1) % 2 ^ 16 ∧ t.sq.ready = s.sq.ready ++ [id] ∧
        nget t.sq.releaseAt id = s.now ∧ t.sq.examine = [] ∧ t.mem = s.mem ∧
        s.regsKept t [rkey rGL_STREAM3 0 id, rkey rGL_STREAM5 0 id, rkey rGL_STREAM6 0 id, rkey rGL_STREAM7 0 id]) ∧
    (s.fld fMG_LEDGER_STATUS_UNREAD = 0 →
      ∃ t, exec (.streamReleaseBoundary true) s = .next t ∧ t.sq.ready = s.sq.ready ∧ t.sq.overdue = s.dueNow ∧
        Claim.logged s t 0x1018 unitSched 2 ∧ ∀ k, t.fld fGL_STREAM7_STATE 0 k = s.fld fGL_STREAM7_STATE 0 k)

/-- STREAM_SLOT_ASSIGN, R162: the READY stream of a sequencer released earliest takes a free slot and runs. -/
def Claim.slotAssign : Prop :=
  ∀ (c i id : Nat) (s : State), c < 48 → i < 16 → id < 65536 →
    s.sq.ready.find? (fun k => s.fld fGL_STREAM7_HOME 0 k == c) = some id → s.is fSQ_SLOT_VALID c i = false →
    s.clusterHeld c = false → s.lodgingHalted c = false →
    ∃ t, exec (.streamSlotAssign c i) s = .next t ∧ t.is fSQ_SLOT_VALID c i = true ∧ t.fld fSQ_SLOT_STREAM c i = id ∧
      t.fld fSQ_SLOT_WAIT c i = 0 ∧ t.waitOf (slotKey c i) = none ∧ t.fld fGL_STREAM7_STATE 0 id = 3 ∧
      t.sq.ready = s.sq.ready.erase id ∧ s.regsKept t [rkey rSQ_SLOT c i, rkey rGL_STREAM7 0 id] ∧ t.mem = s.mem

/-- STREAM_STOP, R194: a stream in the requester's reach that is ARMED or READY is STOPPED at once; one that runs with launches
outstanding ends when they have completed, and its slot issues no more. -/
def Claim.streamStop : Prop :=
  ∀ (rq : Rq) (id : Nat) (s : State), id < 65536 → s.csRefusal rq (glAddr 0x300) true = none →
    (rq.platform = true ∨ ∃ l, s.lodgingOf rq = some l ∧ s.inRange l id = true) →
    (s.fld fGL_STREAM7_STATE 0 id = 1 ∨ s.fld fGL_STREAM7_STATE 0 id = 2 →
      ∃ t, exec (.streamStop rq id) s = .next t ∧ t.fld fGL_STREAM7_STATE 0 id = 6 ∧ s.regsKept t [rkey rGL_STREAM7 0 id] ∧
        (s.fld fGL_STREAM7_STATE 0 id = 2 → id ∉ t.sq.ready) ∧ t.mem = s.mem) ∧
    (s.fld fGL_STREAM7_STATE 0 id = 3 → s.sq.ending.any (fun e => e.1 == id) = false → s.slotIx id ≠ none →
      s.outstanding id ≠ 0 → ∃ t, exec (.streamStop rq id) s = .next t ∧ t.sq.ending = s.sq.ending ++ [(id, 6)] ∧
        t.fld fGL_STREAM7_STATE 0 id = 3 ∧ (∀ x, x ∈ t.sq.tensors → x.stream ≠ id) ∧ t.sq.launches = s.sq.launches ∧
        t.mem = s.mem)

/-- The rows of the stream table. -/
def Obligations.StreamsAreArmedReleasedAndStopped : Prop :=
  Claim.streamArm ∧ Claim.streamFree ∧ Claim.releaseBoundary ∧ Claim.slotAssign ∧ Claim.streamStop

/-- TENSOR, R175-R177, R179: with its operand pack read and its gang present and unfaulted, it takes its place in the order of
delivery; POSITION stays until it is delivered. t0 is the state that reading the pack leaves. -/
def Claim.tensor : Prop :=
  ∀ (c i : Nat) (x : Iss) (ws : List Word) (ls : List Nat) (t0 s0 s : State), Claim.record s0 s c i 0x01 x → insnOk (x.w 2) = true →
    (s.waitOver x).readPack x = (some (.ok ws), t0) →
    s.gangOf c (x.bits 0 0 24) ((x.w 0).testBit 24) = some ls → s.gangFaulted c ls = false →
    ∃ t : State, exec (.tensor c i) s0 = .next (t.ahead c i) ∧
      t = { t0 with sq := { t0.sq with tensors := t0.sq.tensors ++ [⟨c, x.id, x.words, ws, x.pos⟩] } } ∧
      t.fld fGL_STREAM3_POSITION 0 x.id = x.pos ∧ s.regsKept t [rkey rSQ_SLOT c i] ∧ t.mem = s.mem ∧
      t.sq.launches = s.sq.launches

/-- TENSOR_DELIVERY, R175, R177: the oldest TENSOR of a sequencer is delivered to every core of its gang in one cycle, and is a
launch of its stream from then on. -/
def Claim.tensorDelivery : Prop :=
  ∀ (c : Nat) (d : Tensor) (ls : List Nat) (s : State), s.sq.tensors.find? (fun t => t.c == c) = some d → d.stream < 65536 →
    s.gangOf c (recWord d.record 0 % 2 ^ 24) ((recWord d.record 0).testBit 24) = some ls → s.gangFaulted c ls = false →
    s.gangFree c ls = true → s.clusterFenced c = false → s.gangPaused = false → Claim.untraced s →
    ∃ t, exec (.tensorDelivery c) s = .next (t.aheadOfStream d.stream) ∧ t.sq.tensors = s.sq.tensors.erase d ∧
      t.core.bq = s.core.bq ++ ls.map (fun l => ⟨c, l, s.sq.nextLaunch, d.record, d.pack, d.pos⟩) ∧
      t.sq.launches = s.sq.launches ++ [⟨s.sq.nextLaunch, c, d.stream, recWaybill d.record, 0x01, ls, none⟩] ∧
      t.fld fGL_STREAM3_POSITION 0 d.stream = (d.pos + 64) % 2 ^ 40 ∧ s.regsKept t [rkey rGL_STREAM3 0 d.stream] ∧
      t.mem = s.mem

/-- CALL_CORE, R177, R178: with a header that keeps Table 6.7, a supported level, and its gang's argument blocks read, a program
start waits for each named core. -/
def Claim.callCore : Prop :=
  ∀ (c i : Nat) (x : Iss) (h : List (BitVec 8)) (ls : List Nat) (args : List (Nat × List Word)) (t0 t1 s0 s : State),
    Claim.record s0 s c i 0x02 x → x.bits 2 0 40 % 64 = 0 → x.bits 3 0 40 % 64 = 0 → x.bits 4 0 32 % 64 = 0 →
    (s.waitOver x).readMem (.seqFetch c x.org) (x.bits 2 0 40) 64 = (.ok h, t0) → headerOk h = true →
    s.levelSupported (leNat ((h.drop 2).take 1)) = true →
    s.gangOf c (x.bits 0 0 24) ((x.w 0).testBit 24) = some ls →
    (∀ l, l ∈ ls → formOk ((x.bits 3 0 40 + l * x.bits 4 0 32 : Nat) : Int) 64 = true) →
    State.readArgs x t0 ls = (.ok args, t1) → args.map (fun p => p.1) = ls →
    ∃ t : State, exec (.callCore c i) s0 = .next (t.ahead c i) ∧ Claim.launched s t x ls none ∧ t.mem = s.mem ∧
      t.core.starts = s.core.starts ++ args.map (fun p => ⟨c, p.1, s.sq.nextLaunch,
        (x.bits 2 0 40 + leNat ((h.drop 8).take 8)) % 2 ^ 40, p.2, leNat ((h.drop 2).take 1)⟩)

/-- CORE_PROGRAM_START, R125, R178: on a core that is ready the program is RUNNING at its entry point, with its arguments in s1 to
s8, every other scalar 0, every predicate but p0 clear, and no fault. -/
def Claim.programStart : Prop :=
  ∀ (c l : Nat) (x : CoreStart) (s : State), c < 48 → s.slotOf c l < 28 →
    s.core.starts.find? (fun y => y.c == c && y.l == l) = some x → s.coreReady c l = true → x.level < 4 →
    ∃ t, exec (.coreProgramStart c l) s = .next t ∧ t.fld fCO_CORE_STATUS_STATE (28 * c + s.slotOf c l) = 1 ∧
      t.pc (28 * c + s.slotOf c l) = x.entry % 2 ^ 40 ∧ t.fld fCO_CORE_STATUS_LEVEL (28 * c + s.slotOf c l) = x.level ∧
      (∀ r, r < 32 → t.sReg (28 * c + s.slotOf c l) r = if 1 ≤ r ∧ r ≤ 8 then x.args.getD (r - 1) 0#64 else 0#64) ∧
      (∀ r, 0 < r → r < 8 → t.pReg (28 * c + s.slotOf c l) r = 0#64) ∧
      t.reg rCO_FAULT (28 * c + s.slotOf c l) 0 = 0#64 ∧ t.core.starts = s.core.starts.erase x ∧ t.mem = s.mem ∧
      (∀ v r, v ≠ 28 * c + s.slotOf c l → r < 32 → t.sReg v r = s.sReg v r)

/-- LAUNCH_COMPLETE, R173, R174: a launch whose cores are done and whose writes are acknowledged completes, of a stream that goes
on: COMPLETED counts it, and its signal goes out if it asks for one. -/
def Claim.launchComplete : Prop :=
  ∀ (n : Nat) (x : Launch) (s : State), s.sq.launches.find? (fun y => y.id == n) = some x → x.stream < 65536 → x.cores = [] →
    (∀ r, r ∈ s.net.resps → ¬ (r.rq.table = (3, x.c) ∧ r.op = n)) → Claim.untraced s →
    s.sq.ending.find? (fun e => e.1 == x.stream) = none → x.waybill < 2 ^ 32 →
    ∃ t, exec (.launchComplete n) s = .next t ∧ (∀ y, y ∈ t.sq.launches ↔ y ∈ s.sq.launches ∧ y.id ≠ n) ∧
      t.fld fGL_STREAM5_COMPLETED 0 x.stream = (s.fld fGL_STREAM5_COMPLETED 0 x.stream + 1) % 2 ^ 32 ∧
      t.fld fGL_STREAM5_LAST_WAYBILL 0 x.stream = x.waybill ∧ s.regsKept t [rkey rGL_STREAM5 0 x.stream] ∧ t.mem = s.mem ∧
      (x.sig = none → t.net = s.net) ∧
      (∀ g, x.sig = some g → ∃ m, t.net = { s.net with signals := s.net.signals ++ [m] } ∧ m.sem = g.1 ∧ m.amount = g.2 ∧
        m.waybill = x.waybill ∧ m.unit = unitSeq x.c ∧ m.lodging = s.streamLodging x.stream ∧ m.stream = x.stream)

/-- DMA, R154, R161, R174, of one run copied from the walk point to word 3: its bytes are moved by the sequencer's engine, and the
launch awaits the acknowledgement. t0 is the state that reading the descriptor leaves. -/
def Claim.dmaRecord : Prop :=
  ∀ (c i p pa pb : Nat) (x : Iss) (blk : List (BitVec 8)) (t0 s0 s : State), Claim.record s0 s c i 0x03 x → x.bits 0 0 4 = 0 →
    x.bits 5 0 40 % 64 = 0 → addrForm (x.w 2) < 2 → addrForm (x.w 3) < 2 → s.dmaQueue c < 8 → 0 < s.tableFree (.seqDma c) →
    (s.waitOver x).readMem (.seqFetch c x.org) (x.bits 5 0 40) 64 = (.ok blk, t0) → descOk (wordsOf 8 blk) = true →
    blk.length = 64 → walkCount (wordsOf 8 blk) = 1 → walkPoint (x.w 2) (wordsOf 8 blk) 0 = p →
    Claim.oneRun t0 (.seqDma c x.org) (fieldOf 0 32 (x.w 4)) p (x.w 3) pa pb →
    ∃ t : State, exec (.dma c i) s0 = .next (t.ahead c i) ∧ Claim.moved s t (fieldOf 0 32 (x.w 4)) pa pb ∧
      Claim.launched s t x [] (dmaSig x) ∧ ∃ r, t.net.resps = s.net.resps ++ [r] ∧ r.rq = .seqDma c x.org ∧
        r.op = s.sq.nextLaunch ∧ r.write = true ∧ r.pc = x.pos

/-- TENSOR, TENSOR_DELIVERY, CALL_CORE, CORE_PROGRAM_START, DMA and LAUNCH_COMPLETE. -/
def Obligations.LaunchingRecordsReachTheirCores : Prop :=
  Claim.recordFetch ∧ Claim.tensor ∧ Claim.tensorDelivery ∧ Claim.callCore ∧ Claim.programStart ∧ Claim.dmaRecord ∧
    Claim.launchComplete

/-- SEM_SIGNAL, R102, and SEM_WAIT, R100, R101: a signal leaves and the record completes; a wait of an amount other than 0 sends
its message and the slot waits for the semaphore; an amount of 0 completes at once. -/
def Claim.semRecords : Prop :=
  ∀ (c i : Nat) (x : Iss) (s0 s : State),
    (Claim.record s0 s c i 0x04 x → ∃ t g, exec (.semSignal c i) s0 = .next (t.ahead c i) ∧ Claim.done s t x [] ∧ t.mem = s.mem ∧
      t.net = { s.net with signals := s.net.signals ++ [g] } ∧ g.sem = semName (x.w 2) ∧ g.amount = semAmount (x.w 2) ∧
      g.waybill = x.way ∧ g.unit = unitSeq c ∧ g.lodging = s.streamLodging x.id ∧ g.stream = x.id ∧ g.opc = 0x04) ∧
    (Claim.record s0 s c i 0x05 x → semAmount (x.w 2) ≠ 0 → ∃ t : State, exec (.semWait c i) s0 = .next (t.ahead c i) ∧
      Claim.waits s t x 1 (objName 0 (semName (x.w 2) / 256) (semName (x.w 2) % 256)) (semAmount (x.w 2)) true [] [] ∧
      t.mem = s.mem ∧ ∃ m, t.net = { s.net with waitMsgs := s.net.waitMsgs ++ [m] } ∧ m.sem = semName (x.w 2) ∧ m.seq = true ∧
        m.who = slotKey c i ∧ m.amount = semAmount (x.w 2)) ∧
    (Claim.record s0 s c i 0x05 x → semAmount (x.w 2) = 0 → ∃ t : State, exec (.semWait c i) s0 = .next (t.ahead c i) ∧
      Claim.done s t x [] ∧ t.mem = s.mem ∧ t.net = s.net)

/-- Table 6.6, OP of FLAG_SET: set, add saturating, maximum. -/
def Claim.flagTakes (op old v new : Nat) : Prop :=
  (op = 0 ∧ new = v) ∨ (op = 1 ∧ new = min (2 ^ 32 - 1) (old + v)) ∨ (op = 2 ∧ new = max old v)

/-- No slot's wait names a flag. -/
def Claim.unwatched (s : State) (c k : Nat) : Prop :=
  ∀ p w, p ∈ s.sq.waits → p.2 = some w → w.obj ≠ objName 1 c k

/-- FLAG_SET, R182, of a flag of the stream's lodging that no slot watches: the flag takes its value and the waybill, and the
record completes. -/
def Claim.flagSet : Prop :=
  ∀ (c i : Nat) (x : Iss) (s0 s : State), Claim.record s0 s c i 0x06 x → x.bits 0 0 2 ≠ 3 →
    s.owns (s.streamLodging x.id) x.flag.1 = true → Claim.unwatched s x.flag.1 x.flag.2 →
    ∃ t : State, exec (.flagSet c i) s0 = .next (t.ahead c i) ∧ Claim.done s t x [rkey rCL_FLAG x.flag.1 x.flag.2] ∧ t.mem = s.mem ∧
      Claim.flagTakes (x.bits 0 0 2) (s.fld fCL_FLAG_VALUE x.flag.1 x.flag.2) (x.bits 3 0 32)
        (t.fld fCL_FLAG_VALUE x.flag.1 x.flag.2) ∧
      t.fld fCL_FLAG_LAST_WAYBILL x.flag.1 x.flag.2 = x.way

/-- Table 6.1: a comparison of a flag holds. -/
def Claim.compares (cmp v x : Nat) : Prop := (cmp = 0 ∧ x ≤ v) ∨ (cmp = 1 ∧ v = x) ∨ (cmp = 2 ∧ v ≠ x)

/-- FLAG_WAIT, R182: a comparison that holds completes at once; one that does not makes the slot wait for the flag. -/
def Claim.flagWait : Prop :=
  ∀ (c i : Nat) (x : Iss) (s0 s : State), Claim.record s0 s c i 0x07 x → x.bits 0 0 2 ≠ 3 →
    s.owns (s.streamLodging x.id) x.flag.1 = true →
    (Claim.compares (x.bits 0 0 2) (s.fld fCL_FLAG_VALUE x.flag.1 x.flag.2) (x.bits 3 0 32) →
      ∃ t : State, exec (.flagWait c i) s0 = .next (t.ahead c i) ∧ Claim.done s t x [] ∧ t.mem = s.mem) ∧
    (¬ Claim.compares (x.bits 0 0 2) (s.fld fCL_FLAG_VALUE x.flag.1 x.flag.2) (x.bits 3 0 32) →
      ∃ t : State, exec (.flagWait c i) s0 = .next (t.ahead c i) ∧
        Claim.waits s t x 2 (objName 1 x.flag.1 x.flag.2) (x.bits 3 0 32) true [] [] ∧ t.mem = s.mem)

/-- BARRIER, R184, of n ≠ 0 on a barrier of the stream's lodging: an arrival that is not the last is counted and waits for its
generation; the last completes the generation, and COUNT is 0 again. n = 0 completes at once. -/
def Claim.barrier : Prop :=
  ∀ (c i : Nat) (x : Iss) (s0 s : State), Claim.record s0 s c i 0x08 x →
    (x.bits 2 32 16 = 0 → ∃ t : State, exec (.barrier c i) s0 = .next (t.ahead c i) ∧ Claim.done s t x [] ∧ t.mem = s.mem) ∧
    (s.ownsBarrier (s.streamLodging x.id) (x.bits 2 0 6) = true →
      (s.fld fGL_BARRIER_COUNT 0 (x.bits 2 0 6) = 0 ∨ s.fld fGL_BARRIER_EXPECTED 0 (x.bits 2 0 6) = x.bits 2 32 16) →
      (s.fld fGL_BARRIER_COUNT 0 (x.bits 2 0 6) + 1 < x.bits 2 32 16 → ∃ t : State, exec (.barrier c i) s0 = .next (t.ahead c i) ∧
        Claim.waits s t x 3 (objName 2 63 (x.bits 2 0 6)) (x.bits 2 32 16) true [] [rkey rGL_BARRIER 0 (x.bits 2 0 6)] ∧
        t.mem = s.mem ∧ t.fld fGL_BARRIER_COUNT 0 (x.bits 2 0 6) = s.fld fGL_BARRIER_COUNT 0 (x.bits 2 0 6) + 1 ∧
        t.fld fGL_BARRIER_EXPECTED 0 (x.bits 2 0 6) = x.bits 2 32 16 ∧
        t.fld fGL_BARRIER_GENERATION 0 (x.bits 2 0 6) = s.fld fGL_BARRIER_GENERATION 0 (x.bits 2 0 6) ∧
        t.sq.barrierWait = s.sq.barrierWait ++
          [(x.bits 2 0 6, slotKey c i, s.fld fGL_BARRIER_GENERATION 0 (x.bits 2 0 6))]) ∧
      (s.fld fGL_BARRIER_COUNT 0 (x.bits 2 0 6) + 1 = x.bits 2 32 16 → ∃ t : State, exec (.barrier c i) s0 = .next (t.ahead c i) ∧
        t.mem = s.mem ∧ t.fld fGL_BARRIER_COUNT 0 (x.bits 2 0 6) = 0 ∧
        t.fld fGL_BARRIER_GENERATION 0 (x.bits 2 0 6) = (s.fld fGL_BARRIER_GENERATION 0 (x.bits 2 0 6) + 1) % 2 ^ 16 ∧
        (x.bits 2 0 6, s.fld fGL_BARRIER_GENERATION 0 (x.bits 2 0 6), c) ∈ t.sq.waves.map (fun w => (w.1, w.2.1, w.2.2.1))))

/-- BARRIER_WAVE_RELEASE, R348: the next wave of a barrier that is due, with SHED_N high and its cluster not stopped for heat,
ends the waits of its cluster's slots and of no other. -/
def Claim.waveRelease : Prop :=
  ∀ (b g c at_ : Nat) (s : State), c < 48 → s.sq.waves.find? (fun w => w.1 == b) = some (b, g, c, at_) → at_ ≤ s.now →
    s.pins.shedN = true → nget s.pw.thermStop c = 0 → Claim.untraced s →
    ∃ t, exec (.barrierWaveRelease b) s = .next t ∧ t.mem = s.mem ∧
      (∀ k, (b, k, g) ∈ s.sq.barrierWait → k / 16 = c → t.waitOf k = none) ∧
      (∀ k, k / 16 ≠ c → t.waitOf k = s.waitOf k) ∧
      (∀ w, w ∈ t.sq.barrierWait ↔ w ∈ s.sq.barrierWait ∧ ¬ (w.1 = b ∧ w.2.2 = g ∧ w.2.1 / 16 = c))

/-- The wait of slot i of sequencer c ends met: the blocking command completes. -/
def Claim.met (s t : State) (c i : Nat) (w : SlotWait) : Prop :=
  t.waitOf (slotKey c i) = none ∧ t.fld fSQ_SLOT_WAIT c i = 0 ∧ t.mem = s.mem ∧
    t.fld fGL_STREAM5_COMPLETED 0 (s.fld fSQ_SLOT_STREAM c i) =
      (s.fld fGL_STREAM5_COMPLETED 0 (s.fld fSQ_SLOT_STREAM c i) + 1) % 2 ^ 32 ∧
    t.fld fGL_STREAM5_LAST_WAYBILL 0 (s.fld fSQ_SLOT_STREAM c i) = recWaybill w.record ∧
    s.regsKept t [rkey rSQ_SLOT c i, rkey rGL_STREAM5 0 (s.fld fSQ_SLOT_STREAM c i)]

/-- WAIT_TIME and WAIT_TIME_EXPIRY, R188: a count that site time has reached completes the record; one it has not makes the slot
wait, until it has. -/
def Claim.waitTime : Prop :=
  (∀ (c i at_ : Nat) (x : Iss) (s0 s : State), Claim.record s0 s c i 0x09 x →
    at_ = x.w 2 + (if (x.w 0).testBit 0 then nget s.sq.releaseAt x.id else 0) →
    (at_ ≤ s.regionNow c → ∃ t : State, exec (.waitTime c i) s0 = .next (t.ahead c i) ∧ Claim.done s t x [] ∧ t.mem = s.mem) ∧
    (s.regionNow c < at_ → ∃ t : State, exec (.waitTime c i) s0 = .next (t.ahead c i) ∧ Claim.waits s t x 4 (objName 5 c 0) at_ false [] [] ∧
      t.mem = s.mem)) ∧
  (∀ (c i : Nat) (w : SlotWait) (s : State), c < 48 → i < 16 → Claim.untraced s → s.waitOf (slotKey c i) = some w →
    s.fld fSQ_SLOT_WAIT c i = 4 → w.need ≤ s.regionNow c → s.actFirst 7 = true →
    ∃ t, exec (.waitTimeExpiry c i) s = .next t ∧ Claim.met s t c i w)

/-- The records that synchronise. -/
def Obligations.SynchronisingRecordsCompleteOrWait : Prop :=
  Claim.semRecords ∧ Claim.orderedWaits ∧ Claim.flagSet ∧ Claim.flagWait ∧ Claim.barrier ∧ Claim.waveRelease ∧ Claim.waitTime

/-- REDUCE_Q, R177, R186, on a number no other slot waits for: with every named core's slot empty the stream waits for the
contributions; with every one full the combined value is in the destination register, the slots are empty, and the record
completes. -/
def Claim.reduceQ : Prop :=
  ∀ (c i : Nat) (x : Iss) (ls : List Nat) (s0 s : State), Claim.record s0 s c i 0x0A x → x.bits 0 8 3 ≤ 4 →
    s.gangOf c (x.bits 2 0 24) ((x.w 0).testBit 24) = some ls → ls ≠ [] → s.sq.waits = [] →
    (∀ l, l ∈ ls → nget s.core.wait (28 * c + s.slotOf c l) ≠ 3) →
    ((∀ l, l ∈ ls → nget s.core.slotFull (redKey c l (x.bits 0 4 4)) = 0) → ∃ t : State, exec (.reduceQ c i) s0 = .next (t.ahead c i) ∧
      Claim.waits s t x 5 (objName 3 c (x.bits 0 4 4)) ls.length true ls [] ∧ t.mem = s.mem ∧ t.core = s.core) ∧
    ((∀ l, l ∈ ls → nget s.core.slotFull (redKey c l (x.bits 0 4 4)) = 1) → ∃ t : State, exec (.reduceQ c i) s0 = .next (t.ahead c i) ∧
      Claim.done s t x [rkey rSQ_Q c (x.bits 0 0 4)] ∧ t.mem = s.mem ∧
      t.reg rSQ_Q c (x.bits 0 0 4) = redCombine (x.bits 0 8 3)
        (ls.map (fun l => (l, mget zeroW s.core.slotVal (redKey c l (x.bits 0 4 4))))) ∧
      (∀ l, l ∈ ls → nget t.core.slotFull (redKey c l (x.bits 0 4 4)) = 0))

/-- BRANCH, R187: with DEC the counter register falls by 1; a condition that holds takes POSITION to the target, which translation
reaches; one that does not, to the next record. -/
def Claim.branch : Prop :=
  ∀ (c i : Nat) (x : Iss) (a b : Word) (s0 s : State), Claim.record s0 s c i 0x0B x → x.bits 0 8 4 < 12 →
    a = (if (x.w 0).testBit 13 then s.reg rSQ_Q c (x.bits 0 0 4) - 1#64 else s.reg rSQ_Q c (x.bits 0 0 4)) →
    b = (if (x.w 0).testBit 12 then BitVec.ofNat 64 (x.w 2)
      else if x.bits 0 4 4 = x.bits 0 0 4 then a else s.reg rSQ_Q c (x.bits 0 4 4)) →
    (condScalar (x.bits 0 8 4) a b = false → ∃ t : State, exec (.branch c i) s0 = .next (t.ahead c i) ∧
      Claim.done s t x [rkey rSQ_Q c (x.bits 0 0 4)] ∧ t.reg rSQ_Q c (x.bits 0 0 4) = a ∧ t.mem = s.mem) ∧
    (∀ (bs : List (BitVec 8)) (t1 : State), condScalar (x.bits 0 8 4) a b = true → 0 ≤ branchTarget x → branchTarget x < 2 ^ 40 →
      ((s.waitOver x).setReg rSQ_Q c (x.bits 0 0 4) a).readMem (.seqFetch c x.org) (branchTarget x).toNat 64 =
        (.ok bs, t1) →
      ∃ t : State, exec (.branch c i) s0 = .next (t.ahead c i) ∧ t.fld fGL_STREAM3_POSITION 0 x.id = (branchTarget x).toNat ∧
        t.fld fGL_STREAM5_COMPLETED 0 x.id = (s.fld fGL_STREAM5_COMPLETED 0 x.id + 1) % 2 ^ 32 ∧
        t.reg rSQ_Q c (x.bits 0 0 4) = a ∧ t.mem = s.mem ∧
        s.regsKept t (rkey rSQ_Q c (x.bits 0 0 4) :: Claim.recKeys x))

/-- RAMP_NOTICE, R189, R346, delivered in time with a slope and a rise, is held with its slope limited; RAMP_NOTICE_EXPIRY drops
those whose windows have ended. PW_STATUS counts the notices held. -/
def Claim.rampNotice : Prop :=
  (∀ (c i : Nat) (x : Iss) (s0 s : State), Claim.record s0 s c i 0x0C x → x.bits 3 0 16 ≠ 0 → x.bits 3 16 16 ≠ 0 →
    s.now + 50000 ≤ x.w 2 → x.w 2 ≤ s.now + 250000000 → 0 < x.bits 3 32 16 → s.pw.notices.length < 8 →
    ∃ t : State, exec (.rampNotice c i) s0 = .next (t.ahead c i) ∧ Claim.done s t x [rkey rPW_STATUS 0 0] ∧ t.mem = s.mem ∧
      t.pw.notices = s.pw.notices ++ [⟨x.w 2, x.w 2 + 250 * x.bits 3 32 16,
        min (x.bits 3 0 16) (max 1 (s.fld fPW_SLOPE_NOTICE_MAX)), x.bits 3 16 16, min 15 ((x.bits 3 16 16 + 199) / 200), none⟩] ∧
      t.fld fPW_STATUS_NOTICES = s.pw.notices.length + 1) ∧
  (∀ s : State, s.pw.notices.length ≤ 8 → ∃ t, exec .rampNoticeExpiry s = .next t ∧ t.mem = s.mem ∧
    (∀ n, n ∈ t.pw.notices ↔ n ∈ s.pw.notices ∧ s.now < n.stop) ∧ t.fld fPW_STATUS_NOTICES = t.pw.notices.length ∧
    (∀ n, n ∈ t.pw.notices → n.code ≤ t.pins.rampNotice) ∧ s.regsKept t [rkey rPW_STATUS 0 0])

/-- CHECKPOINT_MARK, R190, with no capture pending: MICROBATCH takes the number, and the place after the record is where a
checkpoint would resume the stream. With a capture pending the stream is held there. -/
def Claim.checkpointMark : Prop :=
  ∀ (c i : Nat) (x : Iss) (s0 s : State), Claim.record s0 s c i 0x0D x → ∃ t : State, exec (.checkpointMark c i) s0 = .next (t.ahead c i) ∧
    t.fld fGL_STREAM6_MICROBATCH 0 x.id = x.bits 2 0 32 ∧ nget t.sq.ckptPos x.id = x.pos + 64 ∧ t.mem = s.mem ∧
    t.fld fGL_STREAM3_POSITION 0 x.id = (x.pos + 64) % 2 ^ 40 ∧
    s.regsKept t (rkey rGL_STREAM6 0 x.id :: Claim.recKeys x) ∧
    (nget s.ck.phase (s.streamLodging x.id) ≠ 1 → t.sq.held = s.sq.held ∧ t.fld fSQ_SLOT_WAIT c i = 0) ∧
    (nget s.ck.phase (s.streamLodging x.id) = 1 → t.sq.held = s.sq.held ++ [x.id] ∧ t.fld fSQ_SLOT_WAIT c i = 7)

/-- END, R173, R193: the stream is DONE, its slot is free, and its notify flag is left alone where none is asked for. -/
def Claim.endRecord : Prop :=
  ∀ (c i : Nat) (x : Iss) (s0 s : State), Claim.record s0 s c i 0x0F x → s.slotIx x.id = some i →
    s.is fGL_STREAM4_NOTIFY_EN 0 x.id = false → ∃ t : State, exec (.endCmd c i) s0 = .next (t.ahead c i) ∧
      t.fld fGL_STREAM7_STATE 0 x.id = 4 ∧ t.reg rSQ_SLOT c i = 0#64 ∧ t.waitOf (slotKey c i) = none ∧ t.mem = s.mem ∧
      t.fld fGL_STREAM5_COMPLETED 0 x.id = (s.fld fGL_STREAM5_COMPLETED 0 x.id + 1) % 2 ^ 32 ∧
      t.fld fGL_STREAM5_LAST_WAYBILL 0 x.id = x.way ∧
      s.regsKept t [rkey rGL_STREAM5 0 x.id, rkey rGL_STREAM7 0 x.id, rkey rSQ_SLOT c i]

/-- A stream has entered FAULTED with an event, of outcome 4 (R193). -/
def Claim.streamFaulted (s t : State) (id event : Nat) : Prop :=
  t.fld fGL_STREAM7_STATE 0 id = 5 ∧ t.fld fGL_STREAM6_FAULT 0 id = event ∧
    Claim.logged s t event (unitSeq (s.fld fGL_STREAM7_HOME 0 id)) 4

/-- STREAM_WAIT_TIMEOUT, R191, R192: at a boundary of its region at or after its timeout a timed wait of a slot, or of a QPUT,
faults its stream with 0x4008. A record of a reserved kind, R172, faults it with 0x4001. -/
def Claim.streamFaults : Prop :=
  (∀ (k n id : Nat) (w : SlotWait) (s : State), k < 768 → s.regionBoundary (k / 16) 250 = true → s.waitOf k = some w →
    w.limit = some n → w.since + 250 * n ≤ s.regionNow (k / 16) → Claim.untraced s → s.fld fMG_LEDGER_STATUS_UNREAD = 0 →
    id = s.fld fSQ_SLOT_STREAM (k / 16) (k % 16) → s.fld fGL_STREAM7_STATE 0 id = 3 → s.slotIx id = some (k % 16) →
    s.fld fGL_STREAM7_HOME 0 id = k / 16 → s.outstanding id = 0 → s.is fGL_STREAM4_NOTIFY_EN 0 id = false →
    ∃ t, exec (.streamWaitTimeout false k) s = .next t ∧ Claim.streamFaulted s t id 0x4008 ∧ t.waitOf k = none) ∧
  (∀ (u id : Nat) (s : State), s.regionBoundary (u / 28) 250 = true → nget s.core.wait u = 3 → nget s.core.stream u = id →
    id < 65536 → nget s.core.waitSince u + 250 * nget s.core.waitLimit u ≤ s.regionNow (u / 28) → Claim.untraced s →
    s.fld fMG_LEDGER_STATUS_UNREAD = 0 → s.fld fGL_STREAM7_STATE 0 id = 3 → s.outstanding id ≠ 0 →
    ∃ t, exec (.streamWaitTimeout true u) s = .next t ∧ Claim.streamFaulted s t id 0x4008 ∧ (id, 5) ∈ t.sq.ending) ∧
  (∀ (c i id : Nat) (ws : List Word) (s0 s : State), c < 48 → i < 16 → s0.canIssue c i = true → s0.ms.upsets = [] →
    Claim.untraced s → id = s0.fld fSQ_SLOT_STREAM c i →
    s0.fetchRec c i (s0.fld fGL_STREAM3_POSITION 0 id) = (.ok ws, s) →
    recOpc ws ∉ [0x01, 0x02, 0x03, 0x04, 0x05, 0x06, 0x07, 0x08, 0x09, 0x0A, 0x0B, 0x0C, 0x0D, 0x0F] →
    s.fld fMG_LEDGER_STATUS_UNREAD = 0 →
    ∃ t : State, exec (.reservedCommandKind c i) s0 = .next (t.ahead c i) ∧ Claim.streamFaulted s t id 0x4001)

/-- FLAG_WRITE_SET, FLAG_WRITE_ADD and FLAG_WRITE_MAX, R183: a host's or a core's write of CL_FLAG_WRITE that is let through, of a
flag that no slot watches. -/
def Claim.flagWrites : Prop :=
  ∀ (rq : Rq) (c k v op : Nat) (i : Instr) (s : State), c < 48 → k < 4096 → v < 2 ^ 32 →
    s.csRefusal rq (clAddr c 0x1808) true = none → Claim.unwatched s c k →
    ((i = .flagWriteSet rq c k v ∧ op = 0) ∨ (i = .flagWriteAdd rq c k v ∧ op = 1) ∨ (i = .flagWriteMax rq c k v ∧ op = 2)) →
    ∃ t, exec i s = .next t ∧ Claim.flagTakes op (s.fld fCL_FLAG_VALUE c k) v (t.fld fCL_FLAG_VALUE c k) ∧
      t.fld fCL_FLAG_LAST_WAYBILL c k = 0 ∧ s.regsKept t [rkey rCL_FLAG c k] ∧
      t = { s with regs := t.regs, sq := { s.sq with examine := t.sq.examine } }

/-- The other records and what ends a stream. -/
def Obligations.OtherRecordsAndStreamEnds : Prop :=
  Claim.reduceQ ∧ Claim.branch ∧ Claim.rampNotice ∧ Claim.checkpointMark ∧ Claim.endRecord ∧ Claim.streamFaults ∧
    Claim.flagWrites

/-! ### The router unit (chapter 7) and the on-die network (chapter 8) -/

/-- ROUTE_SUBMIT, R203: a submission to a router that is not fenced, with fewer than 4 jobs, joins its queue. -/
def Claim.routeSubmit : Prop :=
  ∀ (rq : Rq) (c desc : Nat) (s : State), c < 48 → desc < 2 ^ 48 → s.csRefusal rq (clAddr c 0x3000) true = none →
    s.is fCL_ROUTE_STATUS_FENCED c = false → s.fld fCL_ROUTE_STATUS_QUEUED c < 4 →
    ∃ t, exec (.routeSubmit rq c desc) s = .next t ∧ t = { s with regs := t.regs, rt := { s.rt with
        queue := s.rt.queue ++ [(c, desc)] } } ∧
      t.fld fCL_ROUTE_STATUS_QUEUED c = s.fld fCL_ROUTE_STATUS_QUEUED c + 1 ∧ s.regsKept t [rkey rCL_ROUTE_STATUS c 0]

/-- ROUTING_JOB_START, R196, R199, R203, R204: an idle router takes the next job of its queue; with a descriptor that keeps Table
7.1 and its passes performed, the job runs with the header and the pairs its passes came to; a first mismatch is recorded with
outcome 2, and the job is to be carried out again. t0 is the state that reading the descriptor leaves, u that of the passes. -/
def Claim.routingJobStart : Prop :=
  ∀ (c desc : Nat) (bad : Option Nat) (bs hdr : List (BitVec 8)) (pairs : Nat) (t0 u s : State), c < 48 →
    s.rt.queue.find? (fun q => q.1 == c) = some (c, desc) → s.is fCL_ROUTE_STATUS_BUSY c = false → s.routerRuns c = true →
    desc % 64 = 0 → (s.takeJob c desc).readMem (.router c) desc 64 = (.ok bs, t0) → (⟨wordsOf 8 bs⟩ : Desc).ok = true →
    u.rt = (s.takeJob c desc).rt → u.regs = (s.takeJob c desc).regs →
    (t0.routePasses c ⟨wordsOf 8 bs⟩ bad = (.ok (some (hdr, pairs)), u) →
      ∃ t, exec (.routingJobStart c bad) s = .next t ∧ t.mem = u.mem ∧ t.rt.queue = s.rt.queue.erase (c, desc) ∧
        t.rt.jobs = s.rt.jobs.filter (fun x => x.c != c) ++ [⟨c, desc, wordsOf 8 bs, 0, hdr, pairs, false⟩] ∧
        t.is fCL_ROUTE_STATUS_BUSY c = true ∧ s.regsKept t [rkey rCL_ROUTE_STATUS c 0]) ∧
    (t0.routePasses c ⟨wordsOf 8 bs⟩ bad = (.ok none, u) → u.fld fMG_LEDGER_STATUS_UNREAD = 0 →
      ∃ t, exec (.routingJobStart c bad) s = .next t ∧ t.is fCL_ROUTE_STATUS_CMP_FAIL c = true ∧
        t.is fCL_ROUTE_STATUS_BUSY c = true ∧ Claim.logged u t 0x1007 (unitRouterUnit c) 2 ∧
        ⟨c, desc, wordsOf 8 bs, 1, [], 0, true⟩ ∈ t.rt.jobs)

/-- R197: the experts a token selects are k at most, each once, each of a score that is a number above minus infinity. -/
def Claim.routeSelects : Prop :=
  ∀ (k : Nat) (scores : List Val), (selectExperts k scores).length ≤ k ∧ (selectExperts k scores).Nodup ∧
    (∀ e, e ∈ selectExperts k scores → ∃ v, scores[e]? = some v ∧ v ≠ .nan ∧ v ≠ .inf true) ∧
    ((selectExperts k scores).length < k → ∀ e v, scores[e]? = some v → v ≠ .nan → v ≠ .inf true →
      e ∈ selectExperts k scores)

/-- ROUTING_JOB_END, R199, R202, R204, R215: a job whose header is written, STATUS last, is DONE, counted and signalled; one that is
carried out again and has a second mismatch is FAILED, and its router is fenced, with event 0x1007 of outcome 3. u is the state
that the job's accesses leave, v that of the write of its STATUS. -/
def Claim.routingJobEnd : Prop :=
  ∀ (c : Nat) (bad : Option Nat) (j : RouteJob) (u v s : State), c < 48 → s.rt.jobs.find? (fun x => x.c == c) = some j →
    s.routerRuns c = true →
    (j.redo = false → j.pairs < 2 ^ 17 → u.still = { s.still with mem := u.mem } →
      State.routeWrites c ⟨j.words⟩ s [((⟨j.words⟩ : Desc).list + 4, j.header), ((⟨j.words⟩ : Desc).list, leBytes 4 1)] =
        (.ok (), u) →
      ∃ t, exec (.routingJobEnd c bad) s = .next t ∧ t.mem = u.mem ∧ (∀ x, x ∈ t.rt.jobs ↔ x ∈ s.rt.jobs ∧ x.c ≠ c) ∧
        t.is fCL_ROUTE_STATUS_BUSY c = false ∧
        t.fld fCL_ROUTE_STATUS_QUEUED c = s.fld fCL_ROUTE_STATUS_QUEUED c - 1 ∧
        t.fld fCL_ROUTE_STATUS_COMPLETED c = (s.fld fCL_ROUTE_STATUS_COMPLETED c + 1) % 2 ^ 16 ∧
        t.fld fCL_ROUTE_LAST_WAYBILL c = (⟨j.words⟩ : Desc).way ∧ t.fld fCL_ROUTE_LAST_RESULT c = 1 ∧
        t.fld fCL_ROUTE_LAST_PAIRS c = j.pairs ∧ ((⟨j.words⟩ : Desc).sig = none → t.net = u.net) ∧
        (∀ g, (⟨j.words⟩ : Desc).sig = some g → ∃ m, t.net = { u.net with signals := u.net.signals ++ [m] } ∧ m.sem = g.1 ∧
          m.amount = g.2 ∧ m.waybill = (⟨j.words⟩ : Desc).way ∧ m.unit = unitRouterUnit c)) ∧
    (∀ w, j.redo = true → j.mism ≠ 0 → s.routePasses c ⟨j.words⟩ bad = (.ok none, u) → u.fld fMG_LEDGER_STATUS_UNREAD = 0 →
      w = (u.stick fCL_ROUTE_STATUS_CMP_FAIL c).routeEvent c 0x1007 3 (⟨j.words⟩ : Desc).way (⟨j.words⟩ : Desc).list →
      w.writeAll (.router c (⟨j.words⟩ : Desc).org) (⟨j.words⟩ : Desc).list (leBytes 4 2) = (.ok (), v) →
      v.still = { w.still with mem := v.mem } → ∃ t, exec (.routingJobEnd c bad) s = .next t ∧
        t.is fCL_ROUTE_STATUS_FENCED c = true ∧ t.is fCL_ROUTE_STATUS_CMP_FAIL c = true ∧
        t.fld fCL_ROUTE_LAST_RESULT c = 2 ∧ Claim.logged u t 0x1007 (unitRouterUnit c) 3)

/-- The router unit's rows. -/
def Obligations.RoutingJobsAreQueuedRunAndEnded : Prop :=
  Claim.routeSubmit ∧ Claim.routingJobStart ∧ Claim.routeSelects ∧ Claim.routingJobEnd

/-- LINK_CRC_RETRY, R230: a failed flit is counted and, the first of its link in its 1 ms, recorded as 0x3001; without a charged
group nothing else of the link changes before the fourth failure of that flit, which makes it retrain. A group that reaches the
threshold takes the spare. -/
def Claim.linkCrcRetry : Prop :=
  ∀ (i flit : Nat) (again : Bool) (s : State), i < 140 → flit < 2 ^ 20 → s.inService i = true →
    s.fld fGL_TOPOLOGY_STATE 0 i ≠ 4 → s.fld fMG_LEDGER_STATUS_UNREAD = 0 →
    nget s.net.summed (256 * 0x3001 + i) ≠ s.now / 250000 + 1 →
    (∃ t, exec (.linkCrcRetry i flit [] again) s = .next t ∧
      t.fld fGL_TOPOLOGY_RETRIES 0 i = min (2 ^ 16 - 1) (s.fld fGL_TOPOLOGY_RETRIES 0 i + 1) ∧
      Claim.logged s t 0x3001 (s.unitLink i) 1 ∧ t.fld fGL_TOPOLOGY_LANES_NOW 0 i = s.fld fGL_TOPOLOGY_LANES_NOW 0 i ∧
      ((again = false ∨ nget s.net.flitFails (2 ^ 20 * i + flit) < 3) →
        t.fld fGL_TOPOLOGY_STATE 0 i = s.fld fGL_TOPOLOGY_STATE 0 i ∧
        nget t.net.flitFails (2 ^ 20 * i + flit) = if again then nget s.net.flitFails (2 ^ 20 * i + flit) + 1 else 1) ∧
      (again = true → 3 ≤ nget s.net.flitFails (2 ^ 20 * i + flit) →
        t.fld fGL_TOPOLOGY_STATE 0 i = 4 ∧ nget t.net.flitFails (2 ^ 20 * i + flit) = 0)) ∧
    (∀ g, g < 64 → s.laneGroup i g = true → 64 * i + g ∉ s.net.retired → s.net.charges = [] →
      s.fld fNW_LINK_THRESH_CHARGES ≤ 1 → s.is fGL_TOPOLOGY_SPARE_USED 0 i = false →
      ∃ t, exec (.linkCrcRetry i flit [g] again) s = .next t ∧
        t.is fGL_TOPOLOGY_SPARE_USED 0 i = true ∧ t.fld fGL_TOPOLOGY_STATE 0 i = 4 ∧ 64 * i + g ∈ t.net.retired ∧
        t.fld fGL_TOPOLOGY_LANES_NOW 0 i = s.fld fGL_TOPOLOGY_LANES_NOW 0 i ∧ t.is fNW_STATUS_LANE_SPARED = true)

/-- A link has been removed: its state, its record, and what waits for it waits for the next switch (R229, R231, R232). -/
def Claim.linkRemoved (s t : State) (i : Nat) : Prop :=
  t.fld fGL_TOPOLOGY_STATE 0 i = 3 ∧ t.net.cut = s.net.cut ++ [i] ∧ t.is fNW_STATUS_LINK_REMOVED = true ∧
    Claim.logged s t 0x3004 (s.unitLink i) 3

/-- A link has begun to retrain, and nothing else has changed. -/
def Claim.linkRetrains (s t : State) (i : Nat) : Prop :=
  t = { s with regs := t.regs } ∧ t.fld fGL_TOPOLOGY_STATE 0 i = 4 ∧ s.regsKept t [rkey rGL_TOPOLOGY 0 i]

/-- LINK_IDLE_TIMEOUT, LINK_RETRAIN, LINK_REMOVE and LINK_RETRAIN_DONE, R232: an idle or commanded link retrains; a training that
succeeds brings it up again, narrowed if it lacks lanes, with event 0x3005; the third failure in a row removes it. -/
def Claim.linkTraining : Prop :=
  ∀ (rq : Rq) (i : Nat) (s : State), i < 140 → s.inService i = true → s.fld fMG_LEDGER_STATUS_UNREAD = 0 →
    (∃ t, exec (.linkIdleTimeout i) s = .next t ∧ Claim.linkRetrains s t i) ∧
    (s.csRefusal rq (nwAddr 0x218) true = none → (∃ t, exec (.linkRetrain rq i) s = .next t ∧ Claim.linkRetrains s t i) ∧
      ∃ t, exec (.linkRemove rq i) s = .next t ∧ Claim.linkRemoved s t i) ∧
    (s.fld fGL_TOPOLOGY_STATE 0 i = 4 →
      (∃ t, exec (.linkRetrainDone i true) s = .next t ∧ nget t.net.trainFails i = 0 ∧
        Claim.logged s t 0x3005 (s.unitLink i) 1 ∧ t.fld fGL_TOPOLOGY_STATE 0 i =
          if s.fld fGL_TOPOLOGY_LANES_NOW 0 i < s.fld fGL_TOPOLOGY_LANES_FULL 0 i then 2 else 1) ∧
      (nget s.net.trainFails i < 2 → ∃ t, exec (.linkRetrainDone i false) s = .next t ∧ t.regs = s.regs ∧
        nget t.net.trainFails i = nget s.net.trainFails i + 1) ∧
      (2 ≤ nget s.net.trainFails i → ∃ t, exec (.linkRetrainDone i false) s = .next t ∧ Claim.linkRemoved s t i))

/-- ROUTER_HEARTBEAT_CHECK, R233: a router that answers has missed none; a first miss fences nothing; a second in a row fences the
router. ROUTER_STORAGE_ERROR, R230, R233: corrected and counted, or the router is fenced. -/
def Claim.routerFailures : Prop :=
  (∀ (silent : List Nat) (s : State), s.atBoundary 250000 = true → s.mg.ctrl = 0 →
    (∀ r, r < 48 → s.fld fNW_ROUTER_STATUS_STATE 0 r = 0 ∧ s.fld fNW_ROUTER_STATUS_MISSED_BEATS 0 r = 0) →
    ∃ t, exec (.routerHeartbeatCheck silent) s = .next t ∧ t = { s with regs := t.regs } ∧
      ∀ r, r < 48 → t.fld fNW_ROUTER_STATUS_STATE 0 r = 0 ∧
        t.fld fNW_ROUTER_STATUS_MISSED_BEATS 0 r = if silent.contains r then 1 else 0) ∧
  (∀ (r : Nat) (s : State), s.atBoundary 250000 = true → s.mg.ctrl = 0 → r < 48 →
    s.resetHolds r = false → s.fld fNW_ROUTER_STATUS_STATE 0 r = 0 → s.fld fNW_ROUTER_STATUS_MISSED_BEATS 0 r = 1 →
    ∃ t, exec (.routerHeartbeatCheck [r]) s = .next t ∧ t.fld fNW_ROUTER_STATUS_STATE 0 r = 3 ∧
      t.clusterFenced r = true) ∧
  (∀ (r : Nat) (s : State), r < 48 → s.fld fMG_LEDGER_STATUS_UNREAD = 0 →
    (nget s.net.summed (256 * 0x3006 + r) ≠ s.now / 250000 + 1 →
      ∃ t, exec (.routerStorageError r true) s = .next t ∧ Claim.logged s t 0x3006 (unitRouter r 0) 1 ∧
      t.fld fNW_ROUTER_STATUS_ECC_CORRECTED 0 r = min (2 ^ 16 - 1) (s.fld fNW_ROUTER_STATUS_ECC_CORRECTED 0 r + 1) ∧
      t.fld fNW_ROUTER_STATUS_STATE 0 r = s.fld fNW_ROUTER_STATUS_STATE 0 r) ∧
    (s.fld fNW_ROUTER_STATUS_STATE 0 r ≠ 3 → s.resetHolds r = false → ∃ t, exec (.routerStorageError r false) s = .next t ∧
      t.fld fNW_ROUTER_STATUS_STATE 0 r = 3 ∧ t.clusterFenced r = true ∧ Claim.logged s t 0x3007 (unitRouter r 0) 3))

/-- Links and routers. -/
def Obligations.LinksAndRoutersFailAsLaidDown : Prop :=
  Claim.linkCrcRetry ∧ Claim.linkTraining ∧ Claim.routerFailures

/-- TOPO_SWITCH_ARM and TOPO_SWITCH, R228, R229, R234: a switch is armed for its count, or, where that has passed, for the next
1 µs boundary with SWITCH_LATE; at its count the other bank is active, the generation is one more, no link is waited for, and an
armed sweep takes the count of the switch. -/
def Claim.topoSwitch : Prop :=
  (∀ (rq : Rq) (s : State), s.csRefusal rq (nwAddr 0x210) true = none → s.is fNW_TOPO_CTRL_PENDING = false →
    ∃ t, exec (.topoSwitchArm rq) s = .next t ∧ t.is fNW_TOPO_CTRL_PENDING = true ∧
      t.fld fNW_TOPO_CTRL_ACTIVE_BANK = s.fld fNW_TOPO_CTRL_ACTIVE_BANK ∧
      (s.now ≤ s.fld fNW_TOPO_SWITCH_COUNT → t.net.switchAt = some (s.fld fNW_TOPO_SWITCH_COUNT) ∧
        s.regsKept t [rkey rNW_TOPO_CTRL 0 0]) ∧
      (s.fld fNW_TOPO_SWITCH_COUNT < s.now → t.is fNW_STATUS_SWITCH_LATE = true ∧
        ∃ n, t.net.switchAt = some n ∧ n % 250 = 0 ∧ s.now < n ∧ n ≤ s.now + 250)) ∧
  (∀ (n : Nat) (s : State), s.net.switchAt = some n → n ≤ s.now → s.actFirst 2 = true → s.fld fMG_LEDGER_STATUS_UNREAD = 0 →
    ∃ t, exec .topoSwitch s = .next t ∧
      t.fld fNW_TOPO_CTRL_ACTIVE_BANK = 1 - s.fld fNW_TOPO_CTRL_ACTIVE_BANK ∧ t.is fNW_TOPO_CTRL_PENDING = false ∧
      t.fld fNW_TOPO_CTRL_GEN = (s.fld fNW_TOPO_CTRL_GEN + 1) % 2 ^ 32 ∧ t.net.switchAt = none ∧ t.net.cut = [] ∧
      Claim.logged s t 0x300B unitHub 0 ∧ t.net.sweepArmed = [] ∧
      t.net.sweeps = s.net.sweeps ++ s.net.sweepArmed.map (fun r => ⟨n, r⟩))

/-- SWEEP_START and SWEEP_EXPIRY, R234: a sweep waits for the next switch; 100 µs after it the outstanding requests of hosts issued
before it, reads among them, have drawn error responses and are over, and no other request is. -/
def Claim.sweep : Prop :=
  (∀ (rq : Rq) (r : Nat) (s : State), s.csRefusal rq (nwAddr 0x230) true = none → r < 64 →
    exec (.sweepStart rq r) s = .next { s with net := { s.net with sweepArmed := s.net.sweepArmed ++ [r] } }) ∧
  (∀ (w : Sweep) (reads : List (Rq × Nat × Nat)) (s : State),
    s.net.sweeps.find? (fun w => decide (w.start + 25000 ≤ s.now)) = some w → s.net.flits = [] → s.net.reds = [] →
    (s.net.resps.map Resp.id).Nodup → (∀ x, x ∈ s.net.resps → x.issued < w.start → ∃ l p, x.rq = .host l p) →
    (∀ x, x ∈ reads → ∃ l p, x.1 = .host l p) →
    ∃ t, exec (.sweepExpiry reads) s = .next t ∧ t.net.sweeps = s.net.sweeps.erase w ∧
      (∀ x, x ∈ t.net.resps ↔ x ∈ s.net.resps ∧ w.start ≤ x.issued) ∧
      (∀ x, x ∈ s.net.resps → x.issued < w.start → (⟨.errorResponse, x.rq.unit, 0x3008, []⟩ : Out) ∈ t.out) ∧
      (∀ x, x ∈ reads → (⟨.errorResponse, x.1.unit, 0x3008, [x.2.2]⟩ : Out) ∈ t.out))

/-- ROUTER_DRAIN_END, R235: with no flit left the draining routers of the field are off; one that is not draining stays. -/
def Claim.drainEnd : Prop :=
  ∀ (field : Nat) (d : Nat × Nat) (s : State), field < 6 → s.net.draining.find? (fun d => d.1 == field) = some d →
    s.fieldBusy field = false →
    ∃ t, exec (.routerDrainEnd field false) s = .next t ∧ t.net.draining = s.net.draining.erase d ∧
      t.net.sweeps = s.net.sweeps ∧
      ∀ r, r < 48 → t.fld fNW_ROUTER_STATUS_STATE 0 r =
        if r ∈ fieldRouters field ∧ s.fld fNW_ROUTER_STATUS_STATE 0 r = 1 then 2 else s.fld fNW_ROUTER_STATUS_STATE 0 r

/-- OSTLER_HOLD_WATCHDOG, R242: a grant held for WATCHDOG cycles is released, with event 0x300A of outcome 4; of a transmitter, the
frame ends bad and its requester draws an error response. CREDIT_WATCHDOG, R243: the link of an output that has granted nothing for
WATCHDOG cycles for want of credit retrains, with event 0x300C, and is removed when the stall outlives three retrainings. -/
def Claim.watchdogs : Prop :=
  (∀ (kind unit index : Nat) (h : Holding) (s : State), s.fld fMG_LEDGER_STATUS_UNREAD = 0 → kind = 2 ∨ kind = 4 →
    s.heldTooLong kind unit index = some h →
    ∃ t, exec (.ostlerHoldWatchdog kind unit index) s = .next t ∧ t.is fNW_STATUS_HOLD_FIRED = true ∧
      Claim.logged s t 0x300A (ostlerUnit kind unit index) 4 ∧
      (t.ostler (ostlerAt kind unit index)).holds = (s.ostler (ostlerAt kind unit index)).holds.erase h ∧
      (kind = 4 → (⟨.packet, index, 0x300A, []⟩ : Out) ∈ t.out ∧ (⟨.errorResponse, h.rq.unit, 0x300A, []⟩ : Out) ∈ t.out)) ∧
  (∀ (r port i other : Nat) (s : State), r < 48 → linkAt r port = some (i, other) → s.inService i = true →
    s.fld fGL_TOPOLOGY_STATE 0 i ≠ 4 → s.starved r port = true →
    s.watchdog 0 ≤ 6 * (s.now - (s.ostler (ostlerAt 0 r port)).grantAt) → s.fld fMG_LEDGER_STATUS_UNREAD = 0 →
    ∃ t, exec (.creditWatchdog r port) s = .next t ∧ Claim.logged s t 0x300C (unitRouter r port) 1 ∧
      t.is fNW_STATUS_CREDIT_STALL = true ∧
      ((s.ostler (ostlerAt 0 r port)).stalls < 3 → t.fld fGL_TOPOLOGY_STATE 0 i = 4 ∧
        (t.ostler (ostlerAt 0 r port)).stalls = (s.ostler (ostlerAt 0 r port)).stalls + 1) ∧
      (3 ≤ (s.ostler (ostlerAt 0 r port)).stalls → t.fld fGL_TOPOLOGY_STATE 0 i = 3))

/-- Switches, sweeps and watchdogs. -/
def Obligations.NetworkSwitchesSweepsAndWatches : Prop :=
  Claim.topoSwitch ∧ Claim.sweep ∧ Claim.drainEnd ∧ Claim.watchdogs

/-- Flit n is a flit that has not left yet, whose data need not be read again, and whose destination router r, where it stands, can
reach. -/
def Claim.flitAt (s : State) (r n : Nat) (f : RedFlit) : Prop :=
  s.net.flits[n]? = some f ∧ f.entry = none ∧ f.reread = false ∧ f.pos = none ∧ s.flitFrom f = r ∧ s.reach r (flitTo f) [] ≠ 1

/-- REDUCE_ADD_MERGE, R247, R248: a flit that may merge and finds no entry for its destination is held in a new one; one that finds
an entry that has merged fewer than 8 is added to it lane by lane; one that may not merge is performed at its destination, where
each of 16 lanes of memory becomes the binary32 sum, and no other byte changes. One that no output on its way grants stays. -/
def Claim.reduceMerge : Prop :=
  (∀ (r n : Nat) (f : RedFlit) (m : List RedEntry) (s : State), r < 48 → Claim.flitAt s r n f →
    m = s.net.reds.filter (fun e => e.router == r && !e.lost) →
    (f.merge = true → s.fld fNW_REDUCE_CFG_HOLD ≠ 0 → m.length < 64 →
      m.find? (fun e => !e.sent && e.addr == f.addr && e.lodging == f.lodging && decide (e.merges < 8)) = none →
      ∃ t, exec (.reduceAddMerge r n false) s = .next t ∧ t.net.flits = s.net.flits.eraseIdx n ∧ t.mem = s.mem ∧
        t.regs = s.regs ∧ t.net.reds = s.net.reds ++
          [⟨s.net.nextRed, r, f.addr, f.lodging, f.lanes, 0, [f], s.now, false, 0, false⟩]) ∧
    (∀ e, f.merge = true → (s.net.reds.map RedEntry.id).Nodup →
      m.find? (fun e => !e.sent && e.addr == f.addr && e.lodging == f.lodging && decide (e.merges < 8)) = some e →
      ∃ t, exec (.reduceAddMerge r n false) s = .next t ∧ t.net.flits = s.net.flits.eraseIdx n ∧ t.mem = s.mem ∧
        ({ e with lanes := addLanes e.lanes f.lanes, merges := e.merges + 1, parts := e.parts ++ [f] } : RedEntry) ∈
          t.net.reds ∧ t.net.reds.length = s.net.reds.length ∧
        t.fld fNW_ROUTER_STATUS_MERGES 0 r = (s.fld fNW_ROUTER_STATUS_MERGES 0 r + 1) % 2 ^ 16) ∧
    (∀ pa, f.merge = false → r = flitTo f → f.addr % 64 = 0 → f.lanes.length = 16 → s.traffic = [] →
      s.request f.rq f.addr 64 true false false = (.ok pa, s) →
      s.request f.rq f.addr 64 false true false = (.ok pa, s) →
      ∃ t, exec (.reduceAddMerge r n false) s = .next t ∧ t.net.flits = s.net.flits.eraseIdx n ∧
        (∀ k, k < 16 → leNat (t.physRead (pa + 4 * k) 4) =
          (fadd (BitVec.ofNat 32 (leNat (s.physRead (pa + 4 * k) 4))) (f.lanes.getD k 0#32)).1.toNat) ∧
        s.bytesKept t (inSpan pa 64))) ∧
  (∀ (r n : Nat) (f : RedFlit) (p : Pos) (m : Msg) (s : State), s.net.flits[n]? = some f → f.pos = some p → p.hops ≠ [] →
    s.flitNext f = r → (State.oneHop 4 n 64 s).2.msgAt 4 n = some m → (State.oneHop 4 n 64 s).2.cutOff m = false →
    (State.oneHop 4 n 64 s).1 = false →
    ∃ t, exec (.reduceAddMerge r n false) s = .next t ∧ t.still = s.still)

/-- REDUCE_ENTRY_FORWARD, R248, and REDUCE_ACK, R249: an entry that has merged 8 flits, or has waited HOLD, sends one flit on; the
reply to it acknowledges the flit of the core that went into it. -/
def Claim.reduceForward : Prop :=
  (∀ (id : Nat) (e : RedEntry) (s : State), s.net.reds.find? (fun x => x.id == id && !x.sent && !x.lost) = some e →
    (8 ≤ e.merges ∨ s.fld fNW_REDUCE_CFG_HOLD ≤ 6 * (s.now - e.since)) →
    ∃ t f, exec (.reduceEntryForward id) s = .next t ∧ t.net.flits = s.net.flits ++ [f] ∧ f.addr = e.addr ∧
      f.lanes = e.lanes ∧ f.lodging = e.lodging ∧ f.entry = some id ∧ f.issued = s.now ∧
      { e with sent := true } ∈ t.net.reds ∧ t.mem = s.mem ∧ t.regs = s.regs) ∧
  (∀ (id : Nat) (e : RedEntry) (f : RedFlit) (o : LongOp) (s : State),
    s.net.reds.find? (fun x => x.id == id && x.reply != 0 && !x.lost) = some e → e.reply = 1 → e.parts = [f] → f.entry = none →
    s.opAt f.op = some o →
    ∃ t, exec (.reduceAck id) s = .next t ∧ (∀ x, x ∈ t.net.reds ↔ x ∈ s.net.reds ∧ x.id ≠ id) ∧
      t.opAt f.op = some { o with writes := o.writes - 1 } ∧ t.mem = s.mem ∧ t.regs = s.regs)

/-- The rows of in-network reduction. -/
def Obligations.InNetworkReductionAddsAndAcknowledges : Prop := Claim.reduceMerge ∧ Claim.reduceForward

/-! ### HBM and translation (chapter 9) -/

/-- HBM_ACCESS, R253, R259: a clean read that a front end grants answers with the 64 bytes and changes nothing else; a write stores
the bytes not masked off, and no other byte. R270: a lodging's request that names a physical address, or reaches the reserved
area, is refused with 0x2102. -/
def Claim.hbmAccess : Prop :=
  ∀ (rq : Rq) (op pa : Nat) (raw : Bool) (s : State), pa < hbmSize → pa % 64 = 0 →
    ((rq.platform = true ∨ raw = false ∧ pa / 65536 < 12566528) → s.stackHeld rq pa = false →
      (∃ t, exec (.hbmAccess rq op pa raw none 0 0) s = .next t ∧
        t.still = (s.emit .response rq.unit pa ((s.physRead pa 64).map BitVec.toNat)).still) ∧
      (∀ bs : List (Option (BitVec 8)), bs.length = 64 → ∃ t, exec (.hbmAccess rq op pa raw (some bs) 0 0) s = .next t ∧
        t.still = { s.still with mem := t.mem, out := s.out ++ [⟨.response, rq.unit, pa, []⟩] } ∧
        s.bytesKept t (inSpan pa 64) ∧
        ∀ i, i < 64 → t.rd (pa + i) = match bs[i]? with
          | some (some b) => b
          | _ => s.rd (pa + i))) ∧
    (rq.platform = false → raw = true ∨ 12566528 ≤ pa / 65536 → s.fld fMG_LEDGER_STATUS_UNREAD = 0 →
      ∀ write parity ecc, ∃ t, exec (.hbmAccess rq op pa raw write parity ecc) s = .next t ∧
        Claim.logged s t 0x2102 (unitStack (s.stackOf pa)) 4 ∧ (⟨.errorResponse, (s.opRq rq op).unit, 0x2102, [pa]⟩ : Out) ∈ t.out)

/-- HBM_ACCESS, R261-R263: parity retries are counted and recorded as 0x2104; a corrected read is counted and recorded as 0x2101,
the read that a narrow write begins with too; one that fails once is counted, and recorded as 0x2103 with outcome 2; one that fails
twice draws an error response and is recorded with outcome 5, and its frame is listed. -/
def Claim.hbmErrors : Prop :=
  ∀ (rq : Rq) (op pa n : Nat) (s : State), pa < hbmSize → pa % 64 = 0 → s.stackHeld rq pa = false →
    (rq.platform = true ∨ pa / 65536 < 12566528) → s.fld fMG_LEDGER_STATUS_UNREAD = 0 → (n = 1 ∨ n = 2) →
    (nget s.net.summed (256 * 0x2104 + s.stackOf pa) ≠ s.now / 250000 + 1 →
      ∃ t, exec (.hbmAccess rq op pa false none n 0) s = .next t ∧ (s.fld fMG_LEDGER_MIRROR_BASE = 0 → t.mem = s.mem) ∧
      t.fld fHB_ECC_PARITY_RETRIES (s.stackOf pa) = min (2 ^ 16 - 1) (s.fld fHB_ECC_PARITY_RETRIES (s.stackOf pa) + n) ∧
      t.is fHB_STATUS_PARITY (s.stackOf pa) = true ∧ Claim.logged s t 0x2104 (unitStack (s.stackOf pa)) 1) ∧
    (∀ write : Option (List (Option (BitVec 8))), (∀ bs, write = some bs → narrow bs = true) →
      nget s.net.summed (256 * 0x2101 + s.stackOf pa) ≠ s.now / 250000 + 1 →
      ∃ t, exec (.hbmAccess rq op pa false write 0 1) s = .next t ∧
        t.fld fHB_ECC_CORRECTED (s.stackOf pa) = min (2 ^ 32 - 1) (s.fld fHB_ECC_CORRECTED (s.stackOf pa) + 1) ∧
        t.is fHB_STATUS_CORRECTED (s.stackOf pa) = true ∧ Claim.logged s t 0x2101 (unitStack (s.stackOf pa)) 1) ∧
    (∃ t, exec (.hbmAccess rq op pa false none 0 2) s = .next t ∧ t.hbm.badFrames = s.hbm.badFrames ∧
      t.fld fHB_ECC_UNCORRECTABLE (s.stackOf pa) = min (2 ^ 16 - 1) (s.fld fHB_ECC_UNCORRECTABLE (s.stackOf pa) + 1) ∧
      Claim.logged s t 0x2103 (unitStack (s.stackOf pa)) 2 ∧
      t.out.getLast? = some ⟨.response, rq.unit, pa, (s.physRead pa 64).map BitVec.toNat⟩) ∧
    (∃ t, exec (.hbmAccess rq op pa false none 0 3) s = .next t ∧ pa / 65536 ∈ t.hbm.badFrames ∧
      t.fld fHB_ECC_UNCORRECTABLE (s.stackOf pa) = min (2 ^ 16 - 1) (s.fld fHB_ECC_UNCORRECTABLE (s.stackOf pa) + 1) ∧
      Claim.logged s t 0x2103 (unitStack (s.stackOf pa)) 5 ∧ (⟨.errorResponse, rq.unit, 0x2103, [pa]⟩ : Out) ∈ t.out)

/-- HBM_ECS_POLL, R264; HBM_REFRESH of a bank that is due, R252, R265; HBM_TEMPERATURE_READOUT, R252. -/
def Claim.hbmUpkeep : Prop :=
  (∀ (counts : List Nat) (s : State), s.atBoundary 250000000 = true → s.mg.ctrl = 0 →
    (∀ k, k < 12 → counts.getD k 0 ≤ nget s.hbm.ecs k) → ∃ t, exec (.hbmEcsPoll counts) s = .next t ∧ t.regs = s.regs ∧
      t.integ = s.integ ∧ t.mem = s.mem ∧ ∀ k, k < 12 → nget t.hbm.ecs k = counts.getD k 0) ∧
  (∀ (counts : List Nat) (k : Nat) (s : State), s.atBoundary 250000000 = true → s.mg.ctrl = 0 → k < 12 →
    (∀ j, j < 12 → j ≠ k → counts.getD j 0 ≤ nget s.hbm.ecs j) → nget s.hbm.ecs k < counts.getD k 0 →
    s.fld fMG_LEDGER_STATUS_UNREAD = 0 →
    ∃ t, exec (.hbmEcsPoll counts) s = .next t ∧ Claim.logged s t 0x2105 (unitStack k) 0) ∧
  (∀ (k pc bank : Nat) (mgmt : Bool) (s : State), k < 12 → pc < 64 → bank < 64 →
    s.refreshDue k (64 * (64 * k + pc) + bank) mgmt = true → ∃ t, exec (.hbmRefresh k pc bank mgmt) s = .next t ∧
      nget t.hbm.rows (64 * (64 * k + pc) + bank) = 0 ∧ nget t.hbm.acts (64 * (64 * k + pc) + bank) = 0 ∧
      nget t.hbm.refreshed (64 * (64 * k + pc) + bank) =
        (if mgmt then nget s.hbm.refreshed (64 * (64 * k + pc) + bank) else s.now + 1) ∧
      t.still = { s.still with hbm := { s.still.hbm with refreshed := t.hbm.refreshed } }) ∧
  (∀ (temps : List Nat) (s : State), s.atBoundary 250000 = true → s.mg.ctrl = 0 →
    ∃ t, exec (.hbmTemperatureReadout temps) s = .next t ∧ t.mem = s.mem ∧
      s.regsKept t ((List.range 12).map (fun k => rkey rHB_STATUS k 0)) ∧
      ∀ k, k < 12 → nget t.hbm.temp k = temps.getD k 0 % 65536 ∧
        (t.is fHB_STATUS_HOT k = true ↔ 85 * 16 < signed 16 (temps.getD k 0 % 65536)))

/-- HBM_RATE_CHANGE and HBM_RATE_CHANGE_DONE, R260: at its count, in the order of R330, an armed change of a stack whose target differs holds its
front ends; when it is done the rate is the target, and event 0x2107 says so. -/
def Claim.rateChange : Prop :=
  (∀ (k : Nat) (s : State), k < 12 → nget s.hbm.rateAt k ≠ 0 → nget s.hbm.rateAt k ≤ s.now + 1 →
    s.is fHB_STATUS_SWITCHING k = false → s.actFirst 3 = true → ∃ t, exec (.hbmRateChange k) s = .next t ∧ nget t.hbm.rateAt k = 0 ∧
      (t.is fHB_STATUS_SWITCHING k = true ↔ s.rateTarget k ≠ s.fld fHB_STATUS_RATE_NOW k) ∧
      t.fld fHB_STATUS_RATE_NOW k = s.fld fHB_STATUS_RATE_NOW k ∧ t.mem = s.mem) ∧
  (∀ (k : Nat) (s : State), k < 12 → s.is fHB_STATUS_SWITCHING k = true → s.fld fMG_LEDGER_STATUS_UNREAD = 0 →
    ∃ t, exec (.hbmRateChangeDone k) s = .next t ∧ t.is fHB_STATUS_SWITCHING k = false ∧
      t.fld fHB_STATUS_RATE_NOW k = s.rateTarget k ∧ Claim.logged s t 0x2107 (unitStack k) 0)

/-- The rows of HBM. -/
def Obligations.HbmServesChecksAndKeepsItself : Prop :=
  Claim.hbmAccess ∧ Claim.hbmErrors ∧ Claim.hbmUpkeep ∧ Claim.rateChange

/-- TRANSLATION_WALK, R267-R269, R279: of an entry that no cache holds, is valid, the lodging's own, in range and permits the access,
the walk places it in both caches; beyond the lodging's region it is a fault, counted and recorded as 0x2102; an entry that cannot
be corrected is recorded as 0x2103, and its frame listed; a cached entry that fails its parity is recorded as 0x2009. -/
def Claim.walk : Prop :=
  ∀ (rq : Rq) (op va l e : Nat) (wr ex : Bool) (s : State), rq.platform = false → va < 2 ^ 40 → s.lodgingOf rq = some l →
    l < 8 →
    (s.walkReads rq l (va / 65536) = true → e = s.physNat (s.pteAddr l (va / 65536)) 8 → pteValid e = true →
      pteBad l e = false → (wr = true → pteWrite e = true) → (ex = true → pteExec e = true) →
      ∃ t, exec (.translationWalk rq op va wr ex 0 0 0) s = .next t ∧
        t.still = { s.still with hbm := { s.still.hbm with tlb := t.hbm.tlb }, fresh := t.fresh } ∧
        nget t.hbm.tlb (tlbKey rq.cache l (va / 65536)) = e ∧
        nget t.hbm.tlb (tlbKey (128 + s.stackOf (s.pteAddr l (va / 65536))) l (va / 65536)) = e) ∧
    (s.fld fGL_PT_REGION_COUNT 0 l ≤ va / 65536 → s.fld fMG_LEDGER_STATUS_UNREAD = 0 →
      ∃ t, exec (.translationWalk rq op va wr ex 0 0 0) s = .next t ∧
        Claim.logged s t 0x2102 (unitStack (s.stackOf 0)) 4 ∧
        ∀ p, rq = .host l p → t.fld fGL_TLB_STATUS_FAULTS = min (2 ^ 32 - 1) (s.fld fGL_TLB_STATUS_FAULTS + 1)) ∧
    (s.walkReads rq l (va / 65536) = true → s.fld fMG_LEDGER_STATUS_UNREAD = 0 →
      ∃ t, exec (.translationWalk rq op va wr ex 0 3 0) s = .next t ∧ s.pteAddr l (va / 65536) / 65536 ∈ t.hbm.badFrames ∧
        Claim.logged s t 0x2103 (unitStack (s.stackOf (s.pteAddr l (va / 65536)))) 5 ∧
        (⟨.errorResponse, (s.opRq rq op).unit, 0x2102, [va]⟩ : Out) ∈ t.out) ∧
    (nget s.hbm.tlb (tlbKey rq.cache l (va / 65536)) ≠ 0 → s.fld fMG_LEDGER_STATUS_UNREAD = 0 →
      ∃ t, exec (.translationWalk rq op va wr ex 0 0 1) s = .next t ∧ Claim.logged s t 0x2009 (cacheUnit rq.cache) 1)

/-- TLB_INVALIDATE and TLB_INVALIDATE_DONE, R271: a range is taken when none is pending; when it is done no cache holds an entry of
it, and every other entry stays. -/
def Claim.invalidate : Prop :=
  (∀ (rq : Rq) (l first pages : Nat) (s : State), s.csRefusal rq (glAddr 0x580) true = none → l < 8 →
    s.is fGL_TLB_STATUS_PENDING = false → ∃ t, exec (.tlbInvalidate rq l first pages) s = .next t ∧
      t.hbm.inval = some (l, first, pages) ∧ t.hbm.tlb = s.hbm.tlb ∧ t.is fGL_TLB_STATUS_PENDING = true ∧
      t.is fGL_TLB_STATUS_DONE = false ∧ s.regsKept t [rkey rGL_TLB_STATUS 0 0]) ∧
  (∀ (l first pages : Nat) (s : State), s.hbm.inval = some (l, first, pages) → s.mg.invals = [] →
    ∃ t, exec .tlbInvalidateDone s = .next t ∧ t.hbm.inval = none ∧ t.is fGL_TLB_STATUS_PENDING = false ∧
      t.is fGL_TLB_STATUS_DONE = true ∧ t.mem = s.mem ∧
      ∀ k, nget t.hbm.tlb k = if k / 2 ^ 24 % 16 = l ∧ (pages = 0 ∨ inSpan first pages (k % 2 ^ 24)) then 0
        else nget s.hbm.tlb k)

/-- SCRUB_SUBMIT and SCRUB_JOB_DONE, R272: a job joins the queue of 16; when the last one is done every byte of its frames reads 0
and no other byte has changed. -/
def Claim.scrub : Prop :=
  (∀ (rq : Rq) (first frames : Nat) (s : State), s.csRefusal rq (glAddr 0x590) true = none → first < 2 ^ 24 →
    0 < frames → frames < 2 ^ 24 → s.hbm.scrubs.length < 16 → ∃ t, exec (.scrubSubmit rq first frames) s = .next t ∧
      t.hbm.scrubs = s.hbm.scrubs ++ [(first, frames)] ∧ t.fld fGL_SCRUB_STATUS_QUEUED = s.hbm.scrubs.length + 1 ∧
      t.is fGL_SCRUB_STATUS_BUSY = true ∧ s.regsKept t [rkey rGL_SCRUB_STATUS 0 0] ∧ t.mem = s.mem) ∧
  (∀ (first frames : Nat) (s : State), s.hbm.scrubs = [(first, frames)] → s.scrubPaused first frames = false →
    s.mg.toScrub = [] → s.mg.acts = [] → ∃ t, exec (.scrubJobDone []) s = .next t ∧ t.hbm.scrubs = [] ∧
      t.fld fGL_SCRUB_STATUS_COMPLETED = (s.fld fGL_SCRUB_STATUS_COMPLETED + 1) % 2 ^ 32 ∧
      t.is fGL_SCRUB_STATUS_BUSY = false ∧ s.regsKept t [rkey rGL_SCRUB_STATUS 0 0] ∧
      (∀ a, a < hbmSize → inSpan (65536 * first) (65536 * frames) a → t.rd a = 0#8) ∧
      s.bytesKept t (fun a => a < hbmSize ∧ inSpan (65536 * first) (65536 * frames) a))

/-- Walks, invalidations and scrubs. -/
def Obligations.TranslationAndScrubbingKeepTheirRanges : Prop := Claim.walk ∧ Claim.invalidate ∧ Claim.scrub

/-! ### Site time and clocks (chapter 11) -/

/-- REGION_SYNC_CHECK, R318: where every copy is right, nothing changes; a region whose copy differs loads the master count, with
event 0x5105. A copy that goes wrong before the next check counts on from its wrong value (log 23: an operand of the check). -/
def Claim.regionSync : Prop :=
  ∀ (s : State), s.atBoundary 250000 = true →
    (s.tm.skew = [] → exec (.regionSyncCheck []) s = .next s) ∧
    (∀ r k, s.tm.skew = [] → r < 49 → k % 2 ^ 64 ≠ 0 → ∃ t, exec (.regionSyncCheck [(r, k)]) s = .next t ∧
      t = { s with tm := { s.tm with skew := t.tm.skew } } ∧ t.regionNow r = (s.now + k) % 2 ^ 64) ∧
    (∀ r k, s.tm.skew = [(r, k)] → r < 49 → k ≠ 0 → s.fld fMG_LEDGER_STATUS_UNREAD = 0 →
      ∃ t, exec (.regionSyncCheck []) s = .next t ∧ nget t.tm.skew r = 0 ∧ Claim.logged s t 0x5105 (regionUnit r) 1 ∧
        t.now = s.now)

/-- R319: the trim moved by at most SLEW, and no further than 300 ppm either way. -/
def Claim.trimmed (s t : State) : Prop :=
  (signed 32 (s.fld fTM_FREQ_ADJ_ADJ)).natAbs ≤ ppmUnits 300 →
    (signed 32 (t.fld fTM_FREQ_ADJ_ADJ)).natAbs ≤ ppmUnits 300 ∧
    (signed 32 (t.fld fTM_FREQ_ADJ_ADJ) - signed 32 (s.fld fTM_FREQ_ADJ_ADJ)).natAbs ≤
      ppmUnits (min 200 (max 1 (s.fld fTM_DISC_CFG_SLEW)))

/-- R319-R323: what a sample within STEP_LIMIT does: it is shown and trims the rate within its limits; the sixteenth in a row below
LOCK_NS locks. -/
def Claim.sampled (s t : State) (off : Int) : Prop :=
  t.fld fTM_DISC_STATUS_OFFSET = (off % 2 ^ 32).toNat ∧ t.tm.lastSample = s.now ∧ t.now = s.now ∧
    t.tm.samples = (if off.natAbs < 64 * s.fld fTM_DISC_CFG_LOCK_NS then min 16 (s.tm.samples + 1) else 0) ∧
    t.fld fTM_DISC_STATUS_DISC_STATE =
      (if s.fld fTM_DISC_STATUS_DISC_STATE = 2 ∨ t.tm.samples = 16 then 2 else 1) ∧ Claim.trimmed s t

/-- PTP_SAMPLE, R319-R323: of the best foreign transmitter, a one-step Sync, or a Follow_Up to a Sync of its own, is a sample; one
beyond STEP_LIMIT asks for a step, with event 0x5104. An Announce makes a transmitter known, a Delay_Resp sets the path delay. The
kinds' numbers and the arithmetic are IEEE 1588's (PRESUMED, log 23). -/
def Claim.ptpSample : Prop :=
  ∀ (port sub domain time frac : Nat) (who : List Nat) (s : State), s.ready = true → s.fld fTM_DISC_CFG_SOURCE = 1 → s.mg.ctrl = 0 →
    s.fld fTM_DISC_CFG_PORT = port → s.fld fTM_DISC_CFG_SUBPORT = sub → s.fld fTM_DISC_CFG_DOMAIN = domain → frac < 256 →
    (who ∉ s.tm.foreign → s.tm.foreign.length < 4 → exec (.ptpSample 0 port sub domain who time frac) s =
      .next { s with tm := { s.tm with foreign := s.tm.foreign ++ [who] } }) ∧
    (s.bestForeign = some who →
      (∀ off : Int, off = ((256 * s.now + frac : Nat) : Int) - time - s.tm.pathDelay → -(2 ^ 31) ≤ off → off < 2 ^ 31 →
        (off.natAbs ≤ 64000 * s.fld fTM_DISC_CFG_STEP_LIMIT → ∃ t,
          exec (.ptpSample 1 port sub domain who time frac) s = .next t ∧ Claim.sampled s t off) ∧
        (64000 * s.fld fTM_DISC_CFG_STEP_LIMIT < off.natAbs → s.fld fMG_LEDGER_STATUS_UNREAD = 0 →
          ∃ t, exec (.ptpSample 1 port sub domain who time frac) s = .next t ∧ t.fld fTM_DISC_STATUS_DISC_STATE = 3 ∧
            t.is fTM_DISC_STATUS_STEP_NEEDED = true ∧ t.now = s.now ∧ Claim.logged s t 0x5104 unitHub 0)) ∧
      exec (.ptpSample 2 port sub domain who time frac) s =
        .next { s with tm := { s.tm with syncAt := some (who, 256 * s.now + frac) } } ∧
      (∀ (t2 : Nat) (off : Int), s.tm.syncAt = some (who, t2) → off = (t2 : Int) - time - s.tm.pathDelay →
        off.natAbs ≤ 64000 * s.fld fTM_DISC_CFG_STEP_LIMIT → -(2 ^ 31) ≤ off → off < 2 ^ 31 →
        ∃ t, exec (.ptpSample 3 port sub domain who time frac) s = .next t ∧ Claim.sampled s t off) ∧
      ∀ t1 t2 : Nat, s.tm.lastSync = some (t1, t2) → ∃ t, exec (.ptpSample 4 port sub domain who time frac) s = .next t ∧
        t = { s with tm := { s.tm with pathDelay := t.tm.pathDelay } } ∧
        t.tm.pathDelay = (((t2 : Int) - t1) + ((time : Int) - s.tm.delayStamp)) / 2)

/-- DELAY_REQ, R321, of a transmitter that is free; SITE_TICK_EDGE, R322: the first edge is a sample and sets when the next is due; a later one outside the window
is rejected and counted. DISCIPLINE_HOLDOVER, R323, with event 0x5102. -/
def Claim.ticks : Prop :=
  (∀ (frac : Nat) (s : State), s.ready = true → s.fld fTM_DISC_CFG_SOURCE = 1 → s.mg.ctrl = 0 → frac < 256 →
    s.txOpen (s.fld fTM_DISC_CFG_PORT) (s.fld fTM_DISC_CFG_SUBPORT) none = true →
    ∃ t, exec (.delayReq frac) s = .next t ∧ t.tm.delayStamp = 256 * s.now + frac ∧
      t.still = { s.still with tm := t.tm, out := t.out } ∧ t.out.length = s.out.length + 1) ∧
  (∀ (frac : Nat) (s : State), s.fld fTM_DISC_CFG_SOURCE = 2 → frac < 256 →
    (s.tm.everTicked = false → s.mg.ctrl = 0 → ∃ t, exec (.siteTickEdge frac) s = .next t ∧
      t.fld fTM_TICK_NEXT_COUNT = (s.fld fTM_TICK_NEXT_COUNT + s.tickPeriod) % 2 ^ 64 ∧ t.tm.everTicked = true ∧
      t.tm.lastSample = s.now) ∧
    (s.tm.everTicked = true → s.fld fTM_DISC_STATUS_DISC_STATE ≠ 0 →
      256 * s.fld fTM_DISC_CFG_TICK_WINDOW <
        (((256 * s.now + frac : Nat) : Int) - ((256 * s.fld fTM_TICK_NEXT_COUNT : Nat) : Int)).natAbs →
      ∃ t, exec (.siteTickEdge frac) s = .next t ∧
        t.fld fTM_DISC_STATUS_REJECTED = min (2 ^ 16 - 1) (s.fld fTM_DISC_STATUS_REJECTED + 1) ∧
        t.fld fTM_TICK_NEXT_COUNT = (s.fld fTM_TICK_NEXT_COUNT + s.tickPeriod) % 2 ^ 64 ∧
        t.tm.lastSample = s.tm.lastSample ∧ t.fld fTM_DISC_STATUS_DISC_STATE = s.fld fTM_DISC_STATUS_DISC_STATE)) ∧
  (∀ (gap : Nat) (s : State), (s.fld fTM_DISC_STATUS_DISC_STATE = 1 ∨ s.fld fTM_DISC_STATUS_DISC_STATE = 2) →
    (s.fld fTM_DISC_CFG_SOURCE = 1 ∧ gap = 750000000 ∨ s.fld fTM_DISC_CFG_SOURCE = 2 ∧ gap = 3 * s.tickPeriod) →
    s.tm.lastSample + gap ≤ s.now → s.fld fMG_LEDGER_STATUS_UNREAD = 0 →
    ∃ t, exec .disciplineHoldover s = .next t ∧ t.fld fTM_DISC_STATUS_DISC_STATE = 4 ∧
      t.is fTM_DISC_STATUS_LOST = true ∧ t.tm.samples = 0 ∧ t.now = s.now ∧ Claim.logged s t 0x5102 unitHub 0)

/-- STEP_FORWARD and SITE_NOW_WRITE, R320: a step that was asked for moves the count on; one that was not does nothing. The count
is written only while no lodging is open. -/
def Claim.countMoves : Prop :=
  (∀ (rq : Rq) (n : Nat) (s : State), s.csRefusal rq (tmAddr 0x20) true = none →
    (s.is fTM_DISC_STATUS_STEP_NEEDED = true → ∃ t, exec (.stepForward rq n) s = .next t ∧ t.now = (s.now + n) % 2 ^ 64 ∧
      t.is fTM_DISC_STATUS_STEP_NEEDED = false ∧ (s.now < t.now → t.tm.jump = some (s.now, t.now))) ∧
    (s.is fTM_DISC_STATUS_STEP_NEEDED = false → exec (.stepForward rq n) s = .next s)) ∧
  (∀ (rq : Rq) (v : Nat) (s : State), s.csRefusal rq (tmAddr 0) true = none → v < 2 ^ 64 →
    (s.anyOpen = false → s.tmBusy = false → ∃ t, exec (.siteNowWrite rq v) s = .next t ∧ t.now = v) ∧
    (s.anyOpen = true → ∃ t, exec (.siteNowWrite rq v) s = .next t ∧ t.now = s.now ∧
      t.is fTM_DISC_STATUS_CFG_WHILE_BUSY = true ∧ s.regsKept t [rkey rTM_DISC_STATUS 0 0]))

/-- SITE_TICK_OUT_PULSE and SITE_TICK_OUT_END, R324. -/
def Claim.tickOut : Prop :=
  ∀ s : State,
    (s.atBoundary 250000000 = true → s.fld fTM_DISC_CFG_OUT_WIDTH ≠ 0 → exec .siteTickOutPulse s =
      .next { s with pins := { s.pins with siteTickOut := true }, tm := { s.tm with pulseAt := s.now } }) ∧
    (s.pins.siteTickOut = true → s.tm.pulseAt + 250000 * s.fld fTM_DISC_CFG_OUT_WIDTH ≤ s.now →
      exec .siteTickOutEnd s = .next { s with pins := { s.pins with siteTickOut := false } })

/-- The rows of site time. -/
def Obligations.SiteTimeIsDisciplinedSteppedAndShown : Prop :=
  Claim.regionSync ∧ Claim.ptpSample ∧ Claim.ticks ∧ Claim.countMoves ∧ Claim.tickOut

/-- STEP_TABLE_WRITE, R325: an acceptable entry that is not in force takes the word; one that is not acceptable is refused with
event 0x5108. -/
def Claim.stepTable : Prop :=
  ∀ (rq : Rq) (i w : Nat) (s : State), i < 8 → w < 2 ^ 64 → s.csRefusal rq (tmAddr (0x100 + 8 * i)) true = none →
    s.tmBusy = false → s.stepEntryUsed i = false →
    (s.stepEntryOk i (fieldOf 0 12 w) (fieldOf 12 10 w) (fieldOf 32 12 w) = true →
      ∃ t, exec (.stepTableWrite rq i w) s = .next t ∧ t = { s with regs := t.regs } ∧
        t.fld fTM_STEP_TABLE_MHZ 0 i = fieldOf 0 12 w ∧ t.fld fTM_STEP_TABLE_MV 0 i = fieldOf 12 10 w ∧
        t.fld fTM_STEP_TABLE_UNCORE_MHZ 0 i = fieldOf 32 12 w ∧ s.regsKept t [rkey rTM_STEP_TABLE 0 i]) ∧
    (s.stepEntryOk i (fieldOf 0 12 w) (fieldOf 12 10 w) (fieldOf 32 12 w) = false → s.fld fMG_LEDGER_STATUS_UNREAD = 0 →
      ∃ t, exec (.stepTableWrite rq i w) s = .next t ∧ t.is fTM_DISC_STATUS_STEP_REFUSED = true ∧
        t.reg rTM_STEP_TABLE 0 i = s.reg rTM_STEP_TABLE 0 i ∧ Claim.logged s t 0x5108 unitHub 0)

/-- SWITCH_COUNT_WRITE, R327 step 1: a switch is pending for its count when that leaves MIN_LEAD, or 200 µs, of time; else for a
1 µs boundary that does, with SWITCH_LATE. -/
def Claim.switchWrite : Prop :=
  ∀ (rq : Rq) (target count : Nat) (s : State), target < 8 → count < 2 ^ 61 → s.csRefusal rq (tmAddr 0x200) true = none →
    s.tmBusy = false → ∃ t w, exec (.switchCountWrite rq target count) s = .next t ∧ t.tm.switch = some w ∧
      w.target = target ∧ w.done = false ∧ t.is fTM_STEP_STATUS_PENDING = true ∧ t.mem = s.mem ∧
      (s.now + max 50000 (s.fld fTM_STEP_CFG_MIN_LEAD) ≤ count → w.at_ = count ∧
        t.is fTM_STEP_STATUS_SWITCH_LATE = s.is fTM_STEP_STATUS_SWITCH_LATE) ∧
      (count < s.now + max 50000 (s.fld fTM_STEP_CFG_MIN_LEAD) → w.at_ % 250 = 0 ∧
        s.now + max 50000 (s.fld fTM_STEP_CFG_MIN_LEAD) ≤ w.at_ ∧ t.is fTM_STEP_STATUS_SWITCH_LATE = true)

/-- FREQUENCY_SWITCH, REGION_LATE_SWITCH and FREQUENCY_SWITCH_COMPLETE, R327: at its count, where every region's count has reached it,
every region that is ready moves to the lowest of the target and its ceilings, and one that is late keeps its step until it switches;
then PENDING clears, with event 0x5106. A region whose count reaches S after the others' switches then (R317).
REGION_CEILING_SWITCH, R329: a region moves to the step its ceilings now allow. -/
def Claim.switches : Prop :=
  (∀ (late : List (Nat × Nat)) (w : Switch) (s : State), s.tm.switch = some w → w.done = false → w.target < 8 →
    (∀ r, r < 49 → s.reached w r = true) → ∃ t, exec (.frequencySwitch late) s = .next t ∧
      t.fld fTM_STEP_TARGET_TARGET = w.target ∧ t.mem = s.mem ∧
      (∀ r, r < 49 → t.fld fTM_REGION_STEP_IN_FORCE 0 r =
        if late.any (fun p => p.1 == r) then s.fld fTM_REGION_STEP_IN_FORCE 0 r else min w.target (s.ceiling r)) ∧
      t.tm.switch = some { w with done := true, notReady := late.filter (fun p => decide (p.1 < 49)) }) ∧
  (∀ (r why : Nat) (w : Switch) (s : State), r < 49 → s.tm.switch = some w → w.done = true → w.notReady = [(r, why)] →
    why ≠ 0 → s.regionBoundary r 250 = true → w.at_ < s.regionNow r → s.fld fMG_LEDGER_STATUS_UNREAD = 0 →
    ∃ t, exec (.regionLateSwitch r) s = .next t ∧ t.fld fTM_REGION_STEP_IN_FORCE 0 r = s.stepDue r ∧
      t.tm.switch = some { w with notReady := [] } ∧ t.is fTM_STEP_STATUS_SWITCH_LATE = true ∧
      Claim.logged s t 0x5107 (regionUnit r) 0) ∧
  (∀ (r : Nat) (w : Switch) (s : State), r < 49 → s.tm.switch = some w → w.done = true → w.notReady = [(r, 0)] →
    s.reached w r = true → ∃ t, exec (.regionLateSwitch r) s = .next t ∧ t.integ.ledger = s.integ.ledger ∧
      t.fld fTM_REGION_STEP_IN_FORCE 0 r = s.stepDue r ∧ t.tm.switch = some { w with notReady := [] }) ∧
  (∀ (w : Switch) (s : State), s.tm.switch = some w → w.done = true → w.notReady = [] →
    s.fld fMG_LEDGER_STATUS_UNREAD = 0 → ∃ t, exec .frequencySwitchComplete s = .next t ∧ t.tm.switch = none ∧
      t.is fTM_STEP_STATUS_PENDING = false ∧ Claim.logged s t 0x5106 unitHub 0) ∧
  (∀ (r : Nat) (s : State), r < 49 → s.regionBoundary r 250 = true → s.tm.switch = none →
    ∃ t, exec (.regionCeilingSwitch r) s = .next t ∧
      t.fld fTM_REGION_STEP_IN_FORCE 0 r = min (s.fld fTM_STEP_TARGET_TARGET) (s.ceiling r) ∧
      t.fld fTM_REGION_STEP_CEILING 0 r = s.ceiling r % 16 ∧ s.regsKept t [rkey rTM_REGION_STEP 0 r] ∧ t.mem = s.mem ∧
      (s.stepDue r = s.fld fTM_REGION_STEP_IN_FORCE 0 r → t.integ = s.integ) ∧
      (s.stepDue r ≠ s.fld fTM_REGION_STEP_IN_FORCE 0 r → ∀ d, d ∈ t.integ.dressings → d.u / 28 = r → d.cut = true))

/-- The rows of frequency steps. -/
def Obligations.FrequencyStepsFollowTargetAndCeilings : Prop := Claim.stepTable ∧ Claim.switchWrite ∧ Claim.switches

/-! ### Power, caps and heat (chapter 12) -/

/-- R357: an event of the device's power: its record names a power domain, which the spec leaves open (log 9). -/
def Claim.powerLogged (s t : State) (event outcome : Nat) : Prop := ∃ d, d < 50 ∧ Claim.logged s t event (unitDomain d) outcome

/-- PHASE_FAULT, R334, Table 12.2: the phase is shown as failed; of a core domain the first is recorded as 0x5201, the second as
0x5202 with the cluster held to step 4, and any further one as 0x5203 with the cluster fenced; VNET and VSRAM go on up to their
number of failed phases, and stop the device, with FAULT_N, beyond twice that. -/
def Claim.phaseFault : Prop :=
  ∀ (d phase : Nat) (s : State), d < 50 → phase < phasesOf d → (s.fld fPW_PHASE_STATUS_FAILED 0 d).testBit phase = false →
    s.fld fMG_LEDGER_STATUS_UNREAD = 0 → s.integ.defects.length < 2048 → ∃ t, exec (.phaseFault d phase) s = .next t ∧
      (∀ j, (t.fld fPW_PHASE_STATUS_FAILED 0 d).testBit j = (decide (j = phase) || (s.fld fPW_PHASE_STATUS_FAILED 0 d).testBit j)) ∧
      t.is fPW_STATUS_PHASE_FAILED = true ∧
      (d < 48 →
        (s.failedPhases d = 0 → Claim.logged s t 0x5201 (unitDomain d) 1) ∧
        (s.failedPhases d = 1 → Claim.logged s t 0x5202 (unitDomain d) 3 ∧ t.ceilAt .regulator d = 4) ∧
        (2 ≤ s.failedPhases d → Claim.logged s t 0x5203 (unitDomain d) 6 ∧ t.clusterFenced d = true)) ∧
      (48 ≤ d →
        (s.failedPhases d < (if d = 48 then 4 else 2) → Claim.logged s t 0x5204 (unitDomain d) 1 ∧
          t.pw.stopped = s.pw.stopped) ∧
        ((if d = 48 then 4 else 2) ≤ s.failedPhases d → s.failedPhases d < 2 * (if d = 48 then 4 else 2) →
          ∀ c, c < 48 → t.ceilAt .regulator c = 4) ∧
        (2 * (if d = 48 then 4 else 2) ≤ s.failedPhases d →
          Claim.logged s t 0x5205 (unitDomain d) 6 ∧ t.pw.stopped = true ∧ t.pins.faultN = false))

/-- DOMAIN_MEASURE, R336, R337: at a 1 ms boundary the means of every domain are shown, and the sums begin anew. -/
def Claim.domainMeasure : Prop :=
  ∀ (vals : List (Nat × Nat)) (s : State), s.atBoundary 250000 = true → ∃ t, exec (.domainMeasure vals) s = .next t ∧
    t.mem = s.mem ∧ t.pw.ticks = 0 ∧ t.pw.estSum = [] ∧
    s.regsKept t ((List.range 50).map (fun d => rkey rPW_DOMAIN_CURRENT 0 d)) ∧
    ∀ d, d < 50 → t.fld fPW_DOMAIN_CURRENT_MV 0 d = (vals.getD d (0, 0)).1 % 65536 ∧
      t.fld fPW_DOMAIN_CURRENT_CURRENT 0 d = (vals.getD d (0, 0)).2 % 65536 ∧
      t.fld fPW_DOMAIN_CURRENT_EST 0 d = (nget s.pw.estSum d / (100 * max 1 s.pw.ticks)) % 65536

/-- The pairs of a domain with the one of the last 1 ms, the newest 64 (R338). -/
def Claim.calPairs (s : State) (d : Nat) : List (Int × Int) :=
  let power : Int := (s.fld fPW_DOMAIN_CURRENT_CURRENT 0 d * s.fld fPW_DOMAIN_CURRENT_MV 0 d / 100 : Nat)
  (((nget s.pw.actMean d : Int), power - nget s.pw.leakMean d) ::
    (s.pw.pairs.filter (fun p => p.1 == d)).map (fun p => p.2)).take 64

/-- ESTIMATOR_CALIBRATION, R338: the gain and offset of each domain stay until it has 64 pairs; then a fit within its limits
replaces them, and the gain is never set outside 0.5 to 2.0. -/
def Claim.calibration : Prop :=
  ∀ s : State, s.atBoundary 250000 = true → ∃ t, exec .estimatorCalibration s = .next t ∧ ∀ d, d < 50 →
    (t.pw.pairs.filter (fun p => p.1 == d)).map (fun p => p.2) = Claim.calPairs s d ∧
    ((Claim.calPairs s d).length < 64 → t.reg rPW_DOMAIN_CAL 0 d = s.reg rPW_DOMAIN_CAL 0 d) ∧
    (t.reg rPW_DOMAIN_CAL 0 d = s.reg rPW_DOMAIN_CAL 0 d ∨
      32768 ≤ t.fld fPW_DOMAIN_CAL_GAIN 0 d ∧ t.fld fPW_DOMAIN_CAL_GAIN 0 d ≤ 131072) ∧
    (∀ f, (Claim.calPairs s d).length = 64 → fitLine (Claim.calPairs s d) = some f → fitOk d f = true →
      t.fld fPW_DOMAIN_CAL_GAIN 0 d = f.1.toNat ∧ t.fld fPW_DOMAIN_CAL_OFFSET 0 d = (f.2 % 2 ^ 32).toNat)

/-- LIMITER_TICK, R337, R340, R342, R343: the estimate of the microsecond that has passed, kept at the floor by ballast passes, enters
the history and STATUS.P, the power that is permitted STATUS.A; settings that Table 12.3 lets be set are set, and others leave the
throttles as they were. Settings that throttle nothing are none of them while the demand exceeds what is permitted. -/
def Claim.limiterTick : Prop :=
  ∀ (acts leaks : List Nat) (board demand duty : Nat) (pause : Bool) (gate pace hbm : Nat) (p q a : Nat) (u v : State) (s : State),
    s.atBoundary 250 = true → s.pw.limitAt ≠ s.now + 1 → s.pw.stopped = false →
    s.estimate acts leaks board = (q, u) → p = (if u.ballastOn then max q s.pw.floor else q) → v = (u.history p).takeCaps →
    a = v.permitted p →
    ∃ t, exec (.limiterTick acts leaks board demand duty pause gate pace hbm) s = .next t ∧
      t.pw.limitAt = s.now + 1 ∧ t.pw.hs = v.pw.hs ∧ t.pw.hp = v.pw.hp ∧
      (s.fld fPW_CAP_SUSTAINED_CAP = s.pw.sustNow → t.pw.hs = (p :: s.pw.hs).take 1000000) ∧
      (s.fld fPW_CAP_PEAK_CAP = s.pw.peakNow → t.pw.hp = (p :: s.pw.hp).take 1000) ∧
      t.pw.sustNow = s.fld fPW_CAP_SUSTAINED_CAP ∧ t.pw.peakNow = s.fld fPW_CAP_PEAK_CAP ∧
      t.fld fPW_STATUS_P = min 65535 (p / 1000) ∧ t.fld fPW_STATUS_A = min 65535 (a / 1000) ∧
      t.pw.floor = (if v.ballastOn then min a (p - 1000 * max 1 (min 1000 (s.fld fPW_SLOPE_FALL))) else 0) ∧
      (v.throttlesOk duty pause gate pace hbm demand p a = true →
        t.fld fPW_STATUS_DUTY = duty - 1 ∧ t.pw.gangPause = pause ∧ t.pw.cmGate = gate ∧ t.pw.linkPace = pace) ∧
      (v.throttlesOk duty pause gate pace hbm demand p a = false →
        t.fld fPW_STATUS_DUTY = s.fld fPW_STATUS_DUTY ∧ t.pw.gangPause = s.pw.gangPause ∧ t.pw.cmGate = s.pw.cmGate ∧
        t.pw.linkPace = s.pw.linkPace) ∧
      (a < demand → v.throttlesOk duty pause gate pace hbm demand p a = true → duty < 16 ∨ gate ≠ 0 ∨ hbm = 1 ∨ pace < 1000)

/-- CAP_WRITE, R339: a cap within its range is taken as it is written and nothing else changes; one outside is moved to the range,
with CAP_CLAMPED and event 0x520B. -/
def Claim.capWrite : Prop :=
  ∀ (rq : Rq) (which v lo hi : Nat) (f : Fld) (s : State), v < 4096 → s.csRefusal rq (pwAddr (8 * which)) true = none →
    (which = 0 ∧ f = fPW_CAP_SUSTAINED_CAP ∧ lo = 600 ∧ hi = min 2400 (s.fld fPW_CAP_PEAK_CAP) ∨
      which = 1 ∧ f = fPW_CAP_PEAK_CAP ∧ lo = s.fld fPW_CAP_SUSTAINED_CAP ∧ hi = 2800 ∨
      which = 2 ∧ f = fPW_SHED_CAP_CAP ∧ lo = 600 ∧ hi = s.fld fPW_CAP_PEAK_CAP) →
    (lo ≤ v → v ≤ hi → ∃ t, exec (.capWrite rq which v) s = .next t ∧ t = { s with regs := t.regs } ∧ t.fld f = v ∧
      s.regsKept t [rkey f.reg 0 0]) ∧
    (lo ≤ hi → v < lo ∨ hi < v → s.fld fMG_LEDGER_STATUS_UNREAD = 0 → ∃ t, exec (.capWrite rq which v) s = .next t ∧
      t.fld f = (if v < lo then lo else hi) ∧ t.is fPW_STATUS_CAP_CLAMPED = true ∧ Claim.powerLogged s t 0x520B 0)

/-- SHED_ASSERT and SHED_RELEASE, R341, with events 0x5206 and 0x5207. -/
def Claim.shed : Prop :=
  ∀ s : State, s.pins.pwrGood = true → s.fld fMG_LEDGER_STATUS_UNREAD = 0 →
    (s.pins.shedN = true → ∃ t, exec .shedAssert s = .next t ∧ t.pins = { s.pins with shedN := false } ∧
      t.is fPW_STATUS_SHED = true ∧ t.is fPW_STATUS_SHED_SEEN = true ∧ t.tm = s.tm ∧ Claim.powerLogged s t 0x5206 0) ∧
    (s.pins.shedN = false → ∃ t, exec .shedRelease s = .next t ∧ t.pins = { s.pins with shedN := true } ∧
      t.is fPW_STATUS_SHED = false ∧ t.is fPW_STATUS_SHED_SEEN = s.is fPW_STATUS_SHED_SEEN ∧ t.tm = s.tm ∧
      Claim.powerLogged s t 0x5207 0)

/-- POWER_CEILING_LOWER and POWER_CEILING_RAISE, R344. -/
def Claim.powerCeilings : Prop :=
  ∀ (n : Nat) (s : State),
    (s.pw.dutyLowSince = some n → n + 250000 * s.fld fPW_CFG_DWELL ≤ s.now → ∃ t, exec .powerCeilingLower s = .next t ∧
      t.mem = s.mem ∧ t.integ = s.integ ∧ t.pw.dutyLowSince = some s.now ∧
      ∀ c, c < 48 → t.ceilAt .power c = s.ceilAt .power c - 1 ∧ t.fld fTM_REGION_STEP_CEILING 0 c = t.ceiling c % 16) ∧
    (s.pw.dutyFullSince = some n → n + 5000000 ≤ s.now → ∃ t, exec .powerCeilingRaise s = .next t ∧
      t.mem = s.mem ∧ t.integ = s.integ ∧ t.pw.dutyFullSince = some s.now ∧
      ∀ c, c < 48 → t.ceilAt .power c = min 7 (s.ceilAt .power c + 1) ∧
        t.fld fTM_REGION_STEP_CEILING 0 c = t.ceiling c % 16)

/-- CAP_SCHEDULE_STEP, R349, R330: at its count, in the order of R330, an entry's caps, settled in the order peak, sustained, shed, and its rise limit come into
force as one write, and the entry is spent; a field of 0 leaves its value as it is. Event 0x5208 records it. -/
def Claim.capSchedule : Prop :=
  ∀ (i : Nat) (s : State), i < 16 → s.capDue i = true → s.actFirst 4 = true →
    (∀ j, j < i → s.capDue j = true → s.fld fPW_CAP_SCHED0_COUNT 0 j ≠ s.fld fPW_CAP_SCHED0_COUNT 0 i) →
    ∃ t, exec (.capScheduleStep i) s = .next t ∧ t.is fPW_CAP_SCHED0_VALID 0 i = false ∧
      t.fld fPW_CAP_SUSTAINED_CAP = (s.schedCaps i).1.1 ∧ t.fld fPW_CAP_PEAK_CAP = (s.schedCaps i).1.2.1 ∧
      t.fld fPW_SHED_CAP_CAP = (s.schedCaps i).1.2.2 ∧
      600 ≤ (s.schedCaps i).1.1 ∧ (s.schedCaps i).1.1 ≤ min 2400 (s.schedCaps i).1.2.1 ∧ (s.schedCaps i).1.2.1 ≤ 2800 ∧
      600 ≤ (s.schedCaps i).1.2.2 ∧ (s.schedCaps i).1.2.2 ≤ (s.schedCaps i).1.2.1 ∧
      t.fld fPW_SLOPE_RISE = (if s.fld fPW_CAP_SCHED1_RISE 0 i = 0 then s.fld fPW_SLOPE_RISE else s.fld fPW_CAP_SCHED1_RISE 0 i) ∧
      t.fld fPW_SLOPE_FALL = s.fld fPW_SLOPE_FALL ∧
      (s.fld fMG_LEDGER_STATUS_UNREAD = 0 → (s.schedCaps i).2 = false → Claim.powerLogged s t 0x5208 0)

/-- SENSOR_SCAN, R350-R352: every reading is shown as valid; an uncore or SRAM sensor is ignored exactly while it reads out of range,
and so is a cluster's while one of the pair does; a cluster at 110 degrees is stopped at once, and one below 100 runs; a reading of
125 degrees of a good sensor trips. -/
def Claim.sensorScan : Prop :=
  ∀ (temps bad : List Nat) (s : State), s.atBoundary 5000 = true → ∃ t, exec (.sensorScan temps bad) s = .next t ∧
    (∀ i, i < 120 → t.fld fMG_SENSOR_TEMP 0 i = temps.getD i 0 % 65536 ∧ t.is fMG_SENSOR_VALID 0 i = true) ∧
    (∀ i, 96 ≤ i → i < 120 → t.is fMG_SENSOR_IGNORED 0 i = bad.contains i) ∧
    (∀ c, c < 48 → (bad.contains (2 * c) = true ∨ bad.contains (2 * c + 1) = true) →
      t.is fMG_SENSOR_IGNORED 0 (2 * c) = bad.contains (2 * c) ∧
        t.is fMG_SENSOR_IGNORED 0 (2 * c + 1) = bad.contains (2 * c + 1)) ∧
    (∀ c, c < 48 → (1760 ≤ signed 16 (t.tcOf c) → nget t.pw.thermStop c = 2) ∧
      (signed 16 (t.tcOf c) < 1600 → nget t.pw.thermStop c = 0)) ∧
    (s.pins.thermtripN = true → t.pins.thermtripN =
      !(List.range 120).any (fun i => !bad.contains i && decide (2000 ≤ signed 16 (temps.getD i 0 % 65536)))) ∧
    (s.pins.thermtripN = true → t.pins.thermtripN = false → t.pw.stopped = true)

/-- THERMAL_CEILING_FALL and THERMAL_CEILING_RISE, R351: one step down every 10 ms above the target, recorded as 0x5301; one up every
100 ms more than 3 degrees below it. FIELD_ROUTERS_OFF, R351: the field's running routers drain, recorded as 0x5304. -/
def Claim.thermalCeilings : Prop :=
  (∀ (c : Nat) (s : State), c < 48 → s.heatTarget < signed 16 (s.tcOf c) → 0 < s.ceilAt .thermal c → s.ceilAt .thermal c ≤ 7 →
    (nget s.pw.fallAt c = 0 ∨ nget s.pw.fallAt c + 2500000 ≤ s.now + 1) → s.fld fMG_LEDGER_STATUS_UNREAD = 0 →
    ∃ t, exec (.thermalCeilingFall c) s = .next t ∧ t.ceilAt .thermal c = s.ceilAt .thermal c - 1 ∧
      nget t.pw.fallAt c = s.now + 1 ∧ t.fld fTM_REGION_STEP_CEILING 0 c = t.ceiling c % 16 ∧
      (∀ k, k < 48 → k ≠ c → t.ceilAt .thermal k = s.ceilAt .thermal k) ∧ Claim.logged s t 0x5301 (unitSensor (s.hotSensor c)) 0) ∧
  (∀ (c : Nat) (s : State), c < 48 → signed 16 (s.tcOf c) < s.heatTarget - 48 → s.ceilAt .thermal c < 7 →
    (s.is fMG_SENSOR_IGNORED 0 (2 * c) = false ∨ s.is fMG_SENSOR_IGNORED 0 (2 * c + 1) = false) →
    (nget s.pw.riseAt c = 0 ∨ nget s.pw.riseAt c + 25000000 ≤ s.now + 1) →
    ∃ t, exec (.thermalCeilingRise c) s = .next t ∧ t.ceilAt .thermal c = s.ceilAt .thermal c + 1 ∧
      nget t.pw.riseAt c = s.now + 1 ∧ t.fld fTM_REGION_STEP_CEILING 0 c = t.ceiling c % 16 ∧
      (∀ k, k < 48 → k ≠ c → t.ceilAt .thermal k = s.ceilAt .thermal k) ∧ t.mem = s.mem ∧ t.integ = s.integ) ∧
  (∀ (f : Nat) (s : State), f < 6 → nget s.pw.hotSince f ≠ 0 → nget s.pw.hotSince f + 250000 ≤ s.now + 1 → f ∉ s.pw.fieldOff →
    s.fld fMG_LEDGER_STATUS_UNREAD = 0 → ∃ t, exec (.fieldRoutersOff f) s = .next t ∧ f ∈ t.pw.fieldOff ∧
      (∀ r, r < 48 → t.fld fNW_ROUTER_STATUS_STATE 0 r =
        if r ∈ fieldRouters f ∧ s.fld fNW_ROUTER_STATUS_STATE 0 r = 0 then 1 else s.fld fNW_ROUTER_STATUS_STATE 0 r) ∧
      Claim.logged s t 0x5304 (unitSensor (96 + 3 * f)) 6)

/-- Measuring and limiting. -/
def Obligations.PowerIsMeasuredAndLimited : Prop :=
  Claim.phaseFault ∧ Claim.domainMeasure ∧ Claim.calibration ∧ Claim.limiterTick

/-- Caps, shedding and power ceilings. -/
def Obligations.CapsShedsAndPowerCeilingsAreSet : Prop :=
  Claim.capWrite ∧ Claim.shed ∧ Claim.powerCeilings ∧ Claim.capSchedule

/-- The rows of heat. -/
def Obligations.HeatLowersStopsAndDrains : Prop := Claim.sensorScan ∧ Claim.thermalCeilings

/-! ### Power pins, the start and whole-device resets (chapters 13 and 17) -/

/-- R377: what a whole-device reset leaves: every memory and engine as at reset, every register but those of the VSTBY domain at its
reset value; OTP, the runtime defect list, site time, the start's configuration and counts, the journal's times, the sensors and
the start number stay. -/
def Claim.wiped (s t : State) : Prop :=
  t.mem = [] ∧ t.core = {} ∧ t.ms = {} ∧ t.sq = {} ∧ t.net = {} ∧ t.hbm = {} ∧ t.rst = {} ∧ t.ck = {} ∧ t.rt = {} ∧ t.mg = {} ∧
    t.sh = [] ∧ t.otp = s.otp ∧ t.integ.defects = s.integ.defects ∧ t.boot.running = false ∧ t.boot.transfer = none ∧
    t.fld fMG_START_STATUS_START_NUMBER = s.fld fMG_START_STATUS_START_NUMBER ∧
    (∀ r u i, u < 4096 → i < 2 ^ 20 → keptRow r = false → r ≠ rMG_START_STATUS → r ≠ rPW_STATUS →
      t.reg r u i = regReset (rkey r u i)) ∧
    (∀ r u i, u < 4096 → i < 2 ^ 20 → r ∈ [rTM_SITE_NOW, rMG_START_CFG, rMG_BOOT_FAILS, rMG_BOOT_JOURNAL0, rMG_SENSOR] →
      t.reg r u i = s.reg r u i)

/-- VSTBY_VALID, R455: site time begins at 0, BOOT_SRC is sampled, and with RESET_N high a start is due. VSTBY_REMOVAL, R457: only OTP
and what waits outside stay. -/
def Claim.standby : Prop :=
  (∀ (straps : Nat) (resetN : Bool) (s : State), s.pins.vstby = false → ∃ t, exec (.vstbyValid straps resetN) s = .next t ∧
    t.now = 0 ∧ t.fld fMG_START_STATUS_BOOT_SRC = straps % 4 ∧ t.pins.vstby = true ∧ t.pins.pwrGood = false ∧
    t.pins.resetN = resetN ∧ t.pins.bootSrc = straps % 4 ∧ t.boot = { s.boot with due := resetN } ∧
    s.regsKept t [rkey rTM_SITE_NOW 0 0, rkey rMG_START_STATUS 0 0] ∧ t.mem = s.mem ∧ t.otp = s.otp ∧ t.out = s.out) ∧
  (∀ s : State, s.pins.vstby = true → ∃ t, exec .vstbyRemoval s = .next t ∧ t.regs = [] ∧ t.mem = [] ∧ t.core = {} ∧
    t.integ = {} ∧ t.sh = [] ∧ t.otp = s.otp ∧ t.out = s.out ∧ t.pins.vstby = false ∧ t.pins.pwrGood = false ∧
    t.boot.due = false ∧ t.boot.running = false)

/-- PWR_GOOD_RISE, R456: the watchdog of a step that waited for the rails runs from here. PWR_GOOD_FALL, R354: event 0x5210, the
outputs and SHED_N no longer asserted, and a whole-device reset. -/
def Claim.railsGoodAndLost : Prop :=
  (∀ s : State, s.pins.vstby = true → s.pins.pwrGood = false → ∃ t, exec .pwrGoodRise s = .next t ∧
    t = { s with pins := { s.pins with pwrGood := true }, boot := t.boot } ∧
    t.boot = { s.boot with stepAt := if s.boot.running = true ∧ s.railsAwaited = true then s.now else s.boot.stepAt }) ∧
  (∀ s : State, s.pins.vstby = true → s.pins.pwrGood = true → ∃ t, exec .pwrGoodFall s = .next t ∧ t.pins.pwrGood = false ∧
    t.pins.thermtripN = true ∧ t.pins.shedN = true ∧ (s.inReset = false → Claim.wiped s t ∧ t.boot.due = true) ∧
    (s.fld fMG_LEDGER_STATUS_UNREAD = 0 → Claim.powerLogged s t 0x5210 6))

/-- RESET_N_ASSERT and RESET_N_RELEASE, R458, R460, R383: a whole-device reset that is held, with event 0x6105, unless one is under
way; release samples the straps and makes the start due. -/
def Claim.resetPin : Prop :=
  (∀ s : State, s.pins.vstby = true → s.pins.resetN = true → ∃ t, exec .resetNAssert s = .next t ∧ t.pins.resetN = false ∧
    t.boot.due = false ∧ (s.boot.due = false → Claim.wiped s t ∧ t.pins.faultN = true ∧ t.pins.rampNotice = 0 ∧
      (s.fld fMG_LEDGER_STATUS_UNREAD = 0 → Claim.logged s t 0x6105 unitInn 6))) ∧
  (∀ (straps : Nat) (s : State), s.pins.vstby = true → s.pins.resetN = false → exec (.resetNRelease straps) s =
    .next { s with pins := { s.pins with resetN := true, bootSrc := straps % 4 }, boot := { s.boot with due := true } })

/-- WHOLE_DEVICE_RESET, R377. -/
def Claim.wholeReset : Prop :=
  ∀ (rq : Rq) (s : State), s.csRefusal rq (mgAddr 0x2000) true = none → ∃ t, exec (.wholeDeviceReset rq) s = .next t ∧
    Claim.wiped s t ∧ t.boot.due = (s.pins.resetN && s.pins.vstby) ∧
    (s.fld fMG_LEDGER_STATUS_UNREAD = 0 → Claim.logged s t 0x6105 unitInn 6)

/-- The step under way is k, with its journal entry at i: its start time, its number and, while it has no outcome yet, 0; or, at a
failure count of 3, it is not run, and the start waits for a host with outcome 5 (R374, R375). -/
def Claim.stepBegun (s t : State) (k i : Nat) : Prop :=
  t.fld fMG_START_STATUS_STEP = k ∧ t.fld fMG_BOOT_JOURNAL1_STEP 0 i = k ∧ t.reg rMG_BOOT_JOURNAL0 0 i = BitVec.ofNat 64 s.now ∧
    t.boot.journalNext = (i + 1) % 32 ∧ t.boot.stepAt = s.now ∧
    (t.failCount k < 3 → t.fld fMG_START_STATUS_STATE = 0 ∧ t.fld fMG_BOOT_JOURNAL1_OUTCOME 0 i = 0) ∧
    (3 ≤ t.failCount k → t.fld fMG_START_STATUS_STATE = 2 ∧ t.fld fMG_BOOT_JOURNAL1_OUTCOME 0 i = 5 ∧ t.pins.faultN = false)

/-- START_SEQUENCE, R361, R374, R375: the start number advances, the strap and MG_START_CFG are taken, a step that failed or was cut
off in the previous start is counted, and step 1 begins. -/
def Claim.startSequence : Prop :=
  ∀ s : State, s.boot.due = true → s.pins.vstby = true → s.pins.resetN = true → s.boot.journalNext < 32 →
    ∃ t, exec .startSequence s = .next t ∧ t.boot.due = false ∧ t.boot.running = true ∧ t.boot.transfer = none ∧
      t.fld fMG_START_STATUS_START_NUMBER = (s.fld fMG_START_STATUS_START_NUMBER + 1) % 65536 ∧
      t.fld fMG_START_STATUS_BOOT_SRC = s.pins.bootSrc % 4 ∧ t.boot.cfg = s.reg rMG_START_CFG 0 0 ∧
      Claim.stepBegun s t 1 s.boot.journalNext ∧
      (∀ k o, k = s.fld fMG_BOOT_JOURNAL1_STEP 0 s.newestEntry → o = s.fld fMG_BOOT_JOURNAL1_OUTCOME 0 s.newestEntry →
        t.boot.prev = (k, o) ∧ (1 ≤ k → k ≤ 14 → o = 0 ∨ o = 2 → t.failCount k = min 3 (s.failCount k + 1)))

/-- START_STEP_COMPLETE, R361, R374: a step that ends well is journalled as done and the next begins; step 14 makes the device ready;
one that fails is journalled with what failed and waits for its watchdog. A refused image sends the start back to step 2. -/
def Claim.stepComplete : Prop :=
  ∀ (k : Nat) (r : StepReport) (s : State), s.stepRuns k = true → s.boot.alt = false → s.boot.instruct = none →
    s.boot.journalNext < 32 →
    (r.ok = false → ∃ t, exec (.startStepComplete k r) s = .next t ∧ t = { s with regs := t.regs } ∧
      t.fld fMG_BOOT_JOURNAL1_OUTCOME 0 s.newestEntry = 2 ∧ t.fld fMG_BOOT_JOURNAL1_UNIT 0 s.newestEntry = r.unit % 2 ^ 32 ∧
      t.fld fMG_START_STATUS_STEP = k) ∧
    (r.ok = true → k ∈ [2, 4, 6, 8, 9, 10, 11, 12, 13] → ∃ t, exec (.startStepComplete k r) s = .next t ∧
      t.fld fMG_BOOT_JOURNAL1_OUTCOME 0 s.newestEntry = 1 ∧ Claim.stepBegun s t (k + 1) s.boot.journalNext) ∧
    (r.ok = true → k = 3 → s.imageFails s.boot.image = 0 → ∃ t, exec (.startStepComplete k r) s = .next t ∧
      t.fld fMG_BOOT_JOURNAL1_OUTCOME 0 s.newestEntry = 1 ∧ Claim.stepBegun s t 4 s.boot.journalNext) ∧
    (r.ok = true → k = 3 → s.imageFails s.boot.image ≠ 0 → ∃ t, exec (.startStepComplete k r) s = .next t ∧
      t.boot.image = [] ∧ t.is fMG_START_STATUS_IMAGE_REFUSED = true ∧ Claim.stepBegun s t 2 s.boot.journalNext ∧
      (s.fld fMG_LEDGER_STATUS_UNREAD = 0 → Claim.logged s t 0x6002 unitInn 0)) ∧
    (r.ok = true → k = 7 → s.topologyFails s.defectUnion r.links r.routers = true →
      ∃ t, exec (.startStepComplete k r) s = .next t ∧ t.fld fMG_BOOT_JOURNAL1_OUTCOME 0 s.newestEntry = 2 ∧
        (s.fld fMG_LEDGER_STATUS_UNREAD = 0 → Claim.logged s t 0x6003 unitInn 6)) ∧
    (r.ok = true → k = 14 → ∃ t, exec (.startStepComplete k r) s = .next t ∧ t.ready = true ∧
      t.fld fMG_START_STATUS_STEP = 0 ∧ t.fld fMG_BOOT_FAILS_COUNTS = 0 ∧ t.boot.running = false ∧ t.core = {} ∧
      (s.fld fMG_LEDGER_MIRROR_BASE = 0 → t.mem = []) ∧ t.fld fMG_BOOT_JOURNAL1_OUTCOME 0 s.newestEntry = 1 ∧
      (s.fld fMG_LEDGER_STATUS_UNREAD = 0 → Claim.logged s t 0x6009 unitInn 0))

/-- START_STEP_WATCHDOG, R375: a step that has taken four times its time and at least 1 s ends the start by a whole-device reset, its
journal entry marked as failed. -/
def Claim.watchdog : Prop :=
  ∀ (done : Nat) (s : State), s.boot.running = true → s.fld fMG_START_STATUS_STATE = 0 → s.railsAwaited = false →
    s.boot.stepAt + 250000 * stepLimit (s.fld fMG_START_STATUS_STEP) ≤ s.now →
    ∃ t, exec (.startStepWatchdog done) s = .next t ∧ Claim.wiped s t ∧
      t.fld fMG_BOOT_JOURNAL1_OUTCOME 0 s.newestEntry = 2 ∧
      (s.fld fMG_START_STATUS_STEP ∈ [4, 6, 9, 10] → t.fld fMG_BOOT_PROGRESS_DONE = done % 2 ^ 48) ∧
      (s.fld fMG_LEDGER_STATUS_UNREAD = 0 → Claim.logged s t 0x6105 unitInn 6)

/-- BOOT_INSTRUCT, R375: retry, by the alternative where the host says so and there is one, or stay stopped. -/
def Claim.bootInstruct : Prop :=
  ∀ (what : Nat) (s : State), s.mg.ctrl = 0 → s.boot.running = true → s.fld fMG_START_STATUS_STATE = 2 →
    (what < 2 → s.boot.journalNext < 32 → ∃ t, exec (.bootInstruct what) s = .next t ∧ t.fld fMG_START_STATUS_STATE = 0 ∧
      t.fld fMG_START_STATUS_STEP = s.fld fMG_START_STATUS_STEP ∧
      t.boot.alt = (s.hasAlt (s.fld fMG_START_STATUS_STEP) && what == 1) ∧
      t.fld fMG_BOOT_JOURNAL1_STEP 0 s.boot.journalNext = s.fld fMG_START_STATUS_STEP ∧ t.pins.faultN = !s.pw.stopped) ∧
    (what = 2 → ∃ t, exec (.bootInstruct what) s = .next t ∧ t.fld fMG_START_STATUS_STATE = 3 ∧ t.pins.faultN = false ∧
      t.boot = s.boot)

/-- BURN_GENERATION, R372, Table 13.10: a burn that a whole-device reset meets leaves a generation that fails its CRC, and no
record. With the device ready and a generation free, the defects that OTP lacks are burnt into it, recorded as
0x600B; with none free nothing is burnt, and 0x600C is recorded. CLEAR_FAILURE_COUNTS, R375. -/
def Claim.burnAndClear : Prop :=
  (∀ (rq : Rq) (s : State), s.csRefusal rq (mgAddr 0x2000) true = none → s.ready = true →
    s.fld fMG_LEDGER_STATUS_UNREAD = 0 →
    (s.otp.gens.length < 4 → ∃ t g, exec (.burnGeneration rq 0 false) s = .next t ∧ t.otp = { s.otp with gens := s.otp.gens ++ [g] } ∧
      g.void = false ∧ g.crcOk = true ∧ g.start = s.fld fMG_START_STATUS_START_NUMBER ∧ g.entries.length ≤ 62 ∧
      (∀ e, e ∈ g.entries → ∃ w, w ∈ s.unburnt ∧ e = withSource w (s.otp.gens.length + 1)) ∧
      t.fld fMG_DEFECT_STATUS_GENS_USED = s.otp.gens.length + 1 ∧ Claim.logged s t 0x600B unitInn 0) ∧
    (s.otp.gens.length < 4 → ∃ t g, exec (.burnGeneration rq 0 true) s = .next t ∧
      t.otp = { s.otp with gens := s.otp.gens ++ [g] } ∧ g.crcOk = false ∧ t.integ = s.integ) ∧
    (4 ≤ s.otp.gens.length → ∃ t, exec (.burnGeneration rq 0 false) s = .next t ∧ t.otp = s.otp ∧
      t.is fMG_START_STATUS_OTP_EXHAUSTED = true ∧ Claim.logged s t 0x600C unitInn 0)) ∧
  (∀ (rq : Rq) (s : State), s.csRefusal rq (mgAddr 0x2000) true = none → ∃ t, exec (.clearFailureCounts rq) s = .next t ∧
    t = { s with regs := t.regs } ∧ t.fld fMG_BOOT_FAILS_COUNTS = 0 ∧ s.regsKept t [rkey rMG_BOOT_FAILS 0 0])

/-- Device resets. -/
def Obligations.StandbyRailsAndPinsResetTheDevice : Prop :=
  Claim.standby ∧ Claim.railsGoodAndLost ∧ Claim.resetPin ∧ Claim.wholeReset ∧ Claim.watchdog

/-- The start. -/
def Obligations.StartJournalsItsSteps : Prop :=
  Claim.startSequence ∧ Claim.stepComplete ∧ Claim.bootInstruct ∧ Claim.burnAndClear

/-- A boot transfer from a source is under way, with the controller running and an image wanted (R359). -/
def Claim.loading (s : State) (source : Nat) (x : Transfer) : Prop :=
  s.mg.ctrl = 0 ∧ s.wantsImage = true ∧ s.boot.transfer = some x ∧ x.source = source ∧ x.staged = false

/-- BOOT_REQUEST, R359 step 1: one on each selected source, every 1 s until an offer comes. IMAGE_OFFER, step 2: an offer of at most
384 KiB on a selected source begins a transfer, and a larger one is refused. -/
def Claim.bootRequestAndOffer : Prop :=
  (∀ s : State, s.wantsImage = true → s.boot.transfer = none →
    (s.boot.lastRequest = 0 ∨ s.boot.lastRequest + 250000000 ≤ s.now + 1) → ∃ t, exec .bootRequest s = .next t ∧
      t.boot = { s.boot with lastRequest := s.now + 1 } ∧ t.regs = s.regs ∧
      ∃ body, t.out = s.out ++ s.sources.map (fun x => ⟨.bootRequest, x, 1, body⟩)) ∧
  (∀ (source version size : Nat) (list : Bool) (s : State), s.mg.ctrl = 0 → s.wantsImage = true → source ∈ s.sources →
    (s.boot.transfer = none ∨ ∃ x, s.boot.transfer = some x ∧ x.source = source) →
    (size ≤ 393216 → ∃ t x, exec (.imageOffer none source version size list) s = .next t ∧
      t.boot = { s.boot with transfer := some x, lastSource := source } ∧ x.source = source ∧ x.staged = false ∧
      x.size = size ∧ x.list = list ∧ x.bytes = [] ∧ x.ahead = [] ∧ x.heard = s.now ∧ x.host = none ∧
      t.out = s.out ++ [⟨.reply, source, 2, [0]⟩] ∧ t.regs = s.regs) ∧
    (393216 < size → exec (.imageOffer none source version size list) s =
      .next (s.emit .refusalReply source 2 [source, size])))

/-- IMAGE_DATA, R359 step 3: the chunk that comes next joins the image, and the offset reached is acknowledged. DEFECT_LIST, R366,
R367: a list for this device, where the offer announced one, is kept; one for another is refused with 0x600E. -/
def Claim.imageParts : Prop :=
  (∀ (source : Nat) (bs : List (BitVec 8)) (x : Transfer) (s : State), Claim.loading s source x → x.ahead = [] →
    bs.length ≤ 1024 → x.bytes.length + bs.length ≤ x.size →
    ∃ t, exec (.imageData none source x.bytes.length bs) s = .next t ∧
      t.boot = { s.boot with transfer := some { x with bytes := x.bytes ++ bs, heard := s.now } } ∧ t.regs = s.regs ∧
      t.out = s.out ++ [⟨.reply, source, 4, [x.bytes.length + bs.length]⟩]) ∧
  (∀ (source : Nat) (p : HostList) (x : Transfer) (s : State), Claim.loading s source x → x.list = true →
    (p.serial = Config.serial.toNat → x.host = none → exec (.defectList none source p) s =
      .next { s with boot := { s.boot with transfer := some { x with host := some p, heard := s.now } } }) ∧
    (p.serial ≠ Config.serial.toNat → ∃ t, exec (.defectList none source p) s = .next t ∧ t.boot = s.boot ∧
      t.is fMG_START_STATUS_HOST_LIST_REFUSED = true ∧
      (s.fld fMG_LEDGER_STATUS_UNREAD = 0 → Claim.logged s t 0x600E unitInn 0)))

/-- IMAGE_END, R359, R360: an image that arrived whole and passes every check is accepted and kept; any other is refused with
0x6002, and the transfer ends. IMAGE_TRANSFER_TIMEOUT: a host silent for 60 s loses it. -/
def Claim.imageEnd : Prop :=
  (∀ (source : Nat) (x : Transfer) (s : State), Claim.loading s source x →
    (x.bytes.length = x.size → s.imageFails x.bytes = 0 → ∃ t, exec (.imageEnd none source) s = .next t ∧
      t.boot.image = x.bytes ∧ t.boot.transfer = none ∧ (⟨.imageVerdict, source, 0, []⟩ : Out) ∈ t.out) ∧
    (x.bytes.length = x.size → s.imageFails x.bytes ≠ 0 → ∃ t, exec (.imageEnd none source) s = .next t ∧
      t.boot.image = s.boot.image ∧ t.boot.transfer = none ∧ t.is fMG_START_STATUS_IMAGE_REFUSED = true ∧
      (⟨.imageVerdict, source, 2, [s.imageFails x.bytes]⟩ : Out) ∈ t.out ∧
      (s.fld fMG_LEDGER_STATUS_UNREAD = 0 → Claim.logged s t 0x6002 unitInn 0))) ∧
  (∀ (x : Transfer) (s : State), s.boot.transfer = some x → x.heard + 15000000000 ≤ s.now →
    exec .imageTransferTimeout s = .next { s with boot := { s.boot with transfer := none } })

/-- IMAGE_LOAD_OFFER, IMAGE_LOAD_DATA and IMAGE_LOAD_END, R466: the same over JTAG, 4 bytes at a time, its status shown: 1 accepted,
2 refused, 3 verified. Each selects the instruction, and what the status was leaves first. -/
def Claim.imageLoad : Prop :=
  ∀ s : State, s.pins.vstby = true → s.mg.ctrl = 0 →
    (∀ size, s.wantsImage = true → 3 ∈ s.sources → s.boot.transfer = none → ∃ t, exec (.imageLoadOffer size) s = .next t ∧
      t.pins = { s.pins with jtagIr := 0x10, loadStatus := if 393216 < size then 2 else 1 } ∧
      (size ≤ 393216 → ∃ x, t.boot.transfer = some x ∧ x.source = 3 ∧ x.size = size ∧ x.bytes = []) ∧
      (⟨.jtag, 0, 0x10, [s.pins.loadStatus]⟩ : Out) ∈ t.out) ∧
    (∀ (w : Nat) (x : Transfer), Claim.loading s 3 x →
      (∃ t, exec (.imageLoadData w false) s = .next t ∧ t.pins = { s.pins with jtagIr := 0x10, loadStatus := 1 } ∧
        t.boot = { s.boot with transfer := some { x with
          bytes := x.bytes ++ (leBytes 4 w).take (x.size - x.bytes.length), heard := s.now } }) ∧
      (∃ t, exec (.imageLoadData w true) s = .next t ∧ t.pins = { s.pins with jtagIr := 0x10 } ∧ t.boot = s.boot)) ∧
    (∀ x, Claim.loading s 3 x → x.bytes.length = x.size →
      (s.imageFails x.bytes = 0 → x.bytes ≠ [] → ∃ t, exec .imageLoadEnd s = .next t ∧ t.pins.loadStatus = 3 ∧
        t.boot.image = x.bytes ∧ t.boot.transfer = none) ∧
      (s.imageFails x.bytes ≠ 0 → s.boot.image = [] → ∃ t, exec .imageLoadEnd s = .next t ∧ t.pins.loadStatus = 2 ∧
        t.boot.transfer = none))

/-- The rows of boot images. -/
def Obligations.BootImagesAreCarriedAndJudged : Prop :=
  Claim.bootRequestAndOffer ∧ Claim.imageParts ∧ Claim.imageEnd ∧ Claim.imageLoad

/-! ### Core, cluster and lodging resets (chapter 13) -/

/-- CORE_RESET, R379: the slot's reset is under way and shown, its program state is gone, and a fenced slot stays fenced.
CORE_RESET_COMPLETE: the slot is idle, or is fenced if that fell due during the reset; event 0x6101. -/
def Claim.coreReset : Prop :=
  (∀ (rq : Rq) (c slot : Nat) (s : State), c < 48 → slot < 28 → s.csRefusal rq (clAddr c 0x180) true = none →
    s.slotHeld (28 * c + slot) = false → s.clusterHeld c = false → ∃ t, exec (.coreReset rq c slot) s = .next t ∧
      28 * c + slot ∈ t.rst.cores ∧ t.is fCL_RESET_STATUS_CORE_BUSY c = true ∧ t.reg rCO_FAULT (28 * c + slot) 0 = 0#64 ∧
      t.reg rCO_ME_STATUS (28 * c + slot) 0 = 3#64 ∧ (∀ k, k < 32 → t.sReg (28 * c + slot) k = 0#64) ∧
      t.fld fCO_CORE_STATUS_STATE (28 * c + slot) =
        if (s.fld fCL_ROW_SPARE_FENCED c).testBit slot then 5 else 6) ∧
  (∀ (u : Nat) (s : State), u < 1344 → u ∈ s.rst.cores → s.fld fMG_LEDGER_STATUS_UNREAD = 0 →
    (∀ x, x ∈ s.rst.fences → x.1 ≠ u) →
    ∃ t, exec (.coreResetComplete u) s = .next t ∧ t.rst = { s.rst with cores := s.rst.cores.filter (fun x => x != u) } ∧
      (t.is fCL_RESET_STATUS_CORE_BUSY (u / 28) = true ↔ ∃ x, x ∈ t.rst.cores ∧ x / 28 = u / 28) ∧
      t.fld fCO_CORE_STATUS_STATE u =
        (if s.fld fCO_CORE_STATUS_STATE u = 6 then 0 else s.fld fCO_CORE_STATUS_STATE u) ∧
      Claim.logged s t 0x6101 (unitCore u 0 0) 0) ∧
  (∀ (u why : Nat) (s : State), u < 1344 → u ∈ s.rst.cores → s.fld fMG_LEDGER_STATUS_UNREAD = 0 → s.rst.fences = [(u, why)] →
    s.resetHolds (u / 28) = false →
    ∃ t, exec (.coreResetComplete u) s = .next t ∧ (t.fld fCL_ROW_SPARE_FENCED (u / 28)).testBit (u % 28) = true ∧
      Claim.logged s t 0x6101 (unitCore u 0 0) 0)

/-- CLUSTER_RESET, R380, R383: the cluster's streams that run or are ready stop, and the reset is shown; a request while one is under
way merges with it. CLUSTER_RESET_COMPLETE: the slots are cleared, a scrub leaves every byte of the cluster 0, and the reset is
shown no more. -/
def Claim.clusterReset : Prop :=
  (∀ (rq : Rq) (c : Nat) (scrub : Bool) (s : State), c < 48 → s.csRefusal rq (clAddr c 0x180) true = none →
    (s.clusterHeld c = false → ∃ t, exec (.clusterReset rq c scrub) s = .next t ∧ (c, scrub) ∈ t.rst.clusters ∧
      t.is fCL_RESET_STATUS_CLUSTER_BUSY c = true ∧ t.is fCL_RESET_STATUS_SCRUBBING c = scrub ∧ (s.fld fMG_LEDGER_MIRROR_BASE = 0 → t.mem = s.mem) ∧
      (∀ u, u ∈ t.rst.cores → u / 28 ≠ c) ∧
      ∀ id, id < 65536 → s.fld fGL_STREAM7_HOME 0 id = c →
        (s.fld fGL_STREAM7_STATE 0 id = 2 ∨ s.fld fGL_STREAM7_STATE 0 id = 3) → t.fld fGL_STREAM7_STATE 0 id = 6) ∧
    (s.clusterHeld c = true → scrub = true → ∃ t, exec (.clusterReset rq c scrub) s = .next t ∧ t.clusterHeld c = true ∧
      t.is fCL_RESET_STATUS_SCRUBBING c = true ∧ ∀ p, p ∈ t.rst.clusters → p.1 = c → p.2 = true)) ∧
  (∀ (c : Nat) (s : State), c < 48 → s.clusterHeld c = true → nget s.pw.thermStop c = 0 → s.mg.acts = [] →
    s.integ.afterReset = [] → (∀ x, x ∈ s.rst.fences → inCluster c x.1 = false) → ∃ t, exec (.clusterResetComplete c) s = .next t ∧ t.clusterHeld c = false ∧
      t.is fCL_RESET_STATUS_CLUSTER_BUSY c = false ∧ t.is fCL_RESET_STATUS_SCRUBBING c = false ∧
      (∀ k, k < 28 → t.fld fCO_CORE_STATUS_STATE (28 * c + k) =
        if (s.fld fCL_ROW_SPARE_FENCED c).testBit k then 5 else 0) ∧
      ((c, true) ∈ s.rst.clusters → s.rst.notify = [] → s.fld fMG_LEDGER_MIRROR_BASE = 0 →
        ∀ a, inSpan (clWindow c) 0x10000000 (t.byteKey a) → t.rd a = 0#8) ∧
      (s.rst.notify = [] → s.fld fMG_LEDGER_STATUS_UNREAD = 0 → Claim.logged s t 0x6102 (unitCl c 0) 0))

/-- GL_LODGING_RESET, R381, LODGING_FREEZE_POINT, LODGING_RESET_SWEEP and LODGING_RESET_COMPLETE: an open lodging's reset begins and is
shown; it freezes after 200 µs; what is outstanding at 4 ms is swept, counted and recorded as 0x6104; at its end its streams are
stopped, its barriers cleared, and it is shown no more. -/
def Claim.lodgingReset : Prop :=
  (∀ (rq : Rq) (l : Nat) (scrub : Bool) (s : State), s.csRefusal rq (glAddr 0x600) true = none →
    s.is fGL_LODGING_CFG_OPEN 0 (l % 8) = true → s.resetPhase (l % 8) = none →
    ∃ t x, exec (.glLodgingResetStart rq l scrub) s = .next t ∧ t.resetPhase (l % 8) = some x ∧ x.phase = 0 ∧
      x.start = s.now ∧ (scrub = true → x.scrub = true) ∧ (t.fld fGL_RESET_STATUS_BUSY).testBit (l % 8) = true) ∧
  (∀ (l : Nat) (x : LodgingReset) (s : State), s.resetPhase l = some x →
    (x.phase = 0 → x.start + 50000 ≤ s.now → ∃ t, exec (.lodgingFreezePoint l) s = .next t ∧
      t.still = { s.still with rst := t.rst } ∧ t.resetPhase l = some { x with phase := 1 } ∧ t.lodgingFrozen 1 l = true ∧
      ∀ k a, 1 ≤ k / 65536 → k / 65536 ≤ 5 → a ∈ (t.ostler k).parked → a.lodging ≠ some l) ∧
    (x.phase = 1 → x.start + 1000000 ≤ s.now → ∃ t, exec (.lodgingResetSweep l) s = .next t ∧
      t.resetPhase l = some { x with phase := 2 } ∧ (∀ r, r ∈ t.net.resps → s.lodgingOf r.rq ≠ some l) ∧
      t.fld fGL_RESET_STATUS_SWEPT = min 65535 ((s.net.resps.filter (fun r => s.lodgingOf r.rq == some l)).length +
        (s.lodgingFlits l).length) ∧
      (∀ f, f ∈ t.net.flits → f.entry = none → f.op ≠ 0 → s.lodgingOf f.rq ≠ some l) ∧
      (((∃ r, r ∈ s.net.resps ∧ s.lodgingOf r.rq = some l) ∨ s.lodgingFlits l ≠ []) → s.fld fMG_LEDGER_STATUS_UNREAD = 0 →
        Claim.logged s t 0x6104 unitInn 4)) ∧
    (x.phase = 2 → l < 8 → (∀ c, c < 48 → s.ownerOf c = some l → nget s.pw.thermStop c = 0) → s.mg.acts = [] →
      s.integ.afterReset = [] → (∀ c x, x ∈ s.rst.fences → s.ownerOf c = some l → inCluster c x.1 = false) →
      ∃ t, exec (.lodgingResetComplete l) s = .next t ∧ t.resetPhase l = none ∧
        (t.fld fGL_RESET_STATUS_BUSY).testBit l = false ∧ t.fld fET_CKPT_STATUS_CAPTURES 0 l = 0 ∧
        t.fld fGL_RESET_STATUS_RESETS = (s.fld fGL_RESET_STATUS_RESETS + 1) % 65536 ∧
        (∀ id, id < 65536 → s.inRange l id = true → s.fld fGL_STREAM7_STATE 0 id ∈ [1, 2, 3] →
          t.fld fGL_STREAM7_STATE 0 id = 6) ∧
        (∀ b, b < 64 → s.ownsBarrier l b = true → t.fld fGL_BARRIER_COUNT 0 b = 0 ∧ t.fld fGL_BARRIER_EXPECTED 0 b = 0 ∧
          t.fld fGL_BARRIER_GENERATION 0 b = 0)))

/-- ABSORBED_RESPONSE, R378: the entry is free, the counts follow, and event 0x6106 records it. -/
def Claim.absorbed : Prop :=
  ∀ (id c : Nat) (s : State), c < 48 → s.net.absorb.find? (fun a => a.1 == id) = some (id, c) →
    s.fld fMG_LEDGER_STATUS_UNREAD = 0 → nget s.net.summed (256 * 0x6106 + c) ≠ s.now / 250000 + 1 →
    ∃ t, exec (.absorbedResponse id) s = .next t ∧
      t.net = { s.net with absorb := s.net.absorb.erase (id, c), summed := t.net.summed } ∧
      t.fld fCL_RESET_STATUS_IN_ABSORB c = s.fld fCL_RESET_STATUS_IN_ABSORB c - 1 ∧
      t.fld fCL_RESET_STATUS_ABSORBED c = (s.fld fCL_RESET_STATUS_ABSORBED c + 1) % 2 ^ 32 ∧
      Claim.logged s t 0x6106 (unitCl c 0) 1

/-- The rows of resets below the device. -/
def Obligations.ResetsBeginClearAndEnd : Prop :=
  Claim.coreReset ∧ Claim.clusterReset ∧ Claim.lodgingReset ∧ Claim.absorbed

/-! ### Messages (chapters 14 and 16) -/

/-- R434-R438: a message that is taken: the controller runs, the device is ready, the queue has room, the session exists, the MAC
is right, the sequence is new, and the session may send it for the lodging named. -/
def Claim.heard (s : State) (h : MsgHdr) (x : Session) (r : Role) (l : Option Nat) : Prop :=
  s.mg.ctrl = 0 ∧ h.wellFormed = true ∧ s.ready = true ∧ h.queueFull = false ∧ s.session h.session = some x ∧
    h.macOk = true ∧ x.seq < h.seq ∧ r.may x l = true

/-- R436: the reply to a message that was performed, or refused. -/
def Claim.replied (t : State) (h : MsgHdr) (type : Nat) (body : List Nat) : Prop :=
  (⟨.reply, h.session, type, [type, 0] ++ body⟩ : Out) ∈ t.out
def Claim.refusedReply (t : State) (h : MsgHdr) (type event reason : Nat) : Prop :=
  (⟨.reply, h.session, type, [type, resultOf 1 event reason]⟩ : Out) ∈ t.out

/-- What a lodging asks for that is granted to it: clusters, barriers, frames and sub-ports (R386, R390, R392). -/
def Claim.granted (t : State) (q : LodgingReq) (fs : List Nat) : Prop :=
  (∀ c, c < 48 → q.clusters.testBit c = true → t.ownerOf c = some q.l ∧ t.is fCL_OWNER_LEAVING c = false ∧
    (t.fld fGL_LODGING_CLUSTERS_CLUSTERS 0 q.l).testBit c = true) ∧
  (∀ b, b < 64 → q.barriers.testBit b = true → t.ownsBarrier q.l b = true) ∧ (∀ f, f ∈ fs → nget t.mg.frames f = 1 + q.l)

/-- LODGING_OPEN, R386, R390: with everything asked for free, the lodging is open with its ranges, mode and units, event 0x7006 is
recorded and the reply names its frames; with a unit taken it is refused with 0x7006. -/
def Claim.lodgingOpen : Prop :=
  ∀ (h : MsgHdr) (q : LodgingReq) (x : Session) (fs : List Nat) (s : State), Claim.heard s h x .owner none → s.mg.acts = [] →
    q.l < 8 → q.mode < 2 → s.lodgingOpen? q.l = false → s.fld fMG_LEDGER_STATUS_UNREAD = 0 →
    (s.unitsFree q = true → s.rangesFree q = true → fs = s.findFrames (s.wishOf q q.mode) q.frames → q.frames ≤ fs.length →
      ∃ t tag, exec (.lodgingOpen h q) s = .next t ∧ t.lodgingOpen? q.l = true ∧ t.fld fGL_LODGING_CFG_MODE 0 q.l = q.mode ∧
        t.fld fGL_LODGING_CFG_PORTS 0 q.l = q.ports % 2 ^ 32 ∧ t.fld fGL_LODGING_CFG_LEVELS 0 q.l = 0 ∧
        t.fld fGL_STREAM_RANGE_FIRST 0 q.l = q.streamFirst % 2 ^ 16 ∧ t.fld fGL_STREAM_RANGE_COUNT 0 q.l = q.streamCount % 2 ^ 17 ∧
        t.fld fGL_PT_REGION_FIRST 0 q.l = q.ptFirst % 2 ^ 24 ∧ t.fld fGL_PT_REGION_COUNT 0 q.l = q.ptCount % 2 ^ 25 ∧
        t.fld fSC_SLOT_RANGE_FIRST 0 q.l = q.keyFirst % 2 ^ 8 ∧ t.fld fSC_SLOT_RANGE_COUNT 0 q.l = q.keyCount % 2 ^ 9 ∧
        Claim.granted t q fs ∧ nget t.mg.hostKeys q.l = q.hostKeyHash ∧ Claim.logged s t 0x7006 unitInn 0 ∧
        Claim.replied t h 0x30 (tag :: fs)) ∧
    (s.unitsFree q = false → ∃ t, exec (.lodgingOpen h q) s = .next t ∧ t.lodgingOpen? q.l = false ∧
      (∀ c, t.ownerOf c = s.ownerOf c) ∧ t.mg.frames = s.mg.frames ∧ Claim.logged s t 0x7006 unitInn 4 ∧
      Claim.refusedReply t h 0x30 0x7006 0)

/-- LODGING_CHANGE, R391, R392: an addition is granted as an opening is, with event 0x7008; a removal marks the clusters as leaving
and starts the lodging's reset, and is answered after it. LODGING_CLOSE, R391, and LODGING_RESET do the same for all of it. -/
def Claim.lodgingChange : Prop :=
  ∀ (h : MsgHdr) (q : LodgingReq) (x : Session) (s : State), s.mg.acts = [] → q.l < 8 → s.lodgingOpen? q.l = true →
    (∀ fs, Claim.heard s h x .owner none → s.unitsFree q = true →
      fs = s.findFrames (s.wishOf q (s.fld fGL_LODGING_CFG_MODE 0 q.l)) q.frames → q.frames ≤ fs.length →
      s.fld fMG_LEDGER_STATUS_UNREAD = 0 → ∃ t, exec (.lodgingChange h q false) s = .next t ∧ Claim.granted t q fs ∧
        t.fld fGL_LODGING_CFG_PORTS 0 q.l = (s.fld fGL_LODGING_CFG_PORTS 0 q.l ||| q.ports) % 2 ^ 32 ∧
        Claim.logged s t 0x7008 unitInn 0 ∧ Claim.replied t h 0x31 fs) ∧
    (Claim.heard s h x .owner none → q.clusters ≠ 0 → q.clusters < 2 ^ 48 →
      (∀ c, c < 48 → q.clusters.testBit c = true → s.ownerOf c = some q.l) →
      ∃ t, exec (.lodgingChange h q true) s = .next t ∧
        (∀ c, c < 48 → q.clusters.testBit c = true → t.is fCL_OWNER_LEAVING c = true) ∧
        (t.resetPhase q.l).isSome = true ∧ ∃ a, a ∈ t.mg.acts ∧ a.kind = 4 ∧ a.req = q ∧ a.session = h.session) ∧
    (Claim.heard s h x .owner none → ∃ t, exec (.lodgingClose h q.l) s = .next t ∧
      (∀ c, c < 48 → (s.fld fGL_LODGING_CLUSTERS_CLUSTERS 0 q.l).testBit c = true → t.is fCL_OWNER_LEAVING c = true) ∧
      (∃ r, t.resetPhase q.l = some r ∧ r.scrub = true) ∧
      ∃ a, a ∈ t.mg.acts ∧ a.kind = 3 ∧ a.req.l = q.l ∧ a.session = h.session) ∧
    (∀ scrub, Claim.heard s h x .either (some q.l) → ∃ t, exec (.lodgingReset h q.l scrub) s = .next t ∧
      (t.resetPhase q.l).isSome = true ∧ ∃ a, a ∈ t.mg.acts ∧ a.kind = 5 ∧ a.req.l = q.l ∧ a.session = h.session)

/-- PAGE_MAP and FRAME_RETURN, R271, R273, R394: the entries are written, and no other byte of memory; frames returned are no longer
the lodging's and are kept from any other until their scrub. Both are answered after the invalidation. -/
def Claim.pages : Prop :=
  (∀ (h : MsgHdr) (l : Nat) (es : List PageEntry) (x : Session) (s : State), Claim.heard s h x .host (some l) → s.mg.acts = [] →
    es ≠ [] → es.length ≤ 160 → (es.map (fun e => e.page)).Nodup → (∀ e, e ∈ es → s.pageOk l e = true) →
    (∀ e, e ∈ es → s.pteAddr l e.page + 8 ≤ hbmSize) → ∃ t, exec (.pageMap h l es) s = .next t ∧
      (∀ e, e ∈ es → t.physNat (s.pteAddr l e.page) 8 = pteWord l e % 2 ^ 64) ∧
      s.bytesKept t (fun a => ∃ e, e ∈ es ∧ inSpan (s.pteAddr l e.page) 8 a) ∧
      ∃ v, v ∈ t.mg.invals ∧ v.l = l ∧ v.session = some (h.session, 0x34) ∧
        ∀ e, e ∈ es → v.first ≤ e.page ∧ e.page < v.first + v.pages) ∧
  (∀ (h : MsgHdr) (l : Nat) (fs : List Nat) (x : Session) (s : State), Claim.heard s h x .host (some l) → s.mg.acts = [] →
    fs ≠ [] → (∀ f, f ∈ fs → nget s.mg.frames f = 1 + l) → ∃ t, exec (.frameReturn h l fs) s = .next t ∧
      (∀ f, nget t.mg.frames f = if f ∈ fs then 9 else nget s.mg.frames f) ∧
      ∃ v, v ∈ t.mg.invals ∧ v.l = l ∧ v.pages = 0 ∧ v.session = some (h.session, 0x35))

/-- KEY_INSTALL, R401: into an empty slot of the lodging, with event 0x7003; else refused with its reason and event 0x7004. KEY_ERASE,
R402, with event 0x7005. -/
def Claim.keys : Prop :=
  (∀ (h : MsgHdr) (l k id dir wrapped : Nat) (x : Session) (s : State), Claim.heard s h x .host (some l) → s.mg.acts = [] →
    dir < 3 → l < 8 → k < 256 → s.fld fMG_LEDGER_STATUS_UNREAD = 0 →
    (∀ key, Config.unwrapKey (nget s.mg.sessionKeys l - 1) wrapped = some key → s.keyReason l k (some key) = 0 →
      ∃ t, exec (.keyInstall h l k id dir wrapped) s = .next t ∧ t.fld fSC_SLOT0_STATE 0 k = 1 ∧
        t.fld fSC_SLOT0_KEY_ID 0 k = id % 2 ^ 32 ∧ t.fld fSC_SLOT0_LODGING 0 k = l ∧ t.fld fSC_SLOT0_DIR 0 k = dir ∧
        t.fld fSC_SLOT1_INVOCATIONS 0 k = 0 ∧ nget t.mg.keys k = key ∧ (∀ j, j ≠ k → nget t.mg.keys j = nget s.mg.keys j) ∧
        Claim.logged s t 0x7003 unitInn 0 ∧ Claim.replied t h 0x22 []) ∧
    (∀ r, s.keyReason l k (Config.unwrapKey (nget s.mg.sessionKeys l - 1) wrapped) = r → r ≠ 0 →
      ∃ t, exec (.keyInstall h l k id dir wrapped) s = .next t ∧ t.is fSC_STATUS_KEY_REFUSED = true ∧ t.mg.keys = s.mg.keys ∧
        t.reg rSC_SLOT0 0 k = s.reg rSC_SLOT0 0 k ∧ Claim.logged s t 0x7004 unitInn 4 ∧
        Claim.refusedReply t h 0x22 0x7004 r)) ∧
  (∀ (h : MsgHdr) (l k : Nat) (x : Session) (s : State), Claim.heard s h x .host (some l) → k < 256 →
    s.fld fSC_SLOT_RANGE_FIRST 0 l ≤ k → k < s.fld fSC_SLOT_RANGE_FIRST 0 l + s.fld fSC_SLOT_RANGE_COUNT 0 l →
    s.fld fSC_SLOT0_STATE 0 k ≠ 0 → s.fld fMG_LEDGER_STATUS_UNREAD = 0 → ∃ t, exec (.keyErase h l k) s = .next t ∧
      t.fld fSC_SLOT0_STATE 0 k = 0 ∧ t.fld fSC_SLOT0_KEY_ID 0 k = 0 ∧ nget t.mg.keys k = 0 ∧
      (∀ j, j ≠ k → nget t.mg.keys j = nget s.mg.keys j) ∧ Claim.logged s t 0x7005 unitInn 0 ∧ Claim.replied t h 0x23 [])

/-- ATTEST_REQ, R398, R399: the report of Table 14.4, with the nonce, is answered and signed, with event 0x7002; a host's key draws a
session key for its lodging. -/
def Claim.attest : Prop :=
  ∀ (h : MsgHdr) (nonce : Nat) (m : Option (List (BitVec 8))) (x : Session) (s : State), Claim.heard s h x .either none →
    s.mg.acts = [] → s.is fSC_STATUS_IDENTITY_BAD = false → s.fld fMG_LEDGER_STATUS_UNREAD = 0 →
    ∃ t tail, exec (.attestReq h nonce m) s = .next t ∧ tail.length = 768 ∧
      Claim.replied t h 0x21 ((s.reportHead (if x.role = 0 then 0xFF else x.lodging) nonce
        ((m.map Config.sha256).getD 0)).map BitVec.toNat ++ tail) ∧
      (s.reportHead (if x.role = 0 then 0xFF else x.lodging) nonce ((m.map Config.sha256).getD 0)).length = 768 ∧
      Claim.logged s t 0x7002 unitInn 0 ∧
      (m.isSome = true → x.role = 1 → nget t.mg.sessionKeys x.lodging ≠ 0) ∧ (m = none → t.mg.sessionKeys = s.mg.sessionKeys)

/-- Lodgings and their pages. -/
def Obligations.LodgingsAreOpenedChangedAndClosed : Prop :=
  Claim.lodgingOpen ∧ Claim.lodgingChange ∧ Claim.pages

/-- Keys and attestation. -/
def Obligations.KeysAndAttestationAreGuarded : Prop :=
  Claim.keys ∧ Claim.attest

/-! ### Sessions, the ledger over the management port, settings, updates and the controller (chapter 16) -/

/-- ATTACH, R421, R435: an attachment that fails nothing and shares versions opens a session, and ends one that held the role; one
that fails is refused with 0x6204. DETACH and SESSION_TIMEOUT end a session with 0x6205. OWNER_BIND burns the key with 0x620A. -/
def Claim.sessions : Prop :=
  (∀ (h : MsgHdr) (mgmt : Bool) (role l key : Nat) (vers : List (List Nat)) (s : State), s.mg.ctrl = 0 → h.wellFormed = true →
    role < 2 → (s.ready = true ∨ role = 0) → h.queueFull = false →
    (∀ vs, s.attachFails mgmt role l key = 0 → s.chooseVersions role l vers = some vs →
      ∃ t x, exec (.attach h mgmt role l key vers) s = .next t ∧ x ∈ t.mg.sessions ∧ x.number = s.mg.nextSession ∧
        x.role = role ∧ (role = 1 → x.lodging = l) ∧ x.seq = 0 ∧ x.versions = vs ∧ x.lastValid = s.now ∧
        (∀ y, y ∈ t.mg.sessions → y.role = role → (role = 0 ∨ y.lodging = l) → y = x) ∧
        t.mg.nextSession = s.mg.nextSession + 1 ∧ ∃ o, o ∈ t.out ∧ o.kind = .reply ∧ o.dst = s.mg.nextSession ∧ o.code = 0x11) ∧
    (s.attachFails mgmt role l key ≠ 0 → s.fld fMG_LEDGER_STATUS_UNREAD = 0 →
      ∃ t, exec (.attach h mgmt role l key vers) s = .next t ∧ t.mg.sessions = s.mg.sessions ∧
        t.is fMG_STICKY3_ATTACH_REFUSED = true ∧ Claim.logged s t 0x6204 unitInn 4)) ∧
  (∀ (h : MsgHdr) (x : Session) (s : State), Claim.heard s h x .either none → s.fld fMG_LEDGER_STATUS_UNREAD = 0 →
    ∃ t, exec (.detach h) s = .next t ∧ t.session h.session = none ∧ Claim.replied t h 0x12 [] ∧
      Claim.logged s t 0x6205 unitInn 0) ∧
  (∀ (n : Nat) (x : Session) (s : State), s.session n = some x → s.mg.ctrl = 0 → x.lastValid + 15000000000 ≤ s.now →
    s.fld fMG_LEDGER_STATUS_UNREAD = 0 → ∃ t, exec (.sessionTimeout n) s = .next t ∧ t.session n = none ∧
      (∀ k, k ≠ n → t.session k = s.session k) ∧ Claim.logged s t 0x6205 unitInn 0) ∧
  (∀ (h : MsgHdr) (x : Session) (s : State), Claim.heard s h x .owner none →
    (s.otp.owners.length < 8 → s.fld fMG_LEDGER_STATUS_UNREAD = 0 → ∃ t, exec (.ownerBind h) s = .next t ∧
      t.otp = { s.otp with owners := s.otp.owners ++ [x.hostKey] } ∧ Claim.logged s t 0x620A unitInn 0 ∧
      Claim.replied t h 0x13 []) ∧
    (8 ≤ s.otp.owners.length → ∃ t, exec (.ownerBind h) s = .next t ∧ t.otp = s.otp ∧ Claim.refusedReply t h 0x13 0 0))

/-- LEDGER_READ, R439: the counts and up to 21 of the records a session may read are answered; nothing is freed unless the owner says
so. EVENT_PUSH_RETRY and EVENT_PUSH_ACK, R439. -/
def Claim.ledgerOverPort : Prop :=
  (∀ (h : MsgHdr) (w : Nat) (free : Bool) (x : Session) (s : State), Claim.heard s h x .either none →
    ∃ t, exec (.ledgerRead h w free) s = .next t ∧ t.integ = s.integ ∧ t.mem = s.mem ∧
      (⟨.reply, h.session, 0x41, [0x41, 0, s.fld fMG_LEDGER_STATUS_WRITTEN, s.fld fMG_LEDGER_STATUS_UNREAD,
        s.fld fMG_LEDGER_STATUS_OVERFLOWS] ++ ((s.readable x w).take 21).flatMap (fun r => (recBytes r.2).map BitVec.toNat)⟩ :
        Out) ∈ t.out ∧
      (free = false ∨ x.role ≠ 0 → t.regs = s.regs) ∧
      (∀ r, free = true → x.role = 0 → ((s.readable x w).take 21).getLast? = some r → 1 ≤ r.1 →
        r.1 - 1 ≤ s.fld fMG_LEDGER_STATUS_UNREAD → s.fld fMG_LEDGER_STATUS_UNREAD < 1024 →
        t.fld fMG_LEDGER_STATUS_UNREAD = r.1 - 1)) ∧
  (∀ (dst written : Nat) (p : Push) (s : State), s.mg.pushes.find? (fun p => p.dst == dst && p.written == written) = some p →
    s.mg.ctrl = 0 → p.last + 25000000 ≤ s.now →
    (p.resends < 3 → ∃ t, exec (.eventPushRetry dst written) s = .next t ∧ t.out = s.out ++ [⟨.push, dst, written, []⟩] ∧
      t.mg = { s.mg with pushes := s.mg.pushes.erase p ++ [{ p with resends := p.resends + 1, last := s.now }] } ∧
      t.regs = s.regs) ∧
    (3 ≤ p.resends → s.fld fMG_LEDGER_STATUS_UNREAD = 0 → ∃ t, exec (.eventPushRetry dst written) s = .next t ∧
      t.is fMG_STICKY0_PUSH_FAILED = true ∧ Claim.logged s t 0x6206 unitInn 4)) ∧
  (∀ (h : MsgHdr) (written : Nat) (x : Session) (s : State), s.mg.ctrl = 0 → h.wellFormed = true → s.ready = true →
    h.queueFull = false → s.session h.session = some x → h.macOk = true → ∃ t, exec (.eventPushAck h written) s = .next t ∧
      t.regs = s.regs ∧ t.out = s.out ∧ t.mg.pushes = s.mg.pushes.filter (fun p =>
        !(p.dst == (if x.role = 0 then 0 else 1 + x.lodging) && p.written == written)))

/-- DEFECT_READ, OTP_BURN, FW_MIN_RAISE, TELEMETRY_READ and DRESS_STATUS, R372, R397, R438. -/
def Claim.listsAndTelemetry : Prop :=
  (∀ (h : MsgHdr) (x : Session) (s : State), Claim.heard s h x .owner none →
    (∃ t, exec (.defectRead h) s = .next t ∧ Claim.replied t h 0x48 s.integ.defects ∧ t.regs = s.regs ∧ t.mem = s.mem) ∧
    (s.otp.gens.length < 4 → s.fld fMG_DEFECT_STATUS_GENS_USED = s.otp.gens.length → s.fld fMG_LEDGER_STATUS_UNREAD = 0 →
      ∃ t g, exec (.otpBurn h 0 false) s = .next t ∧ t.otp = { s.otp with gens := s.otp.gens ++ [g] } ∧
        Claim.logged s t 0x600B unitInn 0 ∧ Claim.replied t h 0x49 [s.otp.gens.length + 1]) ∧
    (∀ v, s.minVersion < v → v < 2 ^ 32 → s.otp.minVersions.length < 16 → ∃ t, exec (.fwMinRaise h v) s = .next t ∧
      t.otp = { s.otp with minVersions := s.otp.minVersions ++ [v] } ∧ t.minVersion = v ∧ Claim.replied t h 0x4A []) ∧
    (∀ v, v ≤ s.minVersion → s.fld fMG_LEDGER_STATUS_UNREAD = 0 → ∃ t, exec (.fwMinRaise h v) s = .next t ∧ t.otp = s.otp ∧
      Claim.logged s t 0x700C unitInn 4 ∧ Claim.refusedReply t h 0x4A 0x700C 0)) ∧
  (∀ (h : MsgHdr) (x : Session) (s : State), Claim.heard s h x .either none →
    (∃ t, exec (.telemetryRead h) s = .next t ∧ Claim.replied t h 0x52 s.telemetry ∧ t.regs = s.regs ∧ t.mem = s.mem) ∧
    (∃ t, exec (.dressStatus h) s = .next t ∧ Claim.replied t h 0x59 (s.dressBody x) ∧ t.regs = s.regs ∧ t.mem = s.mem))

/-- POWER_SET and SITE_SET, Table 16.4: registers of the two lists are written as an owner's register write would write them, and
answered; a list that names another is malformed, and changes nothing. -/
def Claim.settings : Prop :=
  ∀ (h : MsgHdr) (x : Session) (s : State), Claim.heard s h x .owner none →
    (∀ (w : Word), (fieldOf 0 12 w.toNat) ≤ min 2400 (s.fld fPW_CAP_PEAK_CAP) → 600 ≤ fieldOf 0 12 w.toNat →
      ∃ t, exec (.powerSet h [(rPW_CAP_SUSTAINED, 0, w)]) s = .next t ∧ t.fld fPW_CAP_SUSTAINED_CAP = fieldOf 0 12 w.toNat ∧
        s.regsKept t [rkey rPW_CAP_SUSTAINED 0 0] ∧ Claim.replied t h 0x50 []) ∧
    (∀ (w : Word), s.anyOpen = false → s.tmBusy = false → ∃ t, exec (.siteSet h [(rTM_SITE_NOW, 0, w)]) s = .next t ∧
      t.now = w.toNat ∧ Claim.replied t h 0x53 []) ∧
    (∀ ws, settingsOk powerRows ws = false → ∃ t, exec (.powerSet h ws) s = .next t ∧ t.regs = s.regs ∧
      (⟨.reply, h.session, 0x50, [0x50, resultOf 2 0 0]⟩ : Out) ∈ t.out) ∧
    (∀ ws, settingsOk siteRows ws = false → ∃ t, exec (.siteSet h ws) s = .next t ∧ t.regs = s.regs ∧
      (⟨.reply, h.session, 0x53, [0x53, resultOf 2 0 0]⟩ : Out) ∈ t.out)

/-- DRESS_LEASE and DRESS_LEASE_END, R445: a lease that is not refused is held; one that is over ends with 0x620B and its results. -/
def Claim.leases : Prop :=
  (∀ (h : MsgHdr) (c mask start length : Nat) (x : Session) (s : State),
    Claim.heard s h x .either (some ((s.ownerOf c).getD 0xFF)) → c < 48 → mask < 2 ^ 24 → length ≤ 2500000000 →
    (s.leaseRefused c mask start = false → ∃ t y, exec (.dressLease h c mask start length) s = .next t ∧ y ∈ t.mg.leases ∧
      y.c = c ∧ y.mask = mask ∧ y.start = start ∧ y.stop = start + length ∧ y.session = h.session ∧ y.results = []) ∧
    (s.leaseRefused c mask start = true → ∃ t, exec (.dressLease h c mask start length) s = .next t ∧ t.mg.leases = s.mg.leases ∧
      Claim.refusedReply t h 0x58 0 0)) ∧
  (∀ (c : Nat) (x : Lease) (s : State), s.mg.leases.find? (fun x => x.c == c && s.leaseOver x) = some x →
    s.fld fMG_LEDGER_STATUS_UNREAD = 0 → ∃ t, exec (.dressLeaseEnd c) s = .next t ∧ t.mg.leases = s.mg.leases.erase x ∧
      Claim.logged s t 0x620B unitInn 0 ∧ (⟨.reply, x.session, 0x58, [0x58, 0] ++ leaseResults x⟩ : Out) ∈ t.out)

/-- UPDATE_COMMIT and its execution, R444: with an image staged and no lodging open, or by force, the commit is set for its count;
at that count, event 0x6208, the image is copied with its mark, and the device is reset. -/
def Claim.update : Prop :=
  (∀ (h : MsgHdr) (count : Nat) (force : Bool) (x : Session) (s : State), Claim.heard s h x .owner none →
    (s.commitRefused force = false → ∃ t, exec (.updateCommit h count force) s = .next t ∧ t.mg.commitAt = some count ∧
      t.mg.staged = s.mg.staged ∧ t.regs = s.regs ∧ Claim.replied t h 0x6C []) ∧
    (s.commitRefused force = true → s.fld fMG_LEDGER_STATUS_UNREAD = 0 → ∃ t, exec (.updateCommit h count force) s = .next t ∧
      t.mg.commitAt = s.mg.commitAt ∧ Claim.logged s t 0x6209 unitInn 4 ∧ Claim.refusedReply t h 0x6C 0x6209 0)) ∧
  (∀ (n : Nat) (g : Staged) (intact : Bool) (s : State), s.mg.commitAt = some n → s.mg.staged = some g → s.mg.ctrl = 0 →
    n ≤ s.now → ∃ t, exec (.updateCommitExecute intact) s = .next t ∧ Claim.wiped s t ∧
      t.boot.commit = some (g.measure, imgMeasure t.boot.image) ∧ t.boot.image.length = g.bytes.length ∧
      (intact = true → t.boot.image = g.bytes) ∧ t.boot.host = g.host ∧
      (s.fld fMG_LEDGER_STATUS_UNREAD = 0 → Claim.logged s t 0x6208 unitInn 0))

/-- CONTROLLER_MISMATCH and CONTROLLER_RESUME, R432, R441: the first mismatch restarts the controller with 0x6201, a second within 1 s
stops it with 0x6202 and FAULT_N; it resumes from an image that passes its check, and stops otherwise. -/
def Claim.controller : Prop :=
  (∀ s : State, s.mg.ctrl ≠ 2 → s.fld fMG_LEDGER_STATUS_UNREAD = 0 →
    ((∀ n, s.mg.lastMismatch = some n → n + 250000000 ≤ s.now) → ∃ t, exec .controllerMismatch s = .next t ∧ t.mg.ctrl = 1 ∧
      t.mg.lastMismatch = some s.now ∧ t.is fMG_STICKY0_CTRL_RESTART = true ∧ Claim.logged s t 0x6201 unitInn 2) ∧
    ((∃ n, s.mg.lastMismatch = some n ∧ s.now < n + 250000000) → ∃ t, exec .controllerMismatch s = .next t ∧ t.mg.ctrl = 2 ∧
      t.is fMG_STICKY0_CTRL_STOPPED = true ∧ t.pins.faultN = false ∧ Claim.logged s t 0x6202 unitInn 6)) ∧
  (∀ s : State, s.mg.ctrl = 1 → exec (.controllerResume true) s = .next { s with mg := { s.mg with ctrl := 0 } } ∧
    (s.fld fMG_LEDGER_STATUS_UNREAD = 0 → ∃ t, exec (.controllerResume false) s = .next t ∧ t.mg.ctrl = 2 ∧
      t.pins.faultN = false ∧ Claim.logged s t 0x6202 unitInn 6))

/-- Sessions and what they read. -/
def Obligations.ManagementSessionsReadAndSettle : Prop :=
  Claim.sessions ∧ Claim.ledgerOverPort ∧ Claim.listsAndTelemetry

/-- Settings, leases, updates and the controller. -/
def Obligations.ManagementSetsLeasesAndUpdates : Prop :=
  Claim.settings ∧ Claim.leases ∧ Claim.update ∧ Claim.controller

/-! ### SMBus and JTAG (chapters 16 and 17) -/

/-- SMBUS_READ_BYTE, SMBUS_READ_WORD, SMBUS_WRITE and SMBUS_TIMEOUT, R440, R465: a read answers its value and the packet error code
over its bytes, a word's high byte is FFH for a byte value, a write's data byte is not acknowledged, and a hung transaction answers
nothing until its timeout. STATUS is driven by hardware. -/
def Claim.smbus : Prop :=
  (∀ (cmd : Nat) (s : State), s.pins.vstby = true → s.pins.smbusBusy = false →
    exec (.smbusReadByte cmd false) s = .next (s.emit .smbus 0x5C cmd
      [s.smbusValue cmd % 256, crc8 [0xB8, cmd, 0xB9, s.smbusValue cmd % 256]]) ∧
    (∃ hi, exec (.smbusReadWord cmd false) s = .next (s.emit .smbus 0x5C cmd
      [s.smbusValue cmd % 256, hi, crc8 [0xB8, cmd, 0xB9, s.smbusValue cmd % 256, hi]]) ∧
      hi = if smbusWord cmd then s.smbusValue cmd / 256 else 0xFF) ∧
    exec (.smbusWrite cmd false) s = .next (s.emit .smbus 0x5C cmd [1, 0]) ∧
    (∀ i, i ∈ [Instr.smbusReadByte cmd true, .smbusReadWord cmd true, .smbusWrite cmd true] →
      exec i s = .next { s with pins := { s.pins with smbusBusy := true } })) ∧
  (∀ s : State, s.pins.smbusBusy = true → exec .smbusTimeout s = .next { s with pins := { s.pins with smbusBusy := false } }) ∧
  (∀ s : State, s.smbusValue 0 % 2 = s.pins.pwrGood.toNat ∧ (s.smbusValue 0).testBit 1 = s.ready ∧
    (s.smbusValue 0).testBit 4 = !s.pins.thermtripN)

/-- EXTEST, SAMPLE_PRELOAD, IDCODE, CLAMP, HIGHZ, BYPASS and JTAG_TAP_RESET, R466, Table 17.9: each selects its instruction; EXTEST,
CLAMP and HIGHZ select BYPASS while PWR_GOOD is high; a scan of the cells shows the pins and loads the cells; IDCODE shows B1344C5BH;
a TAP reset selects IDCODE. -/
def Claim.jtag : Prop :=
  ∀ (cells : Nat) (s : State), s.pins.vstby = true →
    exec .idcode s = .next ({ s with pins := { s.pins with jtagIr := 2 } }.emit .jtag 0 2 [0xB1344C5B]) ∧
    exec .bypass s = .next { s with pins := { s.pins with jtagIr := 0xFF } } ∧
    exec .jtagTapReset s = .next { s with pins := { s.pins with jtagIr := 2 } } ∧
    exec .clamp s = .next { s with pins := { s.pins with jtagIr := if s.pins.pwrGood then 0xFF else 3 } } ∧
    exec .highz s = .next { s with pins := { s.pins with jtagIr := if s.pins.pwrGood then 0xFF else 4 } } ∧
    exec (.samplePreload cells) s =
      .next ({ s with pins := { s.pins with jtagIr := 1, boundary := cells % 4096 } }.emit .jtag 0 1 [s.pinWord]) ∧
    (s.pins.pwrGood = false → exec (.extest cells) s =
      .next ({ s with pins := { s.pins with jtagIr := 0, boundary := cells % 4096 } }.emit .jtag 0 0 [s.pinWord])) ∧
    (s.pins.pwrGood = true → exec (.extest cells) s = .next { s with pins := { s.pins with jtagIr := 0xFF } })

/-- The rows of SMBus and JTAG. -/
def Obligations.SmbusAndJtagAnswerByTheirTables : Prop := Claim.smbus ∧ Claim.jtag

/-! ### Connections, frames and packets (chapter 15) -/

/-- CONN_OPEN, CONN_CLOSE and ADDR_SET, R408, R410, R411. -/
def Claim.connections : Prop :=
  (∀ (h : MsgHdr) (l : Nat) (q : ConnReq) (x : Session) (s : State), Claim.heard s h x .host (some l) →
    connWellFormed q = true → s.fld fMG_LEDGER_STATUS_UNREAD = 0 →
    (s.connOk l q = true → ∃ t y, exec (.connOpen h l q) s = .next t ∧ t.conn l q.c = some y ∧ y.req = q ∧
      y.qp = s.ck.nextQp ∧ y.works = [] ∧ y.sendPsn = q.sendPsn % 2 ^ 24 ∧ y.recvPsn = q.recvPsn % 2 ^ 24 ∧
      t.reg rET_CONN_POST 0 (connIx l q.c) = 1#64 ∧ t.ck.nextQp = s.ck.nextQp + 1 ∧
      Claim.logged s t 0x8001 (unitPort q.port) 0 ∧ Claim.replied t h 0x38 [s.ck.nextQp]) ∧
    (s.connOk l q = false → ∃ t, exec (.connOpen h l q) s = .next t ∧ t.ck = s.ck ∧
      Claim.logged s t 0x8001 (unitPort q.port) 4 ∧ Claim.refusedReply t h 0x38 0x8001 0)) ∧
  (∀ (h : MsgHdr) (l c : Nat) (x : Session) (y : Conn) (s : State), Claim.heard s h x .host (some l) → s.conn l c = some y →
    s.ck.drains = [] → ∃ t, exec (.connClose h l c) s = .next t ∧ t.conn l c = none ∧
      (∀ l' c', (l', c') ≠ (l, c) → t.conn l' c' = s.conn l' c') ∧ s.regsKept t [rkey rET_CONN_POST 0 (connIx l c)] ∧
      t.reg rET_CONN_POST 0 (connIx l c) = 0#64 ∧ Claim.replied t h 0x39 []) ∧
  (∀ (h : MsgHdr) (port sub mac ip4 ip6 : Nat) (x : Session) (s : State), Claim.heard s h x .owner none → port < 8 → sub < 4 →
    ∃ t, exec (.addrSet h port sub mac ip4 ip6) s = .next t ∧ nget t.mg.macs (4 * port + sub) = mac % 2 ^ 48 ∧
      nget t.mg.ip4 (4 * port + sub) = ip4 % 2 ^ 32 ∧ nget t.mg.ip6 (4 * port + sub) = ip6 % 2 ^ 128 ∧ t.regs = s.regs ∧
      (∀ k, k ≠ 4 * port + sub → nget t.mg.macs k = nget s.mg.macs k) ∧ Claim.replied t h 0x3A [])

/-- A frame that is dropped and counted (R408). -/
def Claim.frameDropped (s t : State) (port : Nat) : Prop :=
  t = { s with regs := t.regs } ∧ t.fld fET_PORT_STATUS_DROPPED 0 port = min 65535 (s.fld fET_PORT_STATUS_DROPPED 0 port + 1) ∧
    s.regsKept t [rkey rET_PORT_STATUS 0 port]

/-- A frame that an answer would leave for waits while the sub-port's transmitter is held or frozen (log 50), and the boot source's port
drops every frame that is no management message until the device is ready (R358). FRAME_NOT_ACCEPTED, ARP_REQUEST, NEIGHBOR_SOLICITATION, PAUSE_FRAME and SUBPORT_LINK_CHANGE, R407, R408: an answer with the
sub-port's own MAC address, a pause of its priority's transmission, and a link's state with event 0x8008; anything else is dropped
and counted. -/
def Claim.frames : Prop :=
  ∀ (port sub : Nat) (s : State), s.subExists port sub = true →
    (∃ t, exec (.frameNotAccepted port sub) s = .next t ∧ Claim.frameDropped s t port) ∧
    (∀ ip, s.ready = true → ip ≠ 0 → nget s.mg.ip4 (4 * port + sub) = ip → s.txOpen port sub none = true →
      ∃ t, exec (.arpRequest port sub ip) s = .next t ∧
        t.still = (s.emit .packet (4 * port + sub) 10 [ip, nget s.mg.macs (4 * port + sub)]).still) ∧
    (∀ ip, nget s.mg.ip4 (4 * port + sub) ≠ ip → s.txOpen port sub none = true →
      ∃ t, exec (.arpRequest port sub ip) s = .next t ∧ Claim.frameDropped s t port) ∧
    (∀ ip, s.ready = true → ip ≠ 0 → nget s.mg.ip6 (4 * port + sub) = ip → s.txOpen port sub none = true →
      ∃ t, exec (.neighborSolicitation port sub ip) s = .next t ∧
        t.still = (s.emit .packet (4 * port + sub) 11 [ip, nget s.mg.macs (4 * port + sub)]).still) ∧
    (∀ ip, nget s.mg.ip6 (4 * port + sub) ≠ ip → s.txOpen port sub none = true →
      ∃ t, exec (.neighborSolicitation port sub ip) s = .next t ∧ Claim.frameDropped s t port) ∧
    (∀ prio on, s.ready = true → s.is fET_PORT_CFG_PFC_EN 0 port = true → s.fld fET_PORT_CFG_PFC_PRIO 0 port = prio →
      ∃ t, exec (.pauseFrame port sub prio on) s = .next t ∧ t.regs = s.regs ∧ t.ck.paused.contains (port, sub) = on ∧
        ∀ p, p ≠ (port, sub) → t.ck.paused.contains p = s.ck.paused.contains p) ∧
    (∀ prio on, s.is fET_PORT_CFG_PFC_EN 0 port = false ∨ s.fld fET_PORT_CFG_PFC_PRIO 0 port ≠ prio →
      ∃ t, exec (.pauseFrame port sub prio on) s = .next t ∧ Claim.frameDropped s t port) ∧
    (∀ up, (s.fld fET_PORT_STATUS_UP 0 port).testBit sub ≠ up → s.fld fMG_LEDGER_STATUS_UNREAD = 0 →
      ∃ t, exec (.subportLinkChange port sub up) s = .next t ∧ (t.fld fET_PORT_STATUS_UP 0 port).testBit sub = up ∧
        (up = false → t.is fET_PORT_STATUS_LINK_DROPPED 0 port = true) ∧ Claim.logged s t 0x8008 (unitPort port) 0) ∧
    ∀ ip, s.ready = false → s.txOpen port sub none = true →
      (∃ t, exec (.arpRequest port sub ip) s = .next t ∧ Claim.frameDropped s t port) ∧
      ∃ t, exec (.neighborSolicitation port sub ip) s = .next t ∧ Claim.frameDropped s t port

/-- R411-R413: a packet of a live connection that holds its receive key, with tag and protection header right, on a sub-port whose
transmitter can send its answer (log 50). -/
def Claim.taken (s : State) (p : Pkt) (x : Conn) : Prop :=
  s.conn p.l p.c = some x ∧ s.connLive x = true ∧ s.fld fSC_SLOT0_STATE 0 x.req.rxSlot ≠ 0 ∧ p.tagOk = true ∧ p.verOk = true ∧
    p.ce = false ∧ s.txOpen x.req.port x.req.sub (some x.l) = true

/-- What a connection is while it takes a request packet that comes in its sequence. -/
def Claim.here (x : Conn) : Conn := { x with nakked := false }

/-- A packet leaves under transmit slot k at invocation n, with the slot far from exhausted (R403, R412). -/
def Claim.sends (u : State) (x : Conn) (n : Nat) : Prop :=
  u.connLive x = true ∧ u.slotLoaded x.req.txSlot = true ∧ u.fld fSC_SLOT1_INVOCATIONS 0 x.req.txSlot = n ∧ n + 2 < 2 ^ 48
def Claim.sent (u t : State) (x : Conn) (n op : Nat) (header : List Nat) (payload : List (BitVec 8)) : Prop :=
  (⟨.packet, connIx x.l x.req.c, op,
    n :: (header ++ (Config.gcm (nget u.mg.keys x.req.txSlot) n payload).map BitVec.toNat)⟩ : Out) ∈ t.out ∧
    t.fld fSC_SLOT1_INVOCATIONS 0 x.req.txSlot = n + 1

/-- RDMA_WRITE, R414-R416: a message of one packet in its sequence, whose region takes its bytes, is written and acknowledged. A
region that refuses it draws a NAK, with event 0x8004, and nothing is written. -/
def Claim.rdmaWrite : Prop :=
  ∀ (p : Pkt) (x x' : Conn) (n : Nat) (u s : State), Claim.taken s p x → p.psn = x.recvPsn → p.first = true → p.last = true →
    p.payload.length = p.len → p.len ≤ x.req.mtu →
    ((s.putConn (Claim.here x)).regionFault (.host x.l x.req.port) x.l p.rkey p.addr p.len true = none →
      (s.putConn (Claim.here x)).regionWrite (.host x.l x.req.port) (p.rkey / 2 ^ 28) p.addr p.payload = (.ok (), u) →
      u.conn p.l p.c = some x' → Claim.sends u x' n →
      ∃ t y, exec (.rdmaWrite p) s = .next t ∧ t.mem = u.mem ∧ t.conn p.l p.c = some y ∧
        y.recvPsn = (x'.recvPsn + 1) % 2 ^ 24 ∧ y.incoming = none ∧ Claim.sent u t x' n 7 [p.psn] []) ∧
    (∀ e, (s.putConn (Claim.here x)).regionFault (.host x.l x.req.port) x.l p.rkey p.addr p.len true = some e →
      p.rkey / 2 ^ 28 ≠ 2 → Claim.sends s x n → s.fld fMG_LEDGER_STATUS_UNREAD = 0 →
      ∃ t, exec (.rdmaWrite p) s = .next t ∧ (s.fld fMG_LEDGER_MIRROR_BASE = 0 → t.mem = s.mem) ∧
        Claim.sent s t x n 8 [p.psn, e] [] ∧ Claim.logged s t 0x8004 (unitPort x.req.port) 4)

/-- RDMA_WRITE_WITH_IMMEDIATE, R416, R417: after the bytes the completion record is written and the packet is acknowledged. -/
def Claim.rdmaWriteImm : Prop :=
  ∀ (p : Pkt) (x x' : Conn) (n : Nat) (u v s : State), Claim.taken s p x → p.psn = x.recvPsn → p.first = true → p.last = true →
    p.payload.length = p.len → p.len ≤ x.req.mtu → rxFull x = false → s.completionHeld x.l = false →
    (s.putConn (Claim.here x)).regionFault (.host x.l x.req.port) x.l p.rkey p.addr p.len true = none →
    (s.putConn (Claim.here x)).regionWrite (.host x.l x.req.port) (p.rkey / 2 ^ 28) p.addr p.payload = (.ok (), u) →
    u.conn p.l p.c = some x' →
    u.writeAll (.host x'.l x'.req.port) (x'.req.cplRing + 16 * (x'.rxNext % 2 ^ x'.req.rxBits))
      (completionRecord (p.imm % 2 ^ 32) p.len x'.req.c 2 0xFFFFFFFF) = (.ok (), v) →
    v.conn p.l p.c = some x' → Claim.sends v x' n → x'.req.flagK < 4096 →
    ∃ t y, exec (.rdmaWriteWithImmediate p) s = .next t ∧ t.conn p.l p.c = some y ∧ y.recvPsn = (x'.recvPsn + 1) % 2 ^ 24 ∧
      y.rxNext = x'.rxNext + 1 ∧ y.rxUsed = x'.rxUsed + 1 ∧ Claim.sent v t x' n 7 [p.psn] [] ∧
      (v.owns x'.l x'.req.flagC = false → v.fld fMG_LEDGER_MIRROR_BASE = 0 → t.mem = v.mem)

/-- RDMA_READ, R414, R415: the bytes of the region are answered, and the sequence advances by the response's packets. -/
def Claim.rdmaRead : Prop :=
  ∀ (p : Pkt) (x x' : Conn) (n : Nat) (bs : List (BitVec 8)) (u s : State), Claim.taken s p x → p.psn = x.recvPsn →
    (s.putConn (Claim.here x)).regionFault (.host x.l x.req.port) x.l p.rkey p.addr p.len false = none →
    (s.putConn (Claim.here x)).regionRead (.host x.l x.req.port) (p.rkey / 2 ^ 28) p.addr p.len = (.ok bs, u) →
    u.conn p.l p.c = some x' → bs.length ≤ x'.req.mtu → Claim.sends u x' n →
    ∃ t y, exec (.rdmaRead p) s = .next t ∧ t.mem = u.mem ∧ t.conn p.l p.c = some y ∧
      y.recvPsn = (x'.recvPsn + packetCount x'.req.mtu p.len) % 2 ^ 24 ∧ Claim.sent u t x' n 6 [p.psn] bs

/-- SEND and SEND_WITH_IMMEDIATE, R417: the message goes into the next receive buffer, its completion record after it, and the packet
is acknowledged; with the ring full a receiver-not-ready NAK answers. -/
def Claim.send : Prop :=
  ∀ (p : Pkt) (x : Conn) (n imm op : Nat) (i : Instr) (s : State), Claim.taken s p x → p.psn = x.recvPsn → p.first = true →
    p.last = true → (i = .send p ∧ imm = 0 ∧ op = 4 ∨ i = .sendWithImmediate p ∧ imm = p.imm % 2 ^ 32 ∧ op = 5) →
    (∀ u v, rxFull x = false → p.payload.length ≤ x.req.rxSize → s.completionHeld x.l = false →
      (s.putConn (Claim.here x)).writeAll (.host x.l x.req.port)
        (x.req.rxRing + x.rxNext % 2 ^ x.req.rxBits * x.req.rxSize) p.payload = (.ok (), u) →
      u.writeAll (.host x.l x.req.port) (x.req.cplRing + 16 * (x.rxNext % 2 ^ x.req.rxBits))
        (completionRecord imm p.payload.length x.req.c op (x.rxNext % 2 ^ x.req.rxBits)) = (.ok (), v) →
      v.conn p.l p.c = some (Claim.here x) → Claim.sends v x n → x.req.flagK < 4096 →
      ∃ t y, exec i s = .next t ∧ t.conn p.l p.c = some y ∧ y.recvPsn = (x.recvPsn + 1) % 2 ^ 24 ∧
        y.rxNext = x.rxNext + 1 ∧ y.rxUsed = x.rxUsed + 1 ∧ Claim.sent v t x n 7 [p.psn] [] ∧
        (v.owns x.l x.req.flagC = false → v.fld fMG_LEDGER_MIRROR_BASE = 0 → t.mem = v.mem)) ∧
    (rxFull x = true → Claim.sends s x n → ∃ t, exec i s = .next t ∧ t.mem = s.mem ∧ Claim.sent s t x n 8 [p.psn, 0x20] [])

/-- UNSUPPORTED_OPERATION, R409, R415: an Invalid Request NAK, with event 0x8004. CNP and CNP_RATE_RECOVERY, R408. -/
def Claim.unsupportedAndCnp : Prop :=
  (∀ (p : Pkt) (x : Conn) (n : Nat) (s : State), Claim.taken s p x → p.psn = x.recvPsn → Claim.sends s x n →
    s.fld fMG_LEDGER_STATUS_UNREAD = 0 → ∃ t, exec (.unsupportedOperation p) s = .next t ∧
      (s.fld fMG_LEDGER_MIRROR_BASE = 0 → t.mem = s.mem) ∧ Claim.sent s t x n 8 [p.psn, 0x61] [] ∧
      Claim.logged s t 0x8004 (unitPort x.req.port) 4) ∧
  (∀ (p : Pkt) (x : Conn) (s : State), Claim.taken s p x →
    exec (.cnp p) s = .next (s.putConn { x with rate := max 1 (x.rate / 2), rateAt := s.now })) ∧
  (∀ (l c : Nat) (x : Conn) (s : State), s.conn l c = some x → x.rate < 64 → x.rateAt + 12500 ≤ s.now →
    exec (.cnpRateRecovery l c) s = .next (s.putConn { x with rate := x.rate + 1, rateAt := s.now }))

/-- Ports and connections. -/
def Obligations.PortsTakeFramesAndConnectionsOpen : Prop :=
  Claim.connections ∧ Claim.frames

/-- Received requests. -/
def Obligations.ConnectionsAnswerTheRequestsOfAPeer : Prop :=
  Claim.rdmaWrite ∧ Claim.rdmaWriteImm ∧ Claim.rdmaRead ∧ Claim.send ∧ Claim.unsupportedAndCnp

/-- SEND_RING_POST and RX_RING_FREE, R417, R418: a write of ET_CONN_POST of an open connection posts requests up to its TAIL and
frees buffers up to its RX_READ, which counts on past the ring's size or wraps with it (log 37), and changes no other register. -/
def Claim.connPost : Prop :=
  ∀ (rq : Rq) (l c : Nat) (w : Word) (x : Conn) (s : State), l < 8 → c < 1024 →
    s.csRoute rq (etAddr (0x100000 + 0x2000 * l + 8 * c)) = 0 → s.csHeld rq (etAddr (0x100000 + 0x2000 * l + 8 * c)) = false →
    s.csRefusal rq (etAddr (0x100000 + 0x2000 * l + 8 * c)) true = none → s.conn l c = some x →
    (s.fld fET_CONN_POST_STATE 0 (connIx l c) = 1 → fieldOf 16 16 w.toNat = s.fld fET_CONN_POST_RX_READ 0 (connIx l c) →
      s.tailBad x (fieldOf 32 16 w.toNat) = false →
      ∃ t, exec (.sendRingPost rq l c w) s = .next t ∧ t.fld fET_CONN_POST_TAIL 0 (connIx l c) = fieldOf 32 16 w.toNat ∧
        t.fld fET_CONN_POST_HEAD 0 (connIx l c) = s.fld fET_CONN_POST_HEAD 0 (connIx l c) ∧
        t.fld fET_CONN_POST_STATE 0 (connIx l c) = 1 ∧ s.regsKept t [rkey rET_CONN_POST 0 (connIx l c)] ∧ t.mem = s.mem) ∧
    (∀ k d m, fieldOf 32 16 w.toNat = s.fld fET_CONN_POST_TAIL 0 (connIx l c) → m = 2 ^ x.req.rxBits →
      d = (fieldOf 16 16 w.toNat + 65536 - s.fld fET_CONN_POST_RX_READ 0 (connIx l c)) % 65536 →
      (k = d ∨ (x.rxUsed < d ∧ k = (fieldOf 16 16 w.toNat % m + m - s.fld fET_CONN_POST_RX_READ 0 (connIx l c) % m) % m)) →
      k ≤ x.rxUsed →
      ∃ t y, exec (.rxRingFree rq l c w) s = .next t ∧ t.fld fET_CONN_POST_RX_READ 0 (connIx l c) = fieldOf 16 16 w.toNat ∧
        t.conn l c = some y ∧ y.rxUsed = x.rxUsed - k ∧ s.regsKept t [rkey rET_CONN_POST 0 (connIx l c)] ∧ t.mem = s.mem)

/-- An open connection whose next request, k, has been posted, on a sub-port whose transmitter is free, and reads from its ring; u is
the state that the read leaves (R418). -/
def Claim.ringReads (s u : State) (l c : Nat) (x : Conn) (k : Work) : Prop :=
  s.conn l c = some x ∧ s.connState x = 1 ∧ x.next ≠ s.fld fET_CONN_POST_TAIL 0 (connIx l c) ∧
    s.ck.paused.contains (x.req.port, x.req.sub) = false ∧ s.txOpen x.req.port x.req.sub (some x.l) = true ∧
    k.psn = x.sendPsn ∧ k.packets = packetCount x.req.mtu k.len ∧ k.got = 0 ∧ k.done = false ∧ u.conn l c = some x ∧
    ∃ bs, s.readMem (.host l x.req.port) (x.req.sendRing + 64 * x.next) 64 = (.ok bs, u) ∧ k.words = wordsOf 8 bs

/-- What a connection is once it has started request k. -/
def Claim.started (s : State) (x : Conn) (k : Work) : Conn :=
  { x with next := (x.next + 1) % 2 ^ x.req.sendBits, works := x.works ++ [k], sendPsn := (x.sendPsn + k.packets) % 2 ^ 24,
           sentAt := if x.works.all (fun y => y.done) then s.now else x.sentAt }

/-- WORK_REQUEST_START, R418, Table 15.5: a READ leaves as one packet; another operation as the bytes its words name, which v is the
state after reading; each takes its sequence numbers and its place. Words that are not well formed end at once, with event 0x8005.
R237: a first frame whose last byte does not come holds the transmitter (log 4: `stall`). -/
def Claim.workStart : Prop :=
  ∀ (l c : Nat) (x : Conn) (k : Work) (u s : State), Claim.ringReads s u l c x k → x.sendPsn < 2 ^ 24 → u.now = s.now →
    (∀ n, k.wellFormed c = true → k.push = false → mayStart x k = true → k.op = 3 → Claim.sends u x n →
      ∃ t, exec (.workRequestStart l c false) s = .next t ∧ t.conn l c = some (Claim.started s x k) ∧ t.mem = u.mem ∧
        Claim.sent u t x n 3 [x.sendPsn, k.w 3, k.rkey, k.len] []) ∧
    (∀ n bs v, k.wellFormed c = true → k.push = false → mayStart x k = true → k.op ≠ 3 →
      (u.putConn (Claim.started s x k)).readMem (.host l x.req.port) (k.w 2) k.len = (.ok bs, v) →
      v.conn l c = some (Claim.started s x k) → Claim.sends v x n → bs.length ≤ x.req.mtu →
      ∃ t, exec (.workRequestStart l c false) s = .next t ∧ t.conn l c = some (Claim.started s x k) ∧ t.mem = v.mem ∧
        Claim.sent v t x n k.op (workHeader k x.sendPsn 0) bs) ∧
    (k.wellFormed c = false → x.works = [] → u.fld fMG_LEDGER_STATUS_UNREAD = 0 → x.req.sendBits ≤ 16 →
      ∃ t y, exec (.workRequestStart l c false) s = .next t ∧ t.conn l c = some y ∧ y.works = [] ∧
        y.next = (x.next + 1) % 2 ^ x.req.sendBits ∧
        t.fld fET_CONN_POST_HEAD 0 (connIx l c) =
          (u.fld fET_CONN_POST_HEAD 0 (connIx l c) + 1) % 2 ^ x.req.sendBits ∧
        Claim.logged u t 0x8005 (unitPort x.req.port) 4) ∧
    (k.wellFormed c = true → k.push = false → mayStart x k = true → (u.ostler (txOstler x.req.port x.req.sub)).holds = [] →
      ∃ t h, exec (.workRequestStart l c true) s = .next t ∧ t.conn l c = some x ∧ t.regs = u.regs ∧ t.out = u.out ∧
        (t.ostler (txOstler x.req.port x.req.sub)).holds = [h] ∧ h.rq = .host x.l x.req.port ∧ h.op = x.req.c ∧
        t.txOpen x.req.port x.req.sub (some x.l) = false)

/-- ACKNOWLEDGEMENT and RDMA_READ_RESPONSE, R419, R420: the request that is acknowledged, or whose response has all arrived and been
written, completes: HEAD advances and its signal leaves. A remote access error ends the connection, with event 0x8002. -/
def Claim.acknowledged : Prop :=
  (∀ (p : Pkt) (x : Conn) (k : Work) (syn : Nat) (s : State), Claim.taken s p x → s.ck.drains = [] → x.req.sendBits ≤ 16 →
    (syn < 32 → x.works = [k] → k.done = false → k.op ≠ 3 → k.packets = 1 → k.psn < 2 ^ 24 → p.psn = k.psn →
      x.sendPsn = (k.psn + 1) % 2 ^ 24 → ∃ t y, exec (.acknowledgement p syn) s = .next t ∧ t.conn p.l p.c = some y ∧
        y.works = [] ∧ y.retries = 0 ∧ t.mem = s.mem ∧
        t.fld fET_CONN_POST_HEAD 0 (connIx p.l p.c) =
          (s.fld fET_CONN_POST_HEAD 0 (connIx p.l p.c) + 1) % 2 ^ x.req.sendBits ∧
        ((k.w 6).testBit 63 = false → t.net.signals = s.net.signals) ∧
        ((k.w 6).testBit 63 = true → ∃ g, t.net.signals = s.net.signals ++ [g] ∧ g.sem = semName (k.w 6) ∧
          g.amount = semAmount (k.w 6) ∧ g.waybill = k.way ∧ g.unit = unitPort x.req.port ∧ g.lodging = x.l ∧ g.pos = none)) ∧
    (syn = nakAccess → s.fld fMG_LEDGER_STATUS_UNREAD = 0 → ∃ t, exec (.acknowledgement p syn) s = .next t ∧
      t.fld fET_CONN_POST_STATE 0 (connIx p.l p.c) = 2 ∧ Claim.logged s t 0x8002 (unitPort x.req.port) 4)) ∧
  (∀ (p : Pkt) (x : Conn) (k : Work) (u s : State), Claim.taken s p x → x.works = [k] → k.done = false → k.op = 3 →
    p.psn = (k.psn + k.got / x.req.mtu) % 2 ^ 24 → p.payload.length = min x.req.mtu (k.len - k.got) →
    k.len ≤ k.got + p.payload.length → x.req.sendBits ≤ 16 →
    s.writeAll (.host x.l x.req.port) (k.w 2 + k.got) p.payload = (.ok (), u) → u.ck = s.ck →
    ∃ t y, exec (.rdmaReadResponse p) s = .next t ∧ t.mem = u.mem ∧ t.conn p.l p.c = some y ∧ y.works = [] ∧
      t.fld fET_CONN_POST_HEAD 0 (connIx p.l p.c) =
        (u.fld fET_CONN_POST_HEAD 0 (connIx p.l p.c) + 1) % 2 ^ x.req.sendBits)

/-- ACK_TIMEOUT, R411, R419: what is outstanding is sent again, until the retries are used up and the connection ends with 0x8002. -/
def Claim.ackTimeout : Prop :=
  ∀ (l c : Nat) (x : Conn) (k : Work) (s : State), s.conn l c = some x → s.connState x = 1 → s.ck.drains = [] →
    x.works = [k] → k.done = false → x.sentAt + 250 * x.req.timeout ≤ s.now →
    s.txOpen x.req.port x.req.sub (some x.l) = true →
    (∀ n, x.retries < x.req.retryMax → k.op = 3 → Claim.sends s x n → ∃ t y, exec (.ackTimeout l c) s = .next t ∧
      t.conn l c = some y ∧ y.retries = x.retries + 1 ∧ y.sentAt = s.now ∧ y.works = [k] ∧ t.mem = s.mem ∧
      Claim.sent s t x n 3 (workHeader k ((k.psn + k.got / x.req.mtu) % 2 ^ 24) k.got) []) ∧
    (x.req.retryMax ≤ x.retries → s.fld fMG_LEDGER_STATUS_UNREAD = 0 → ∃ t y, exec (.ackTimeout l c) s = .next t ∧
      t.fld fET_CONN_POST_STATE 0 (connIx l c) = 2 ∧ t.conn l c = some y ∧ y.works = [] ∧
      t.fld fET_CONN_POST_HEAD 0 (connIx l c) = s.fld fET_CONN_POST_TAIL 0 (connIx l c) ∧
      Claim.logged s t 0x8002 (unitPort x.req.port) 4)

/-! ### Checkpoints (chapter 15) -/

/-- R430: a record about a lodging's checkpoints names the port of its drain connection, or port 0. -/
def Claim.ckLogged (s t : State) (event outcome : Nat) : Prop := ∃ p, p < 8 ∧ Claim.logged s t event (unitPort p) outcome

/-- Every connection is of a port the device has. -/
def Claim.portsOk (s : State) : Prop := ∀ x, x ∈ s.ck.conns → x.req.port < 8

/-- CHECKPOINT_DUE, CHECKPOINT_CAPTURE and CAPTURE_LIMIT_EXPIRY, R422-R424: a capture that falls due, in the order of R330, is pending,
or skipped with 0x8011 while the last one drains; once the lodging is quiet the state is written into the buffer and the taking is
shown; past its limit it is abandoned, the streams held at their marks go on, and, where none was held, 0x8012 is the record (one that
goes on may be traced first). -/
def Claim.captures : Prop :=
  ∀ (l : Nat) (s : State), l < 8 → Claim.portsOk s →
    (∀ d, s.ckDue l = some d → s.actFirst 5 = true →
      (nget s.ck.phase l = 0 → ∃ t, exec (.checkpointDue l) s = .next t ∧ nget t.ck.phase l = 1 ∧ nget t.ck.dueAt l = d + 1 ∧
        t.is fET_CKPT_STATUS_PENDING 0 l = true ∧ t.mem = s.mem ∧ s.regsKept t [rkey rET_CKPT_STATUS 0 l]) ∧
      (nget s.ck.phase l = 3 → s.fld fMG_LEDGER_STATUS_UNREAD = 0 → ∃ t, exec (.checkpointDue l) s = .next t ∧
        nget t.ck.phase l = 3 ∧ nget t.ck.dueAt l = d + 1 ∧ t.is fET_CKPT_STATUS_SKIPPED 0 l = true ∧
        Claim.ckLogged s t 0x8011 0)) ∧
    (∀ u, nget s.ck.phase l = 1 → s.quiescent l = true → s.now + 1 ≤ nget s.ck.dueAt l + s.ckLimit l →
      s.writeAll (.host l (s.ckPort l)) (s.ckBuffer l (s.fld fET_CKPT_STATUS_CAPTURES 0 l)) (s.scheduleImage l) = (.ok (), u) →
      ∃ t, exec (.checkpointCapture l) s = .next t ∧ nget t.ck.phase l = 2 ∧ t.is fET_CKPT_STATUS_TAKING 0 l = true ∧
        t.is fET_CKPT_STATUS_PENDING 0 l = false ∧ t.mem = u.mem ∧ u.regsKept t [rkey rET_CKPT_STATUS 0 l]) ∧
    (nget s.ck.phase l = 1 → nget s.ck.dueAt l + s.ckLimit l ≤ s.now → ∃ t, exec (.captureLimitExpiry l) s = .next t ∧
      nget t.ck.phase l = 0 ∧ t.is fET_CKPT_STATUS_ABANDONED 0 l = true ∧ t.is fET_CKPT_STATUS_PENDING 0 l = false ∧
      (∀ id, id ∈ t.sq.held → s.streamLodging id ≠ l) ∧
      (s.fld fMG_LEDGER_STATUS_UNREAD = 0 → (∀ id, id ∈ s.sq.held → s.streamLodging id ≠ l) → Claim.ckLogged s t 0x8012 4))

/-- R425: the drain that a capture begins with, before anything of it has been read. -/
def Claim.newDrain (s : State) (l : Nat) : Drain :=
  let n := s.fld fET_CKPT_STATUS_CAPTURES 0 l
  { l := l, n := n, c := s.fld fET_CKPT_CFG1_CONN 0 l, buf := s.ckBuffer l n,
    remote := (if n % 2 = 0 then s.fld fET_CKPT_CFG5_REMOTE0 0 l else s.fld fET_CKPT_CFG6_REMOTE1 0 l),
    rkey := s.fld fET_CKPT_CFG7_RKEY 0 l, size := (s.imageSizes l).2.2, sent := 0, image := [], stage := 0, psn := 0 }

/-- R424, R425: the state in which the drain reads its first piece: the taking is over and recorded, the capture number and the buffer
have advanced, and the connection is reserved. -/
def Claim.drainReads (s : State) (l : Nat) : State :=
  let d := Claim.newDrain s l
  let w := (((s.put fET_CKPT_STATUS_TAKING 0 l 0).ckEvent l 0x8010 0 (leBytes 4 d.n)).put fET_CKPT_STATUS_CAPTURES 0 l
    (d.n + 1)).put fET_CKPT_STATUS_NEXT_BUFFER 0 l ((d.n + 1) % 2)
  let v := (w.setCkPhase l 3).put fET_CKPT_STATUS_DRAINING 0 l 1
  { v with ck := { v.ck with drains := v.ck.drains ++ [d] } }.put fET_CONN_POST_STATE 0 (connIx l d.c) 3

/-- CHECKPOINT_STATE_TAKEN, R424, R425: the capture number and the buffer advance, with event 0x8010, and the drain begins: on an OPEN
connection, which is reserved for it, its first piece is read from the buffer (u is the state after that) and sent; on a connection
that is not OPEN it has failed. No stream is held at its mark here; those that are go on first, and may be traced. -/
def Claim.stateTaken : Prop :=
  ∀ (l c n : Nat) (s : State), l < 8 → Claim.portsOk s → nget s.ck.phase l = 2 → s.fld fMG_LEDGER_STATUS_UNREAD = 0 →
    (∀ id, id ∈ s.sq.held → s.streamLodging id ≠ l) → c = s.fld fET_CKPT_CFG1_CONN 0 l → n = s.fld fET_CKPT_STATUS_CAPTURES 0 l →
    (∀ (x : Conn) (k : Nat) (bs : List (BitVec 8)) (u : State), s.conn l c = some x →
      s.fld fET_CONN_POST_STATE 0 (connIx l c) = 1 → s.txOpen x.req.port x.req.sub (some l) = true → s.ck.drains = [] →
      (Claim.drainReads s l).readMem (.host l x.req.port) (s.ckBuffer l n) (min 4096 ((s.imageSizes l).2.2 - 32)) = (.ok bs, u) →
      u.ck = (Claim.drainReads s l).ck → u.fld fET_CONN_POST_STATE 0 (connIx l c) = 3 → u.slotLoaded x.req.txSlot = true →
      u.fld fSC_SLOT1_INVOCATIONS 0 x.req.txSlot = k → k + 6 < 2 ^ 48 → 1024 ≤ x.req.mtu → bs.length ≤ 4096 →
      ∃ t d, exec (.checkpointStateTaken l) s = .next t ∧ nget t.ck.phase l = 3 ∧
        t.ck.drains = [d] ∧ d.l = l ∧ d.c = c ∧ d.n = n ∧ d.stage = 0 ∧ d.image = bs ∧ d.psn = (x.sendPsn +
          packetCount x.req.mtu bs.length + 2 ^ 24 - 1) % 2 ^ 24 ∧ t.mem = u.mem ∧
        t.fld fET_CONN_POST_STATE 0 (connIx l c) = u.fld fET_CONN_POST_STATE 0 (connIx l c) ∧
        t.fld fET_CKPT_STATUS_CAPTURES 0 l = u.fld fET_CKPT_STATUS_CAPTURES 0 l ∧
        ∃ o, o ∈ t.out ∧ o.kind = .packet ∧ o.dst = connIx l c ∧ o.code = 1) ∧
    (s.fld fET_CONN_POST_STATE 0 (connIx l c) ≠ 1 →
      ∃ t, exec (.checkpointStateTaken l) s = .next t ∧ nget t.ck.phase l = 0 ∧
        t.fld fET_CKPT_STATUS_CAPTURES 0 l = (n + 1) % 2 ^ 32 ∧ t.fld fET_CKPT_STATUS_NEXT_BUFFER 0 l = (n + 1) % 2 ∧
        t.is fET_CKPT_STATUS_TAKING 0 l = false ∧
        t.is fET_CKPT_STATUS_DRAIN_FAILED 0 l = true ∧ t.is fET_CKPT_STATUS_DRAINING 0 l = false ∧
        Claim.ckLogged s t 0x8010 0)

/-- RESUME and RESUME_COMPLETED, R428: an image that reads and passes every check is under way; one that fails is refused with its
reason and 0x8016; at the end each cluster's registers, semaphores and flags are the image's, and so are the floor and the next
capture's number. -/
def Claim.resume : Prop :=
  (∀ (rq : Rq) (l base r : Nat) (img : List (BitVec 8)) (u s : State), l < 8 → base < 2 ^ 40 → Claim.portsOk u →
    base % 65536 = 0 → s.csRefusal rq (etAddr (0x1300 + 16 * l)) true = none → s.fld fET_RESUME_STATUS_RESULT 0 l ≠ 1 →
    (s.put fET_RESUME0_BASE 0 l base).readImage l = (.ok img, u) → u.resumeReason l img = r →
    (r = 0 → ∃ t, exec (.resume rq l base) s = .next t ∧ t.fld fET_RESUME_STATUS_RESULT 0 l = 1 ∧
      t.fld fET_RESUME_STATUS_REASON 0 l = 0 ∧ t.mem = u.mem ∧ u.regsKept t [rkey rET_RESUME_STATUS 0 l]) ∧
    (r ≠ 0 → u.fld fMG_LEDGER_STATUS_UNREAD = 0 → ∃ t, exec (.resume rq l base) s = .next t ∧
      t.fld fET_RESUME_STATUS_RESULT 0 l = 3 ∧ t.fld fET_RESUME_STATUS_REASON 0 l = r ∧ Claim.ckLogged u t 0x8016 4)) ∧
  (∀ (l : Nat) (img : List (BitVec 8)) (u s : State), l < 8 → s.fld fET_RESUME_STATUS_RESULT 0 l = 1 →
    s.readImage l = (.ok img, u) → ∃ t, exec (.resumeCompleted l) s = .next t ∧
      t.fld fET_RESUME_STATUS_RESULT 0 l = 2 ∧ t.fld fET_MB_FLOOR_FLOOR 0 l = imgNat img 64 4 % 2 ^ 31 ∧
      t.fld fET_CKPT_STATUS_CAPTURES 0 l = (imgNat img 28 4 + 1) % 2 ^ 32 ∧
      t.fld fET_CKPT_STATUS_NEXT_BUFFER 0 l = (imgNat img 28 4 + 1) % 2 ∧
      ∀ c j, (u.clustersOf l)[j]? = some c →
        (∀ i, i < 16 → t.reg rSQ_Q c i = BitVec.ofNat 64 (imgNat img (256 + 20672 * j + 8 + 8 * i) 8)) ∧
        (∀ k, k < 256 → t.fld fCL_SEM_COUNT c k = imgNat img (256 + 20672 * j + 192 + 4 * k) 4 % 2 ^ fCL_SEM_COUNT.w) ∧
        (∀ k, k < 4096 → t.fld fCL_FLAG_VALUE c k = imgNat img (256 + 20672 * j + 4288 + 4 * k) 4 % 2 ^ fCL_FLAG_VALUE.w))

/-- Work requests. -/
def Obligations.WorkRequestsStartAndCompleteInOrder : Prop :=
  Claim.connPost ∧ Claim.workStart ∧ Claim.acknowledged ∧ Claim.ackTimeout

/-- Checkpoints. -/
def Obligations.CheckpointsAreTakenAndResumed : Prop :=
  Claim.captures ∧ Claim.stateTaken ∧ Claim.resume

/-- Fields whose Reset column gives a number other than 0: the control-space address (Table 0.6), the lowest bit, the width and
the value. -/
def Claim.resetColumn : List (Nat × Nat × Nat × Nat) :=
  [(0x0F0000000000, 16, 16, 0x1344), (0x0F0000000310, 0, 32, 100000), (0x0F0001001010, 48, 16, 10),
   (0x0F0001001010, 32, 16, 16), (0x0F0001001010, 16, 16, 10), (0x0F0001001010, 0, 8, 3), (0x0F0001001018, 48, 16, 24),
   (0x0F0001001018, 40, 8, 4), (0x0F0001001018, 32, 8, 30), (0x0F0001001018, 1, 3, 1), (0x0F0001001018, 0, 1, 1),
   (0x0F0001001020, 0, 16, 0xFFFF), (0x0F0001002010, 48, 16, 30), (0x0F0001002010, 40, 8, 4), (0x0F0001002010, 32, 4, 2),
   (0x0F0002000008, 48, 16, 1000), (0x0F0002000008, 40, 8, 100), (0x0F0002000008, 24, 8, 100), (0x0F0002000100, 32, 12, 1000),
   (0x0F0002000100, 12, 10, 550), (0x0F0002000138, 0, 12, 1300), (0x0F0002000200, 61, 3, 7), (0x0F0002000208, 0, 32, 50000),
   (0x0F0003000000, 0, 12, 2400), (0x0F0003000008, 0, 12, 2800), (0x0F0003000010, 0, 12, 1000), (0x0F0003000018, 32, 8, 100),
   (0x0F0003000018, 16, 16, 20), (0x0F0003000020, 2, 2, 1), (0x0F0003000020, 0, 2, 2), (0x0F0003000028, 48, 16, 36),
   (0x0F0003000028, 32, 16, 2), (0x0F0003000028, 0, 8, 40), (0x0F0003000500, 0, 8, 95), (0x0F0005000000, 5, 3, 3),
   (0x0F0005000000, 3, 1, 1), (0x0F0006000020, 0, 5, 1), (0x0F0006000028, 0, 16, 100), (0x0F0008000000, 32, 32, 65536),
   (0x0F0008000118, 0, 32, 0xFFFFFFFF), (0x0F0008000220, 0, 16, 16)]

/-- Reset leaves what the Reset columns say. -/
def Obligations.ResetLeavesTheResetColumns : Prop :=
  (∀ p ∈ Claim.resetColumn, ∃ r u i, csDecode p.1 = some (r, u, i) ∧
    fieldOf p.2.1 p.2.2.1 (State.reset.reg r u i).toNat = p.2.2.2) ∧
  State.reset.pending = [] ∧ State.reset.out = [] ∧ State.reset.mem = [] ∧ State.reset.canonical = true

/-- Every step keeps the canonical form of memory and of the registers. -/
def Obligations.EveryStepKeepsCanonicalForm : Prop :=
  ∀ s t : State, s.canonical = true → step s = .next t → t.canonical = true

/-- Every command answers a next state. -/
def Obligations.EveryCommandCompletes : Prop := ∀ (c : Instr) (s : State), ∃ t, exec c s = .next t

/-- The queue is the sender's alone. -/
def Obligations.NoCommandTouchesTheQueue : Prop :=
  (∀ (c : Instr) (s t : State), exec c s = .next t → t.pending = s.pending) ∧
  ∀ s t : State, step s = .next t → t.pending = s.pending.tail

/-- OTP only grows. -/
def Obligations.OtpOnlyGrows : Prop :=
  ∀ s t : State, step s = .next t →
    s.otp.gens <+: t.otp.gens ∧ s.otp.owners <+: t.otp.owners ∧ s.otp.minVersions <+: t.otp.minVersions

/-- Idling counts site time (log 2). -/
def Obligations.IdlingCountsSiteTime : Prop :=
  ∀ s : State, s.pending = [] → ∃ t, step s = .next t ∧
    (s.pins.vstby = false → t = s) ∧
    (s.pins.vstby = true → t.now = (s.now + 1) % 2 ^ 64 ∧ s.regsKept t [rkey rTM_SITE_NOW 0 0] ∧
      t = { s with regs := t.regs, pins := { s.pins with smbus := t.pins.smbus } })
end

