-- ==== Sys2Proof/Laws/Store.lean ====
section
/-! SUPPORT. Laws of the sparse store, of registers and their fields, and of memory: reading after writing, and the canonical
form that every write keeps. -/

namespace Sys2Proof.Machine

theorem mget_filter {V : Type} (d : Nat → V) (k j : Nat) (m : SMap V) :
    mget d (m.filter (fun p => p.1 != k)) j = if j = k then d j else mget d m j := by
  induction m with
  | nil => simp [mget]
  | cons p m ih =>
    obtain ⟨a, w⟩ := p
    by_cases h : a = k
    · subst h
      simp only [List.filter_cons, bne_self_eq_false, Bool.false_eq_true, if_false, ih, mget]
      by_cases h2 : j = a
      · simp [h2]
      · have : a ≠ j := fun e => h2 e.symm
        simp [h2, this]
    · have hb : (a != k) = true := by simp [h]
      simp only [List.filter_cons, hb, if_true, mget, ih]
      by_cases h2 : a = j
      · subst h2; simp [h]
      · simp [h2]

theorem mget_mplace {V : Type} (d : Nat → V) (m : SMap V) (k j : Nat) (v : V) :
    mget d (mplace m k v) j = if j = k then v else mget d m j := by
  induction m with
  | nil =>
    by_cases h : j = k
    · simp [mplace, mget, h]
    · simp [mplace, mget, h, Ne.symm h]
  | cons p m ih =>
    obtain ⟨a, w⟩ := p
    simp only [mplace]
    split
    · by_cases h : j = k
      · simp [mget, h]
      · simp [mget, h, Ne.symm h]
    · split
      · rename_i h1; subst h1
        by_cases h : j = k
        · simp [mget, h]
        · simp [mget, h, Ne.symm h]
      · rename_i h1 h2
        simp only [mget, ih]
        by_cases h : j = k
        · subst h; simp [Ne.symm h2]
        · simp [h]

/-- Reading after writing, whatever the form of the store. -/
theorem mget_mput {V : Type} [DecidableEq V] (d : Nat → V) (m : SMap V) (k j : Nat) (v : V) :
    mget d (mput d m k v) j = if j = k then v else mget d m j := by
  unfold mput
  split
  · rename_i h; rw [mget_filter]
    by_cases h2 : j = k
    · subst h2; simp [h]
    · simp [h2]
  · exact mget_mplace d m k j v

@[simp] theorem mget_mput_same {V : Type} [DecidableEq V] (d : Nat → V) (m : SMap V) (k : Nat) (v : V) :
    mget d (mput d m k v) k = v := by simp [mget_mput]

theorem mget_mput_ne {V : Type} [DecidableEq V] (d : Nat → V) (m : SMap V) {k j : Nat} (v : V) (h : j ≠ k) :
    mget d (mput d m k v) j = mget d m j := by simp [mget_mput, h]

@[simp] theorem mget_nil {V : Type} (d : Nat → V) (k : Nat) : mget d [] k = d k := rfl

/-! ### The canonical form -/

theorem mwfFrom_weaken {V : Type} [DecidableEq V] (d : Nat → V) {m : SMap V} {lo hi : Nat} (h : lo ≤ hi)
    (w : mwfFrom d hi m = true) : mwfFrom d lo m = true := by
  cases m with
  | nil => rfl
  | cons p m =>
    obtain ⟨a, v⟩ := p
    simp only [mwfFrom, Bool.and_eq_true, decide_eq_true_eq] at w ⊢
    exact ⟨⟨Nat.le_trans h w.1.1, w.1.2⟩, w.2⟩

theorem mwfFrom_filter {V : Type} [DecidableEq V] (d : Nat → V) (f : Nat × V → Bool) (m : SMap V) (lo : Nat)
    (w : mwfFrom d lo m = true) : mwfFrom d lo (m.filter f) = true := by
  induction m generalizing lo with
  | nil => rfl
  | cons p m ih =>
    obtain ⟨a, v⟩ := p
    simp only [mwfFrom, Bool.and_eq_true, decide_eq_true_eq] at w
    rw [List.filter_cons]
    split
    · simp only [mwfFrom, Bool.and_eq_true, decide_eq_true_eq]
      exact ⟨w.1, ih _ w.2⟩
    · exact mwfFrom_weaken d (Nat.le_succ_of_le w.1.1) (ih _ w.2)

theorem mwfFrom_mplace {V : Type} [DecidableEq V] (d : Nat → V) (m : SMap V) (lo k : Nat) (v : V) (hv : v ≠ d k)
    (hk : lo ≤ k) (w : mwfFrom d lo m = true) : mwfFrom d lo (mplace m k v) = true := by
  induction m generalizing lo with
  | nil => simp [mplace, mwfFrom, hv, hk]
  | cons p m ih =>
    obtain ⟨a, x⟩ := p
    simp only [mwfFrom, Bool.and_eq_true, decide_eq_true_eq] at w
    simp only [mplace]
    split
    · rename_i h
      simp only [mwfFrom, Bool.and_eq_true, decide_eq_true_eq]
      exact ⟨⟨hk, hv⟩, ⟨h, w.1.2⟩, w.2⟩
    · split
      · rename_i h; subst h
        simp only [mwfFrom, Bool.and_eq_true, decide_eq_true_eq]
        exact ⟨⟨hk, hv⟩, w.2⟩
      · rename_i h1 h2
        simp only [mwfFrom, Bool.and_eq_true, decide_eq_true_eq]
        exact ⟨w.1, ih _ (by omega) w.2⟩

/-- Every write keeps the canonical form. -/
theorem mwf_mput {V : Type} [DecidableEq V] (d : Nat → V) (m : SMap V) (k : Nat) (v : V) (w : mwf d m = true) :
    mwf d (mput d m k v) = true := by
  unfold mput
  split
  · exact mwfFrom_filter d _ m 0 w
  · rename_i h; exact mwfFrom_mplace d m 0 k v h (Nat.zero_le k) w

theorem mwf_filter {V : Type} [DecidableEq V] (d : Nat → V) (f : Nat × V → Bool) (m : SMap V) (w : mwf d m = true) :
    mwf d (m.filter f) = true := mwfFrom_filter d f m 0 w

@[simp] theorem mwf_nil {V : Type} [DecidableEq V] (d : Nat → V) : mwf d ([] : SMap V) = true := rfl

theorem nget_nput (m : SMap Nat) (k j v : Nat) : nget (nput m k v) j = if j = k then v else nget m j :=
  mget_mput zeroN m k j v

@[simp] theorem nget_nput_same (m : SMap Nat) (k v : Nat) : nget (nput m k v) k = v := by simp [nget_nput]

/-! ### Memory -/

@[simp] theorem State.wr_regs (s : State) (a : Nat) (b : BitVec 8) : (s.wr a b).regs = s.regs := rfl

@[simp] theorem State.wr_byteKey (s : State) (a : Nat) (b : BitVec 8) (x : Nat) : (s.wr a b).byteKey x = s.byteKey x := rfl

/-- A byte written is read, and every byte at another key is as before. -/
theorem State.rd_wr (s : State) (a x : Nat) (b : BitVec 8) :
    (s.wr a b).rd x = if s.byteKey x = s.byteKey a then b else s.rd x := by
  exact mget_mput zeroB s.mem _ _ b

theorem State.wr_wf (s : State) (a : Nat) (b : BitVec 8) (h : Memory.wf s.mem = true) : Memory.wf (s.wr a b).mem = true :=
  mwf_mput zeroB s.mem _ b h

theorem State.physWrite_wf (l : List (BitVec 8)) : ∀ (s : State) (a : Nat), Memory.wf s.mem = true →
    Memory.wf (s.physWrite a l).mem = true := by
  induction l with
  | nil => intro s a h; exact h
  | cons b l ih => intro s a h; exact ih _ _ (State.wr_wf s a b h)

@[simp] theorem State.physWrite_regs (l : List (BitVec 8)) : ∀ (s : State) (a : Nat), (s.physWrite a l).regs = s.regs := by
  induction l with
  | nil => intro s a; rfl
  | cons b l ih => intro s a; exact ih _ _

/-- The reset memory is canonical. -/
theorem reset_mem_wf : Memory.wf State.reset.mem = true := rfl

/-! ### Registers and fields -/

theorem State.reg_setReg (s : State) (r u i r' u' i' : Nat) (w : BitVec 64) :
    (s.setReg r u i w).reg r' u' i' = if rkey r' u' i' = rkey r u i then w else s.reg r' u' i' :=
  mget_mput regReset s.regs _ _ w

@[simp] theorem State.reg_setReg_same (s : State) (r u i : Nat) (w : BitVec 64) : (s.setReg r u i w).reg r u i = w := by
  simp [State.reg_setReg]

theorem withField_eq (lo w x v : Nat) :
    withField lo w x v = x / 2 ^ (lo + w) * 2 ^ (lo + w) + (v % 2 ^ w) * 2 ^ lo + x % 2 ^ lo := by
  unfold withField fieldOf
  simp only [Nat.shiftLeft_eq, Nat.shiftRight_eq_div_pow]
  have h1 : x / 2 ^ (lo + w) = x / 2 ^ lo / 2 ^ w := by rw [Nat.pow_add, Nat.div_div_eq_div_mul]
  have h2 := Nat.div_add_mod x (2 ^ lo)
  have h3 := Nat.div_add_mod (x / 2 ^ lo) (2 ^ w)
  generalize hq : x / 2 ^ lo / 2 ^ w = q at *
  generalize hb : x / 2 ^ lo % 2 ^ w = b at *
  generalize hc : x % 2 ^ lo = c at *
  rw [h1, ← h2, ← h3, Nat.pow_add]
  have e : 2 ^ lo * (2 ^ w * q + b) = q * (2 ^ lo * 2 ^ w) + b * 2 ^ lo := by
    rw [Nat.mul_add, Nat.mul_comm q, Nat.mul_assoc, Nat.mul_comm b]
  omega

/-- The three parts of a word with a field replaced, from the lowest up. -/
theorem fieldParts (lo w q v c : Nat) :
    q * 2 ^ (lo + w) + v * 2 ^ lo + c = 2 ^ lo * (2 ^ w * q + v) + c := by
  rw [Nat.pow_add, Nat.mul_add, Nat.mul_comm v, Nat.mul_comm q, Nat.mul_assoc]

theorem fieldOf_withField_same (lo w x v : Nat) : fieldOf lo w (withField lo w x v) = v % 2 ^ w := by
  rw [withField_eq]
  unfold fieldOf
  rw [Nat.shiftRight_eq_div_pow]
  have hc : x % 2 ^ lo < 2 ^ lo := Nat.mod_lt _ (Nat.two_pow_pos lo)
  rw [fieldParts, Nat.mul_add_div (Nat.two_pow_pos lo), Nat.div_eq_of_lt hc, Nat.add_zero, Nat.mul_add_mod, Nat.mod_mod]

/-- A field that lies apart is as before. -/
theorem fieldOf_withField_apart (lo w lo' w' x v : Nat) (h : lo + w ≤ lo' ∨ lo' + w' ≤ lo) :
    fieldOf lo' w' (withField lo w x v) = fieldOf lo' w' x := by
  apply Nat.eq_of_testBit_eq
  intro i
  have bit : ∀ j, (j < lo ∨ lo + w ≤ j) → (withField lo w x v).testBit j = x.testBit j := by
    intro j hj
    rw [withField_eq]
    have hv : v % 2 ^ w < 2 ^ w := Nat.mod_lt _ (Nat.two_pow_pos w)
    have hc : x % 2 ^ lo < 2 ^ lo := Nat.mod_lt _ (Nat.two_pow_pos lo)
    rw [fieldParts, Nat.testBit_two_pow_mul_add _ hc, Nat.testBit_two_pow_mul_add _ hv]
    rcases hj with hj | hj
    · simp [hj, Nat.testBit_mod_two_pow]
    · have a1 : ¬ j < lo := by omega
      have a2 : ¬ j - lo < w := by omega
      simp only [a1, a2, if_false, Nat.testBit_div_two_pow]
      congr 1; omega
  unfold fieldOf
  simp only [Nat.testBit_mod_two_pow, Nat.testBit_shiftRight]
  by_cases hi : i < w'
  · rw [bit]; omega
  · simp [hi]

theorem withField_lt {lo w x v n : Nat} (h : lo + w ≤ n) (hx : x < 2 ^ n) : withField lo w x v < 2 ^ n := by
  rw [withField_eq]
  have hv : v % 2 ^ w < 2 ^ w := Nat.mod_lt _ (Nat.two_pow_pos w)
  have hc : x % 2 ^ lo < 2 ^ lo := Nat.mod_lt _ (Nat.two_pow_pos lo)
  obtain ⟨k, rfl⟩ := Nat.exists_eq_add_of_le h
  have hq : x / 2 ^ (lo + w) < 2 ^ k := by
    rw [Nat.div_lt_iff_lt_mul (Nat.two_pow_pos _), ← Nat.pow_add, Nat.add_comm k]; exact hx
  have e1 : v % 2 ^ w * 2 ^ lo + x % 2 ^ lo < 2 ^ (lo + w) := by
    have : (v % 2 ^ w + 1) * 2 ^ lo ≤ 2 ^ w * 2 ^ lo := Nat.mul_le_mul_right _ hv
    rw [Nat.add_mul, Nat.one_mul] at this
    rw [Nat.pow_add, Nat.mul_comm (2 ^ lo)]; omega
  have e2 : (x / 2 ^ (lo + w) + 1) * 2 ^ (lo + w) ≤ 2 ^ k * 2 ^ (lo + w) := Nat.mul_le_mul_right _ hq
  rw [Nat.add_mul, Nat.one_mul] at e2
  rw [Nat.pow_add 2 (lo + w) k, Nat.mul_comm (2 ^ (lo + w)) (2 ^ k)]; omega

/-- A field written holds the value, modulo its width. -/
theorem State.fld_put_same (s : State) (f : Fld) (u i v : Nat) (h : f.lo + f.w ≤ 64) :
    (s.put f u i v).fld f u i = v % 2 ^ f.w := by
  unfold State.fld State.put
  rw [State.reg_setReg_same, BitVec.toNat_ofNat, Nat.mod_eq_of_lt (withField_lt h (BitVec.isLt _)), fieldOf_withField_same]

/-- A field of another register word is as before. -/
theorem State.fld_put_key (s : State) (f g : Fld) (u i u' i' v : Nat) (h : rkey g.reg u' i' ≠ rkey f.reg u i) :
    (s.put f u i v).fld g u' i' = s.fld g u' i' := by
  unfold State.fld State.put
  rw [State.reg_setReg, if_neg h]

/-- A field of the same word that lies apart is as before. -/
theorem State.fld_put_apart (s : State) (f g : Fld) (u i v : Nat) (hr : g.reg = f.reg) (h : f.lo + f.w ≤ 64)
    (ha : f.lo + f.w ≤ g.lo ∨ g.lo + g.w ≤ f.lo) : (s.put f u i v).fld g u i = s.fld g u i := by
  unfold State.fld State.put
  rw [hr, State.reg_setReg_same, BitVec.toNat_ofNat, Nat.mod_eq_of_lt (withField_lt h (BitVec.isLt _)),
    fieldOf_withField_apart _ _ _ _ _ _ ha]

theorem fieldOf_lt (lo w x : Nat) : fieldOf lo w x < 2 ^ w := Nat.mod_lt _ (Nat.two_pow_pos w)

end Sys2Proof.Machine
end

