-- ==== Sys2Proof/Laws/Keeps.lean ====
section
/-! SUPPORT. What no operation does: change the commands that wait, leave the canonical form of memory and registers, or take
anything out of OTP (13_bring_up_and_reset.md R371, R372). One lemma for each operation, in the order of the model's files. -/

namespace Sys2Proof.Machine

/-- The queue is unchanged, memory and registers stay in canonical form, and OTP has lost nothing. -/
structure Keeps (s t : State) : Prop where
  pending : t.pending = s.pending
  mem : Memory.wf s.mem = true → Memory.wf t.mem = true
  regs : mwf regReset s.regs = true → mwf regReset t.regs = true
  gens : s.otp.gens <+: t.otp.gens
  owners : s.otp.owners <+: t.otp.owners
  minVersions : s.otp.minVersions <+: t.otp.minVersions

theorem Keeps.refl (s : State) : Keeps s s := ⟨rfl, id, id, List.prefix_refl _, List.prefix_refl _, List.prefix_refl _⟩

/-- An update of fields that these are not. -/
@[simp] theorem keeps_mk {r s : State} (sh core ms sq net hbm integ tm pw mg boot rst ck rt pins out fresh) (h : Keeps r s) :
    Keeps r (State.mk s.pending s.regs sh s.mem core ms sq net hbm integ tm pw mg s.otp boot rst ck rt pins out fresh) :=
  ⟨h.pending, h.mem, h.regs, h.gens, h.owners, h.minVersions⟩

@[simp] theorem keeps_setReg {r s : State} (a u i : Nat) (w : BitVec 64) (h : Keeps r s) : Keeps r (s.setReg a u i w) := by
  unfold State.setReg
  exact ⟨h.pending, h.mem, fun x => mwf_mput regReset s.regs (rkey a u i) w (h.regs x), h.gens, h.owners, h.minVersions⟩

@[simp] theorem keeps_wr {r s : State} (a : Nat) (b : BitVec 8) (h : Keeps r s) : Keeps r (s.wr a b) :=
  ⟨h.pending, fun x => State.wr_wf s a b (h.mem x), h.regs, h.gens, h.owners, h.minVersions⟩

@[simp] theorem keeps_when {r s : State} (b : Bool) (f : State → State) (h : Keeps r s) (hf : ∀ t, Keeps r t → Keeps r (f t)) :
    Keeps r (s.when b f) := by
  unfold State.when; split
  · exact hf s h
  · exact h

@[simp] theorem keeps_forEach {A : Type} {r : State} (l : List A) (f : A → State → State)
    (hf : ∀ a t, Keeps r t → Keeps r (f a t)) (s : State) (h : Keeps r s) : Keeps r (s.forEach l f) := by
  unfold State.forEach
  induction l generalizing s with
  | nil => exact h
  | cons a l ih => exact ih _ (hf a s h)

/-- A fold whose every step keeps. -/
@[simp] theorem keeps_foldl {A : Type} {r : State} (l : List A) (f : State → A → State)
    (hf : ∀ t a, Keeps r t → Keeps r (f t a)) (s : State) (h : Keeps r s) : Keeps r (l.foldl f s) := by
  induction l generalizing s with
  | nil => exact h
  | cons a l ih => exact ih _ (hf s a h)

@[simp] theorem keeps_ite {r s t : State} (c : Prop) [Decidable c] (hs : Keeps r s) (ht : Keeps r t) :
    Keeps r (if c then s else t) := by split <;> assumption

end Sys2Proof.Machine
end

