-- ==== Sys2Proof/Laws/KeepsCores.lean ====
section
/-! SUPPORT. One lemma for each operation of shared operations, the cores, their instructions and memories: what it keeps (Laws/Keeps.lean). -/

namespace Sys2Proof.Machine

/-- A pair taken apart by its equation. -/
theorem keeps_of_eq {X : Type} {r t : State} {p : X × State} {a : X} (e : p = (a, t)) (h : Keeps r p.2) : Keeps r t := by
  rw [e] at h; exact h

theorem keeps_of_eq' {X : Type} {r t : State} {p : State × X} {a : X} (e : p = (t, a)) (h : Keeps r p.1) : Keeps r t := by
  rw [e] at h; exact h

/-- An optional state taken apart by its equation. -/
theorem keeps_of_some {r t : State} {p : Option State} (e : p = some t) (h : ∀ t, p = some t → Keeps r t) : Keeps r t := h t e

theorem keeps_getD {r s : State} (o : Option State) (h : ∀ t, o = some t → Keeps r t) (hs : Keeps r s) : Keeps r (o.getD s) := by
  cases o with
  | none => exact hs
  | some t => exact h t rfl

/-- An update of fields that these are not changes nothing of it. -/
theorem keeps_mk_iff {r s : State} (sh core ms sq net hbm integ tm pw mg boot rst ck rt pins out fresh) :
    Keeps r (State.mk s.pending s.regs sh s.mem core ms sq net hbm integ tm pw mg s.otp boot rst ck rt pins out fresh) ↔
      Keeps r s :=
  ⟨fun h => ⟨h.pending, h.mem, h.regs, h.gens, h.owners, h.minVersions⟩,
   fun h => ⟨h.pending, h.mem, h.regs, h.gens, h.owners, h.minVersions⟩⟩

/-- A fold of a pair whose every step keeps. -/
theorem keeps_foldl2 {A B : Type} {r : State} (l : List A) (f : B × State → A → B × State)
    (hf : ∀ p a, Keeps r p.2 → Keeps r (f p a).2) (p : B × State) (h : Keeps r p.2) : Keeps r (l.foldl f p).2 := by
  induction l generalizing p with
  | nil => exact h
  | cons a l ih => exact ih _ (hf p a h)

theorem keeps_of_fst {X : Type} {r t : State} {p : X × State} {a : X} (e : p = (a, t)) (h : Keeps r p.2) : Keeps r (a, t).2 := by
  rw [e] at h; exact h

/-- An update of memory that keeps its form. -/
theorem keeps_mem {r s : State} (m : List Host.Cell) (hm : Memory.wf s.mem = true → Memory.wf m = true) (h : Keeps r s) :
    Keeps r { s with mem := m } := ⟨h.pending, fun x => hm (h.mem x), h.regs, h.gens, h.owners, h.minVersions⟩

/-- An update of registers that keeps their form. -/
theorem keeps_regs {r s : State} (g : SMap (BitVec 64)) (hg : mwf regReset s.regs = true → mwf regReset g = true)
    (h : Keeps r s) : Keeps r { s with regs := g } :=
  ⟨h.pending, h.mem, fun x => hg (h.regs x), h.gens, h.owners, h.minVersions⟩

theorem keeps_some {r s t : State} (h : Keeps r s) (e : some s = some t) : Keeps r t := by
  cases e; exact h

theorem keeps_runAll {A : Type} {r : State} (f : State → A → DRes) (hf : ∀ t x, Keeps r t → Keeps r (f t x).2) {s : State}
    (l : List A) (h : Keeps r s) : Keeps r (runAll f s l).2 := by
  induction l generalizing s with
  | nil => exact h
  | cons x l ih =>
    unfold runAll
    have hq := hf s x h
    split
    · rename_i e
      rw [e] at hq
      exact ih hq
    · exact hq

theorem keeps_ite_snd {X : Type} {r : State} (c : Prop) [Decidable c] {a b : X × State} (ha : Keeps r a.2) (hb : Keeps r b.2) :
    Keeps r (if c then a else b).2 := by
  split <;> assumption

/-- A next state is the one named. -/
theorem keeps_next {r s t : State} (h : Keeps r s) (e : (Host.Outcome.next s : Outcome) = .next t) : Keeps r t := by
  cases e; exact h

/-! Operations of Machine/Store.lean. -/

theorem keeps_put {r s : State} (f : Fld) (u i v : Nat) (h : Keeps r s) :
    Keeps r (State.put s f u i v) := by
  unfold State.put
  with_reducible repeat' first | apply keeps_setReg | apply_assumption

theorem keeps_stick {r s : State} (f : Fld) (u i : Nat) (h : Keeps r s) :
    Keeps r (State.stick s f u i) := by
  unfold State.stick
  with_reducible repeat' first | apply keeps_put | apply_assumption

theorem keeps_sat {r s : State} (f : Fld) (u i n : Nat) (h : Keeps r s) :
    Keeps r (State.sat s f u i n) := by
  unfold State.sat
  with_reducible repeat' first | apply keeps_put | apply_assumption

theorem keeps_wrap {r s : State} (f : Fld) (u i n : Nat) (h : Keeps r s) :
    Keeps r (State.wrap s f u i n) := by
  unfold State.wrap
  with_reducible repeat' first | apply keeps_put | apply_assumption

theorem keeps_writeAcc {r s : State} (k : Acc) (r' u i : Nat) (w : BitVec 64) (h : Keeps r s) :
    Keeps r (State.writeAcc s k r' u i w) := by
  unfold State.writeAcc
  with_reducible repeat' first | intro _ | apply keeps_put | apply keeps_foldl | split | apply_assumption

theorem keeps_dropSh {r s : State} (k : Nat) (h : Keeps r s) :
    Keeps r (State.dropSh s k) := by
  unfold State.dropSh
  with_reducible repeat' first | simp only [keeps_mk_iff] | apply_assumption

theorem keeps_holdSh {r s : State} (k : Nat) (w : BitVec 64) (h : Keeps r s) :
    Keeps r (State.holdSh s k w) := by
  unfold State.holdSh
  with_reducible repeat' first | simp only [keeps_mk_iff] | apply_assumption

theorem keeps_takeSh {r s : State} (r' u i : Nat) (h : Keeps r s) :
    Keeps r (State.takeSh s r' u i) := by
  unfold State.takeSh
  with_reducible repeat' first | apply keeps_writeAcc | apply keeps_dropSh | split | apply_assumption

theorem keeps_putBit {r s : State} (f : Fld) (u i b : Nat) (v : Bool) (h : Keeps r s) :
    Keeps r (State.putBit s f u i b v) := by
  unfold State.putBit
  with_reducible repeat' first | apply keeps_put | apply_assumption

theorem keeps_draw {r s : State} (h : Keeps r s) :
    Keeps r (State.draw s).2 := by
  unfold State.draw
  with_reducible repeat' first | simp only [keeps_mk_iff] | apply_assumption

theorem keeps_emit {r s : State} (k : OutKind) (dst code : Nat) (data : List Nat) (h : Keeps r s) :
    Keeps r (State.emit s k dst code data) := by
  unfold State.emit
  with_reducible repeat' first | simp only [keeps_mk_iff] | apply_assumption

/-! Operations of Machine/Memory.lean. -/

theorem keeps_physWrite {r s : State} (a : Nat) (l : List (BitVec 8)) (h : Keeps r s) : Keeps r (s.physWrite a l) := by
  induction l generalizing a s with
  | nil => exact h
  | cons b l ih => exact ih _ (keeps_wr _ _ h)

/-! Operations of Machine/Ledger.lean. -/

theorem keeps_placeRec {r s : State} (i : Nat) (r' : LedgerRec) (h : Keeps r s) :
    Keeps r (State.placeRec s i r') := by
  unfold State.placeRec
  with_reducible repeat' first | apply keeps_physWrite | simp only [keeps_mk_iff] | split | apply_assumption

theorem keeps_pushTo {r s : State} (dst : Nat) (h : Keeps r s) :
    Keeps r (State.pushTo s dst) := by
  unfold State.pushTo
  with_reducible repeat' first | apply keeps_emit | simp only [keeps_mk_iff] | apply_assumption

theorem keeps_pushRec {r s : State} (r' : LedgerRec) (h : Keeps r s) :
    Keeps r (State.pushRec s r') := by
  unfold State.pushRec
  with_reducible repeat' first | intro _ | apply keeps_pushTo | apply keeps_when | split | apply_assumption

theorem keeps_record {r s : State} (e' : Ev) (h : Keeps r s) :
    Keeps r (State.record s e') := by
  unfold State.record
  with_reducible repeat' first | apply keeps_placeRec | apply keeps_pushRec | apply keeps_wrap | apply keeps_stick | apply keeps_sat | apply keeps_put | simp only | split | apply_assumption

theorem keeps_event {r s : State} (e' unit : Nat) (detail : optParam (List (BitVec 8)) []) (h : Keeps r s) :
    Keeps r (State.event s e' unit detail) := by
  unfold State.event
  with_reducible repeat' first | apply keeps_record | apply_assumption

theorem keeps_eventSummed {r s : State} (e' unit key : Nat) (detail : Nat → List (BitVec 8)) (h : Keeps r s) :
    Keeps r (State.eventSummed s e' unit key detail) := by
  unfold State.eventSummed
  with_reducible repeat' first | apply keeps_event | apply keeps_placeRec | simp only [keeps_mk_iff] | split | apply_assumption

theorem keeps_eventRq {r s : State} (rq : Rq) (e' unit : Nat) (detail : optParam (List (BitVec 8)) []) (h : Keeps r s) :
    Keeps r (State.eventRq s rq e' unit detail) := by
  unfold State.eventRq
  with_reducible repeat' first | apply keeps_record | apply_assumption

theorem keeps_eventL {r s : State} (e' unit l : Nat) (detail : optParam (List (BitVec 8)) []) (h : Keeps r s) :
    Keeps r (State.eventL s e' unit l detail) := by
  unfold State.eventL
  with_reducible repeat' first | apply keeps_record | apply_assumption

theorem keeps_listDefect {r s : State} (w : Nat) (h : Keeps r s) :
    Keeps r (State.listDefect s w) := by
  unfold State.listDefect
  with_reducible repeat' first | apply keeps_event | apply keeps_stick | apply keeps_put | simp only [keeps_mk_iff] | split | apply_assumption

theorem keeps_addDefect {r s : State} (kind unit index : Nat) (h : Keeps r s) :
    Keeps r (State.addDefect s kind unit index) := by
  unfold State.addDefect
  with_reducible repeat' first | apply keeps_listDefect | apply_assumption

theorem keeps_cutRuns {r s : State} (p : Nat → Bool) (h : Keeps r s) :
    Keeps r (State.cutRuns s p) := by
  unfold State.cutRuns
  with_reducible repeat' first | simp only [keeps_mk_iff] | apply_assumption

theorem keeps_stormStop {r s : State} (c : Nat) (h : Keeps r s) :
    Keeps r (State.stormStop s c) := by
  unfold State.stormStop
  with_reducible repeat' first | apply keeps_cutRuns | apply keeps_stick | apply keeps_event | simp only [keeps_mk_iff] | split | apply_assumption

theorem keeps_stormRevoke {r s : State} (c : Nat) (h : Keeps r s) :
    Keeps r (State.stormRevoke s c) := by
  unfold State.stormRevoke
  with_reducible repeat' first | simp only [keeps_mk_iff] | apply_assumption

theorem keeps_stormArm {r s : State} (c : Nat) (h : Keeps r s) :
    Keeps r (State.stormArm s c) := by
  unfold State.stormArm
  with_reducible repeat' first | apply keeps_stormRevoke | simp only [keeps_mk_iff] | split | apply_assumption

theorem keeps_stormIdle {r s : State} (c : Nat) (h : Keeps r s) :
    Keeps r (State.stormIdle s c) := by
  unfold State.stormIdle
  with_reducible repeat' first | apply keeps_stormStop | split | apply_assumption

theorem keeps_stormTick {r s : State} (c : Nat) (h : Keeps r s) :
    Keeps r (State.stormTick s c) := by
  unfold State.stormTick
  with_reducible repeat' first | apply keeps_stormIdle | apply keeps_stormArm | apply_assumption

/-! Operations of Machine/Ostler.lean. -/

theorem keeps_setOstler {r s : State} (k : Nat) (o : Ostler) (h : Keeps r s) :
    Keeps r (State.setOstler s k o) := by
  unfold State.setOstler
  with_reducible repeat' first | simp only [keeps_mk_iff] | apply_assumption

theorem keeps_servedGo {r : State} (kind unit index : Nat) (a : Asker) (n : Nat) {s : State} (h : Keeps r s) :
    Keeps r (State.servedGo kind unit index a n s) := by
  induction n generalizing s with
  | zero => exact h
  | succ n ih =>
    unfold State.servedGo
    dsimp only
    split
    · exact keeps_setOstler _ _ h
    · exact ih (keeps_setOstler _ _ h)

theorem keeps_served {r s : State} (kind unit index : Nat) (a : Asker) (h : Keeps r s) :
    Keeps r (State.served s kind unit index a) := by
  unfold State.served
  with_reducible repeat' first | apply keeps_servedGo | apply_assumption

theorem keeps_hold {r s : State} (k : Nat) (h' : Holding) (h : Keeps r s) :
    Keeps r (State.hold s k h') := by
  unfold State.hold
  with_reducible repeat' first | apply keeps_setOstler | apply_assumption

theorem keeps_letGo {r s : State} (k : Nat) (h' : Holding) (h : Keeps r s) :
    Keeps r (State.letGo s k h') := by
  unfold State.letGo
  with_reducible repeat' first | apply keeps_setOstler | apply_assumption

theorem keeps_mgmtFrame {r s : State} (port sub : Nat) (h : Keeps r s) :
    Keeps r (State.mgmtFrame s port sub) := by
  unfold State.mgmtFrame
  with_reducible repeat' first | apply keeps_served | apply_assumption

theorem keeps_frameGrant {r s : State} (rq : Rq) (port sub : Nat) (l c : Nat) (h : Keeps r s) :
    Keeps r (State.frameGrant s rq port sub l c) := by
  unfold State.frameGrant
  with_reducible repeat' first | apply keeps_letGo | apply keeps_served | split | apply_assumption

/-! Operations of Machine/Paths.lean. -/

theorem keeps_putMsg {r s : State} (list ix : Nat) (p : Option Pos) (h : Keeps r s) :
    Keeps r (State.putMsg s list ix p) := by
  unfold State.putMsg
  with_reducible repeat' first | simp only [keeps_mk_iff] | split | apply_assumption

theorem keeps_hop {r s : State} (m : Msg) (h : Keeps r s) :
    Keeps r (State.hop s m) := by
  unfold State.hop
  with_reducible repeat' first | apply keeps_putMsg | split | apply_assumption

theorem keeps_portPhase {r s : State} (r' port : Nat) (extra : List Asker) (h : Keeps r s) :
    Keeps r (State.portPhase s r' port extra).1 := by
  unfold State.portPhase
  with_reducible repeat' first | intro _ | apply keeps_setOstler | apply keeps_hop | apply keeps_forEach | apply_assumption

theorem keeps_passPort {r : State} (a : Asker) (r' port n : Nat) {s : State} (h : Keeps r s) :
    Keeps r (State.passPort a r' port n s) := by
  induction n generalizing s with
  | zero => exact h
  | succ n ih =>
    unfold State.passPort
    dsimp only
    split
    · exact keeps_portPhase _ _ _ h
    · exact ih (keeps_portPhase _ _ _ h)

theorem keeps_crossGo {r : State} (net : Nat) (l : Option Nat) (inp : Nat) (hs : List (Nat × Nat × Nat)) {s : State}
    (h : Keeps r s) : Keeps r (State.crossGo net l inp hs s) := by
  induction hs generalizing inp s with
  | nil => exact h
  | cons p hs ih =>
    exact ih (inp := (behind p.1 p.2.1).2) (keeps_passPort (bufferAsker net p.2.2 inp l) p.1 p.2.1 64 h)

theorem keeps_cross {r s : State} (net : Nat) (l : Option Nat) (src inp : Nat) (dst last : Nat) (h : Keeps r s) :
    Keeps r (State.cross s net l src inp dst last) := by
  unfold State.cross
  with_reducible repeat' first | apply keeps_crossGo | split | apply_assumption

theorem keeps_journey {r : State} (list ix n : Nat) {s : State} (h : Keeps r s) : Keeps r (State.journey list ix n s) := by
  induction n generalizing s with
  | zero => exact h
  | succ n ih =>
    unfold State.journey
    dsimp only
    split
    · exact h
    · split
      · exact h
      · split
        · exact h
        · exact ih (keeps_portPhase _ _ _ h)

theorem keeps_enterNet {r s : State} (list ix : Nat) (net src : Nat) (inp dst last : Nat) (h : Keeps r s) :
    Keeps r (State.enterNet s list ix net src inp dst last) := by
  unfold State.enterNet
  with_reducible repeat' first | apply keeps_putMsg | split | apply_assumption

theorem keeps_mapPos {r s : State} (f : Pos → Pos) (h : Keeps r s) :
    Keeps r (State.mapPos s f) := by
  unfold State.mapPos
  with_reducible repeat' first | simp only [keeps_mk_iff] | apply_assumption

theorem keeps_strand {r s : State} (i : Nat) (h : Keeps r s) :
    Keeps r (State.strand s i) := by
  unfold State.strand
  with_reducible repeat' first | apply keeps_mapPos | apply_assumption

theorem keeps_rejoinAll {r s : State} (h : Keeps r s) :
    Keeps r (State.rejoinAll s) := by
  unfold State.rejoinAll
  with_reducible repeat' first | apply keeps_mapPos | apply_assumption

theorem keeps_loseAt {r s : State} (r' : Nat) (h : Keeps r s) :
    Keeps r (State.loseAt s r') := by
  unfold State.loseAt
  with_reducible repeat' first | apply keeps_mapPos | simp only [keeps_mk_iff] | apply_assumption

theorem keeps_travel {r s : State} (list ix : Nat) (net src : Nat) (inp dst last : Nat) (ends : List Nat) (h : Keeps r s) :
    Keeps r (State.travel s list ix net src inp dst last ends).2 := by
  unfold State.travel
  with_reducible repeat' first | apply keeps_journey | apply keeps_enterNet | split | apply_assumption

theorem keeps_oneHop {r : State} (list ix n : Nat) {s : State} (h : Keeps r s) : Keeps r (State.oneHop list ix n s).2 := by
  induction n generalizing s with
  | zero => exact h
  | succ n ih =>
    unfold State.oneHop
    dsimp only
    split
    · exact h
    · split
      · exact h
      · split
        · exact h
        · split
          · exact ih (keeps_portPhase _ _ _ h)
          · exact keeps_portPhase _ _ _ h

theorem keeps_crossed {r s : State} (rq : Rq) (dst last : Nat) (back : Bool) (h : Keeps r s) :
    Keeps r (State.crossed s rq dst last back) := by
  unfold State.crossed
  with_reducible repeat' first | intro _ | apply keeps_cross | apply keeps_when | apply_assumption

/-! Operations of Machine/Access.lean. -/

theorem keeps_memStatus {r s : State} (e' : Nat) (slot : Option Nat) (c : Nat) (h : Keeps r s) :
    Keeps r (State.memStatus s e' slot c) := by
  unfold State.memStatus
  with_reducible repeat' first | apply keeps_stick | split | apply_assumption

theorem keeps_secRefused {r s : State} (h : Keeps r s) :
    Keeps r (State.secRefused s) := by
  unfold State.secRefused
  with_reducible repeat' first | apply keeps_sat | apply keeps_stick | apply_assumption

theorem keeps_refuse {r s : State} (rq : Rq) (e' unit : Nat) (slot : Option Nat) (c a : Nat) (h : Keeps r s) :
    Keeps r (State.refuse s rq e' unit slot c a) := by
  unfold State.refuse
  with_reducible repeat' first | apply keeps_emit | apply keeps_record | apply keeps_memStatus | apply keeps_secRefused | apply keeps_when | apply_assumption

theorem keeps_unpoison {r s : State} (a : Nat) (h : Keeps r s) :
    Keeps r (State.unpoison s a) := by
  unfold State.unpoison
  with_reducible repeat' first | simp only [keeps_mk_iff] | split | apply_assumption

theorem keeps_storeByte {r s : State} (a : Nat) (b : BitVec 8) (h : Keeps r s) :
    Keeps r (State.storeByte s a b) := by
  unfold State.storeByte
  with_reducible repeat' first | apply keeps_unpoison | apply keeps_wr | apply_assumption

theorem keeps_storeGo {r s : State} (a : Nat) (l : List (Option (BitVec 8))) (h : Keeps r s) :
    Keeps r (s.storeGo a l) := by
  induction l generalizing a s with
  | nil => exact h
  | cons b l ih =>
    cases b with
    | none => exact ih _ h
    | some b => exact ih _ (keeps_storeByte _ _ h)

theorem keeps_freshParity {r s : State} (a : Nat) (bs : List (Option (BitVec 8))) (h : Keeps r s) :
    Keeps r (State.freshParity s a bs) := by
  unfold State.freshParity
  with_reducible repeat' first | simp only [keeps_mk_iff] | split | apply_assumption

theorem keeps_storeBytes {r s : State} (a : Nat) (bs : List (Option (BitVec 8))) (h : Keeps r s) :
    Keeps r (State.storeBytes s a bs) := by
  unfold State.storeBytes
  with_reducible repeat' first | apply keeps_freshParity | apply keeps_storeGo | apply_assumption

theorem keeps_transFault {r s : State} (rq : Rq) (cause l : Nat) (va pa : Nat) (h : Keeps r s) :
    Keeps r (State.transFault s rq cause l va pa) := by
  unfold State.transFault
  with_reducible repeat' first | apply keeps_emit | apply keeps_record | apply keeps_sat | apply_assumption

theorem keeps_activate {r s : State} (a : Nat) (h : Keeps r s) :
    Keeps r (State.activate s a) := by
  unfold State.activate
  with_reducible repeat' first | simp only [keeps_mk_iff] | split | apply_assumption

theorem keeps_frontGrant {r s : State} (a : Nat) (x : Asker) (h : Keeps r s) :
    Keeps r (State.frontGrant s a x) := by
  unfold State.frontGrant
  with_reducible repeat' first | apply keeps_activate | apply keeps_served | apply_assumption

theorem keeps_unreachable {r s : State} (rq : Rq) (src a : Nat) (h : Keeps r s) :
    Keeps r (State.unreachable s rq src a) := by
  unfold State.unreachable
  with_reducible repeat' first | apply keeps_refuse | apply keeps_stick | apply_assumption

theorem keeps_tlbSetTo {r s : State} (k e' : Nat) (h : Keeps r s) :
    Keeps r (State.tlbSetTo s k e') := by
  unfold State.tlbSetTo
  with_reducible repeat' first | simp only [keeps_mk_iff] | apply_assumption

theorem keeps_tlbFill {r s : State} (cache l : Nat) (v e' : Nat) (h : Keeps r s) :
    Keeps r (State.tlbFill s cache l v e') := by
  unfold State.tlbFill
  with_reducible repeat' first | apply keeps_tlbSetTo | apply keeps_draw | apply keeps_ite | refine keeps_of_eq (by assumption) ?_ | split | apply_assumption

theorem keeps_eitherForm {r s : State} (old now : Nat) (h : Keeps r s) :
    Keeps r (State.eitherForm s old now).2 := by
  unfold State.eitherForm
  with_reducible repeat' first | apply keeps_draw | split | apply_assumption

theorem keeps_walkRead {r s : State} (rq : Rq) (l v : Nat) (h : Keeps r s) :
    Keeps r (State.walkRead s rq l v).2 := by
  unfold State.walkRead
  with_reducible repeat' first | intro _ | apply keeps_crossed | apply keeps_frontGrant | apply keeps_eitherForm | apply keeps_tlbFill | apply keeps_unreachable | simp only | apply keeps_when | split | apply_assumption

theorem keeps_walk {r s : State} (rq : Rq) (l v : Nat) (h : Keeps r s) :
    Keeps r (State.walk s rq l v).2 := by
  unfold State.walk
  with_reducible repeat' first | apply keeps_walkRead | apply keeps_eitherForm | simp only | split | apply_assumption

theorem keeps_translate {r s : State} (rq : Rq) (va : Nat) (wr ex : Bool) (h : Keeps r s) :
    Keeps r (State.translate s rq va wr ex).2 := by
  unfold State.translate
  with_reducible repeat' first | apply keeps_transFault | apply keeps_walk | simp only | refine keeps_of_eq (by assumption) ?_ | split | apply_assumption

theorem keeps_routed {r s : State} (rq : Rq) (a dst last : Nat) (ends : List Nat) (next : State → Got Nat × State) (h : Keeps r s) (h_next : ∀ a0, Keeps r a0 → Keeps r (next a0).2) :
    Keeps r (State.routed s rq a dst last ends next).2 := by
  unfold State.routed
  with_reducible repeat' first | apply keeps_unreachable | split | apply_assumption

theorem keeps_parityEvent {r s : State} (rq : Rq) (p : Place) (outcome : Nat) (h : Keeps r s) :
    Keeps r (State.parityEvent s rq p outcome) := by
  unfold State.parityEvent
  with_reducible repeat' first | apply keeps_memStatus | apply keeps_sat | apply keeps_stormTick | apply keeps_record | split | apply_assumption

theorem keeps_poisonRow {r s : State} (rq : Rq) (p : Place) (h : Keeps r s) :
    Keeps r (State.poisonRow s rq p) := by
  unfold State.poisonRow
  with_reducible repeat' first | apply keeps_parityEvent | apply keeps_addDefect | apply keeps_stick | simp only [keeps_mk_iff] | split | apply_assumption

theorem keeps_upset {r s : State} (a : Nat) (bad : Bool) (h : Keeps r s) :
    Keeps r (State.upset s a bad) := by
  unfold State.upset
  with_reducible repeat' first | simp only [keeps_mk_iff] | split | apply_assumption

theorem keeps_dropUpset {r s : State} (a : Nat) (h : Keeps r s) :
    Keeps r (State.dropUpset s a) := by
  unfold State.dropUpset
  with_reducible repeat' first | simp only [keeps_mk_iff] | apply_assumption

theorem keeps_readCheck {r : State} (rq : Rq) (p : Place) (n k : Nat) {s : State} (h : Keeps r s) :
    Keeps r (State.readCheck rq p n k s).2 := by
  induction k generalizing s with
  | zero => exact h
  | succ k ih =>
    unfold State.readCheck
    dsimp only
    split
    · exact h
    · refine keeps_ite_snd _ ?_ ?_
      · with_reducible exact keeps_poisonRow _ _ (keeps_dropUpset _ h)
      · with_reducible exact ih (keeps_parityEvent _ _ _ (keeps_dropUpset _ h))

theorem keeps_checked {r s : State} (rq : Rq) (p : Place) (a n : Nat) (rd : Bool) (h : Keeps r s) :
    Keeps r (State.checked s rq p a n rd).2 := by
  unfold State.checked
  with_reducible repeat' first | apply keeps_readCheck | apply keeps_emit | simp only | split | apply_assumption

theorem keeps_atPlace {r s : State} (rq : Rq) (a n : Nat) (rd : Bool) (h : Keeps r s) :
    Keeps r (State.atPlace s rq a n rd).2 := by
  unfold State.atPlace
  with_reducible repeat' first | apply keeps_refuse | apply keeps_checked | split | apply_assumption

theorem keeps_request {r s : State} (rq : Rq) (a n : Nat) (rd wr ex : Bool) (h : Keeps r s) :
    Keeps r (State.request s rq a n rd wr ex).2 := by
  unfold State.request
  with_reducible repeat' first | intro _ | apply keeps_emit | apply keeps_atPlace | apply keeps_routed | apply keeps_translate | refine keeps_of_eq (by assumption) ?_ | split | apply_assumption

theorem keeps_bankGrant {r s : State} (rq : Rq) (near : Bool) (pa : Nat) (h : Keeps r s) :
    Keeps r (State.bankGrant s rq near pa) := by
  unfold State.bankGrant
  with_reducible repeat' first | apply keeps_served | split | apply_assumption

theorem keeps_granted {r s : State} (rq : Rq) (a pa : Nat) (back : Bool) (h : Keeps r s) :
    Keeps r (State.granted s rq a pa back) := by
  unfold State.granted
  with_reducible repeat' first | apply keeps_bankGrant | apply keeps_crossed | apply keeps_frontGrant | split | apply_assumption

theorem keeps_awaitAck {r s : State} (rq : Rq) (op pc : Nat) (n : optParam Nat 1) (src : optParam (Option (Nat × Nat)) none) (h : Keeps r s) :
    Keeps r (State.awaitAck s rq op pc n src) := by
  unfold State.awaitAck
  with_reducible repeat' first | simp only [keeps_mk_iff] | apply_assumption

theorem keeps_readGo {r : State} (rq : Rq) (ex : Bool) (k : Nat) {s : State} (a n : Nat) (h : Keeps r s) :
    Keeps r (State.readGo rq ex k s a n).2 := by
  induction k generalizing s a n with
  | zero => exact h
  | succ k ih =>
    unfold State.readGo
    split
    · exact h
    · dsimp only
      have hq := keeps_request rq a (pieceLen a n) true false ex h
      split
      · rename_i pa t e
        rw [e] at hq
        have hr := ih (s := t.granted rq a pa true) (a + pieceLen a n) (n - pieceLen a n) (keeps_granted _ _ _ _ hq)
        split
        · rename_i e2
          rw [e2] at hr
          exact hr
        · exact hr
      · rename_i e
        rw [e] at hq
        exact hq
      · rename_i e
        rw [e] at hq
        exact hq

theorem keeps_readMem {r s : State} (rq : Rq) (a n : Nat) (h : Keeps r s) :
    Keeps r (State.readMem s rq a n).2 := by
  unfold State.readMem
  with_reducible repeat' first | apply keeps_readGo | apply_assumption

theorem keeps_fetchMem {r s : State} (rq : Rq) (a n : Nat) (h : Keeps r s) :
    Keeps r (State.fetchMem s rq a n).2 := by
  unfold State.fetchMem
  with_reducible repeat' first | apply keeps_readGo | apply_assumption

theorem keeps_writeGo {r : State} (rq : Rq) (k : Nat) {s : State} (a : Nat) (bs : List (Option (BitVec 8))) (h : Keeps r s) :
    Keeps r (State.writeGo rq k s a bs).2 := by
  induction k generalizing s a bs with
  | zero => exact h
  | succ k ih =>
    unfold State.writeGo
    split
    · exact h
    · dsimp only
      split
      · exact ih _ _ h
      · have hq := keeps_request rq a (pieceLen a bs.length) false true false h
        split
        · rename_i e
          rw [e] at hq
          exact ih _ _ (keeps_storeBytes _ _ (keeps_granted _ _ _ _ hq))
        · rename_i e
          rw [e] at hq
          exact hq
        · rename_i e
          rw [e] at hq
          exact hq

theorem keeps_writeMem {r s : State} (rq : Rq) (a : Nat) (bs : List (Option (BitVec 8))) (h : Keeps r s) :
    Keeps r (State.writeMem s rq a bs).2 := by
  unfold State.writeMem
  with_reducible repeat' first | apply keeps_writeGo | apply_assumption

theorem keeps_writeAll {r s : State} (rq : Rq) (a : Nat) (bs : List (BitVec 8)) (h : Keeps r s) :
    Keeps r (State.writeAll s rq a bs).2 := by
  unfold State.writeAll
  with_reducible repeat' first | apply keeps_writeMem | apply_assumption

/-! Operations of Machine/Ops.lean. -/

theorem keeps_setWait {r s : State} (k : Nat) (w : Option SlotWait) (h : Keeps r s) :
    Keeps r (State.setWait s k w) := by
  unfold State.setWait
  with_reducible repeat' first | simp only [keeps_mk_iff] | apply_assumption

theorem keeps_trace {r s : State} (c kind : Nat) (way tag : Nat) (stream opc data : Nat) (h : Keeps r s) :
    Keeps r (State.trace s c kind way tag stream opc data) := by
  unfold State.trace
  with_reducible repeat' first | apply keeps_sat | apply keeps_wrap | apply keeps_writeAll | apply keeps_ite | apply_assumption

theorem keeps_completed {r s : State} (id way opc : Nat) (h : Keeps r s) :
    Keeps r (State.completed s id way opc) := by
  unfold State.completed
  with_reducible repeat' first | apply keeps_put | apply keeps_wrap | apply keeps_trace | apply_assumption

theorem keeps_waitMet {r s : State} (c i : Nat) (h : Keeps r s) :
    Keeps r (State.waitMet s c i) := by
  unfold State.waitMet
  with_reducible repeat' first | apply keeps_put | apply keeps_setWait | apply keeps_trace | apply keeps_completed | split | apply_assumption

theorem keeps_examineFlagWaits {r s : State} (c k : Nat) (h : Keeps r s) :
    Keeps r (State.examineFlagWaits s c k) := by
  unfold State.examineFlagWaits
  with_reducible repeat' first | intro _ | apply keeps_waitMet | apply keeps_forEach | split | apply_assumption

theorem keeps_flagPut {r s : State} (c k : Nat) (v way : Nat) (h : Keeps r s) :
    Keeps r (State.flagPut s c k v way) := by
  unfold State.flagPut
  with_reducible repeat' first | apply keeps_put | apply keeps_examineFlagWaits | simp only [keeps_mk_iff] | split | apply_assumption

theorem keeps_flagOp {r s : State} (c k : Nat) (op v way : Nat) (h : Keeps r s) :
    Keeps r (State.flagOp s c k op v way) := by
  unfold State.flagOp
  with_reducible repeat' first | apply keeps_flagPut | apply_assumption

theorem keeps_flagRefuse {r s : State} (unit l : Nat) (c k : Nat) (way stream : Nat) (h : Keeps r s) :
    Keeps r (State.flagRefuse s unit l c k way stream) := by
  unfold State.flagRefuse
  with_reducible repeat' first | apply keeps_emit | apply keeps_record | apply keeps_secRefused | apply_assumption

theorem keeps_sigLost {r s : State} (r' : Nat) (o : Origin) (h : Keeps r s) :
    Keeps r (State.sigLost s r' o) := by
  unfold State.sigLost
  with_reducible repeat' first | apply keeps_record | apply keeps_stick | apply_assumption

theorem keeps_sigGone {r s : State} (c : Nat) (o : Origin) (h : Keeps r s) :
    ∀ t, State.sigGone s c o = some t → Keeps r t := by
  intro t e
  unfold State.sigGone at e
  (repeat' split at e) <;> first | (cases e; done) | (refine keeps_some ?_ e; with_reducible repeat' first | apply keeps_record | apply keeps_sat | apply_assumption; done)

theorem keeps_sigDrop {r s : State} (unit c : Nat) (o : Origin) (h : Keeps r s) :
    ∀ t, State.sigDrop s unit c o = some t → Keeps r t := by
  intro t e
  unfold State.sigDrop at e
  dsimp only at e
  (repeat' split at e) <;> first | (refine keeps_some ?_ e; with_reducible repeat' first | apply keeps_sigLost | apply_assumption; done) | (refine keeps_sigGone _ _ ?_ _ e; all_goals (with_reducible repeat' first | apply keeps_sigLost | apply_assumption); done)

theorem keeps_raiseFlag {r s : State} (unit l : Nat) (c k : Nat) (o : Origin) (h : Keeps r s) :
    Keeps r (State.raiseFlag s unit l c k o) := by
  unfold State.raiseFlag
  with_reducible repeat' first | apply keeps_flagOp | apply keeps_flagRefuse | refine keeps_sigDrop _ _ _ ?_ _ (by assumption) | split | apply_assumption

theorem keeps_notify {r s : State} (id : Nat) (h : Keeps r s) :
    Keeps r (State.notify s id) := by
  unfold State.notify
  with_reducible repeat' first | apply keeps_raiseFlag | split | apply_assumption

theorem keeps_freeSlot {r s : State} (id : Nat) (h : Keeps r s) :
    Keeps r (State.freeSlot s id) := by
  unfold State.freeSlot
  with_reducible repeat' first | apply keeps_setWait | apply keeps_setReg | split | apply_assumption

theorem keeps_dropEnding {r s : State} (id : Nat) (h : Keeps r s) :
    Keeps r (State.dropEnding s id) := by
  unfold State.dropEnding
  with_reducible repeat' first | simp only [keeps_mk_iff] | apply_assumption

theorem keeps_endIfQuiet {r s : State} (id st : Nat) (h : Keeps r s) :
    Keeps r (State.endIfQuiet s id st) := by
  unfold State.endIfQuiet
  with_reducible repeat' first | apply keeps_dropEnding | apply keeps_notify | apply keeps_put | apply keeps_freeSlot | simp only [keeps_mk_iff] | split | apply_assumption

theorem keeps_serveGo {r : State} (n : Nat) {s : State} (c k : Nat) (h : Keeps r s) : Keeps r (State.serveGo n s c k) := by
  induction n generalizing s with
  | zero => exact h
  | succ n ih =>
    unfold State.serveGo
    split
    · exact h
    · dsimp only
      split
      · exact h
      · exact ih (keeps_put _ _ _ _ (keeps_mk _ _ _ _ _ _ _ _ _ _ _ _ _ _ _ _ _ h))

theorem keeps_semServe {r s : State} (c k : Nat) (h : Keeps r s) :
    Keeps r (State.semServe s c k) := by
  unfold State.semServe
  with_reducible repeat' first | apply keeps_serveGo | apply_assumption

theorem keeps_dropWaits {r s : State} (gone : SemWait → Bool) (h : Keeps r s) :
    Keeps r (State.dropWaits s gone) := by
  unfold State.dropWaits
  with_reducible repeat' first | intro _ | apply keeps_semServe | simp only [keeps_mk_iff] | apply keeps_forEach | split | apply_assumption

theorem keeps_withdraw {r s : State} (id : Nat) (h : Keeps r s) :
    Keeps r (State.withdraw s id) := by
  unfold State.withdraw
  with_reducible repeat' first | apply keeps_put | apply keeps_setWait | apply keeps_dropWaits | simp only [keeps_mk_iff] | split | apply_assumption

theorem keeps_streamFault {r s : State} (id event way : Nat) (detail : List (BitVec 8)) (opc : Nat) (h : Keeps r s) :
    Keeps r (State.streamFault s id event way detail opc) := by
  unfold State.streamFault
  with_reducible repeat' first | apply keeps_record | apply keeps_trace | apply keeps_put | apply keeps_withdraw | apply keeps_endIfQuiet | simp only [keeps_mk_iff] | split | apply_assumption

theorem keeps_streamStop {r s : State} (id : Nat) (h : Keeps r s) :
    Keeps r (State.streamStop s id) := by
  unfold State.streamStop
  with_reducible repeat' first | apply keeps_put | apply keeps_endIfQuiet | apply keeps_withdraw | simp only [keeps_mk_iff] | split | apply_assumption

theorem keeps_semAdd {r s : State} (c k : Nat) (n unit : Nat) (o : Origin) (h : Keeps r s) :
    Keeps r (State.semAdd s c k n unit o) := by
  unfold State.semAdd
  with_reducible repeat' first | apply keeps_record | apply keeps_stick | apply keeps_put | apply keeps_ite | apply_assumption

theorem keeps_sendSignal {r s : State} (sem amount : Nat) (way unit : Nat) (lodging stream : Nat) (opc tag : Nat) (bcast : optParam Bool false) (pc : Nat) (h : Keeps r s) :
    Keeps r (State.sendSignal s sem amount way unit lodging stream opc tag bcast pc) := by
  unfold State.sendSignal
  with_reducible repeat' first | simp only [keeps_mk_iff] | apply_assumption

theorem keeps_coreDone {r s : State} (launch l : Nat) (h : Keeps r s) :
    Keeps r (State.coreDone s launch l) := by
  unfold State.coreDone
  with_reducible repeat' first | simp only [keeps_mk_iff] | apply_assumption

theorem keeps_faultRegs {r s : State} (u event tag : Nat) (bcast : Bool) (way pc addr : Nat) (h : Keeps r s) :
    Keeps r (State.faultRegs s u event tag bcast way pc addr) := by
  unfold State.faultRegs
  with_reducible repeat' first | apply keeps_put | split | apply_assumption

theorem keeps_clearWait {r s : State} (u : Nat) (h : Keeps r s) :
    Keeps r (State.clearWait s u) := by
  unfold State.clearWait
  with_reducible repeat' first | simp only [keeps_mk_iff] | apply_assumption

theorem keeps_coreFault {r s : State} (u event tag : Nat) (bcast : Bool) (way stream : Nat) (pc addr launch : Nat) (h : Keeps r s) :
    Keeps r (State.coreFault s u event tag bcast way stream pc addr launch) := by
  unfold State.coreFault
  with_reducible repeat' first | apply keeps_record | apply keeps_faultRegs | apply keeps_clearWait | apply keeps_put | apply keeps_coreDone | apply keeps_streamFault | apply keeps_ite | apply_assumption

theorem keeps_progFault {r s : State} (u event addr : Nat) (h : Keeps r s) :
    Keeps r (State.progFault s u event addr) := by
  unfold State.progFault
  with_reducible repeat' first | apply keeps_coreFault | apply_assumption

theorem keeps_guard {r s : State} (b : Bool) (f : State → State) (h : Keeps r s) (h_f : ∀ a0, Keeps r a0 → Keeps r (f a0)) :
    ∀ t, State.guard s b f = .next t → Keeps r t := by
  intro t e
  unfold State.guard at e
  refine keeps_next ?_ e
  with_reducible repeat' first | split | apply_assumption

/-! Operations of Machine/Flags.lean. -/

theorem keeps_numStatus {r s : State} (u flags : Nat) (h : Keeps r s) :
    Keeps r (State.numStatus s u flags) := by
  unfold State.numStatus
  with_reducible repeat' first | apply keeps_setReg | split | apply_assumption

/-! Operations of Machine/Operands.lean. -/

theorem keeps_setS {r s : State} (u r' : Nat) (w : Word) (h : Keeps r s) :
    Keeps r (State.setS s u r' w) := by
  unfold State.setS
  with_reducible repeat' first | simp only [keeps_mk_iff] | split | apply_assumption

theorem keeps_setP {r s : State} (u r' : Nat) (w : Word) (h : Keeps r s) :
    Keeps r (State.setP s u r' w) := by
  unfold State.setP
  with_reducible repeat' first | simp only [keeps_mk_iff] | split | apply_assumption

theorem keeps_setLane {r s : State} (u r' k : Nat) (x : BitVec 32) (h : Keeps r s) :
    Keeps r (State.setLane s u r' k x) := by
  unfold State.setLane
  with_reducible repeat' first | simp only [keeps_mk_iff] | apply_assumption

theorem keeps_setV {r s : State} (u r' : Nat) (mask : Word) (xs : List (BitVec 32)) (h : Keeps r s) :
    Keeps r (State.setV s u r' mask xs) := by
  unfold State.setV
  with_reducible repeat' first | intro _ | apply keeps_setLane | apply keeps_forEach | split | apply_assumption

theorem keeps_setDWord {r s : State} (u r' k : Nat) (w : Word) (h : Keeps r s) :
    Keeps r (State.setDWord s u r' k w) := by
  unfold State.setDWord
  with_reducible repeat' first | simp only [keeps_mk_iff] | apply_assumption

theorem keeps_setD {r s : State} (u r' : Nat) (ws : List Word) (h : Keeps r s) :
    Keeps r (State.setD s u r' ws) := by
  unfold State.setD
  with_reducible repeat' first | intro _ | apply keeps_setDWord | apply keeps_forEach | apply_assumption

theorem keeps_setPc {r s : State} (u pc : Nat) (h : Keeps r s) :
    Keeps r (State.setPc s u pc) := by
  unfold State.setPc
  with_reducible repeat' first | apply keeps_put | apply_assumption

theorem keeps_advance {r s : State} (u n : Nat) (h : Keeps r s) :
    Keeps r (State.advance s u n) := by
  unfold State.advance
  with_reducible repeat' first | apply keeps_setPc | apply_assumption

/-! Operations of Machine/Scalar.lean. -/

theorem keeps_predicated {r s : State} (u : Nat) (x : Payload) (body : State → State) (h : Keeps r s) (h_body : ∀ a0, Keeps r a0 → Keeps r (body a0)) :
    Keeps r (State.predicated s u x body) := by
  unfold State.predicated
  with_reducible repeat' first | apply keeps_advance | split | apply_assumption

theorem keeps_retire {r s : State} (u rd : Nat) (w : Word) (h : Keeps r s) :
    Keeps r (State.retire s u rd w) := by
  unfold State.retire
  with_reducible repeat' first | apply keeps_advance | apply keeps_setS | apply_assumption

theorem keeps_aluBody {r s : State} (u : Nat) (x : Payload) (h : Keeps r s) :
    Keeps r (State.aluBody s u x) := by
  unfold State.aluBody
  with_reducible repeat' first | apply keeps_retire | apply keeps_numStatus | apply keeps_progFault | split | apply_assumption

theorem keeps_immForm {r s : State} (u : Nat) (x : Payload) (f : Word → Word → Word) (h : Keeps r s) :
    Keeps r (State.immForm s u x f) := by
  unfold State.immForm
  with_reducible repeat' first | intro _ | apply keeps_predicated | apply keeps_retire | apply_assumption

theorem keeps_shiBody {r s : State} (u : Nat) (x : Payload) (h : Keeps r s) :
    Keeps r (State.shiBody s u x) := by
  unfold State.shiBody
  with_reducible repeat' first | apply keeps_retire | apply keeps_progFault | split | apply_assumption

theorem keeps_lihBody {r s : State} (u : Nat) (x : Payload) (h : Keeps r s) :
    Keeps r (State.lihBody s u x) := by
  unfold State.lihBody
  with_reducible repeat' first | apply keeps_progFault | apply keeps_retire | split | apply_assumption

theorem keeps_cmpBody {r s : State} (u : Nat) (x : Payload) (h : Keeps r s) :
    Keeps r (State.cmpBody s u x) := by
  unfold State.cmpBody
  with_reducible repeat' first | apply keeps_progFault | apply keeps_advance | apply keeps_setP | split | apply_assumption

theorem keeps_plogBody {r s : State} (u : Nat) (x : Payload) (h : Keeps r s) :
    Keeps r (State.plogBody s u x) := by
  unfold State.plogBody
  with_reducible repeat' first | apply keeps_advance | apply keeps_setP | apply keeps_retire | apply keeps_progFault | split | apply_assumption

theorem keeps_jump {r s : State} (u : Nat) (words : Int) (h : Keeps r s) :
    Keeps r (State.jump s u words) := by
  unfold State.jump
  with_reducible repeat' first | apply keeps_setPc | apply_assumption

theorem keeps_branchBody {r s : State} (u : Nat) (x : Payload) (h : Keeps r s) :
    Keeps r (State.branchBody s u x) := by
  unfold State.branchBody
  with_reducible repeat' first | apply keeps_progFault | apply keeps_jump | apply keeps_advance | apply keeps_ite | apply_assumption

theorem keeps_jrBody {r s : State} (u : Nat) (x : Payload) (h : Keeps r s) :
    Keeps r (State.jrBody s u x) := by
  unfold State.jrBody
  with_reducible repeat' first | apply keeps_progFault | apply keeps_setPc | apply keeps_setS | apply keeps_ite | apply_assumption

theorem keeps_sys {r s : State} (u fn : Nat) (x : Payload) (regs : List Nat) (body : State → State) (h : Keeps r s) (h_body : ∀ a0, Keeps r a0 → Keeps r (body a0)) :
    ∀ t, State.sys s u fn x regs body = .next t → Keeps r t := by
  intro t e
  unfold State.sys at e
  refine keeps_guard _ _ ?_ ?_ _ e
  all_goals (with_reducible repeat' first | intro _ | apply keeps_predicated | apply_assumption)

theorem keeps_programEnd {r s : State} (u : Nat) (h : Keeps r s) :
    Keeps r (State.programEnd s u) := by
  unfold State.programEnd
  with_reducible repeat' first | apply keeps_coreDone | apply keeps_put | apply_assumption

theorem keeps_coreWait {r s : State} (u kind arg : Nat) (h : Keeps r s) :
    Keeps r (State.coreWait s u kind arg) := by
  unfold State.coreWait
  with_reducible repeat' first | apply keeps_put | simp only [keeps_mk_iff] | apply_assumption

theorem keeps_coreWake {r s : State} (u : Nat) (h : Keeps r s) :
    Keeps r (State.coreWake s u) := by
  unfold State.coreWake
  with_reducible repeat' first | apply keeps_advance | apply keeps_put | apply keeps_clearWait | apply_assumption

theorem keeps_fenceCheck {r s : State} (u : Nat) (h : Keeps r s) :
    Keeps r (State.fenceCheck s u) := by
  unfold State.fenceCheck
  with_reducible repeat' first | apply keeps_coreWake | split | apply_assumption

theorem keeps_semWaitBody {r s : State} (u : Nat) (x : Payload) (h : Keeps r s) :
    Keeps r (State.semWaitBody s u x) := by
  unfold State.semWaitBody
  with_reducible repeat' first | apply keeps_progFault | apply keeps_advance | apply keeps_coreWait | simp only [keeps_mk_iff] | split | apply_assumption

theorem keeps_coreSignal {r s : State} (u sem amount : Nat) (h : Keeps r s) :
    Keeps r (State.coreSignal s u sem amount) := by
  unfold State.coreSignal
  with_reducible repeat' first | apply keeps_sendSignal | simp only [keeps_mk_iff] | split | apply_assumption

theorem keeps_sendDue {r s : State} (h : Keeps r s) :
    Keeps r (State.sendDue s) := by
  unfold State.sendDue
  with_reducible repeat' first | intro _ | apply keeps_sendSignal | simp only [keeps_mk_iff] | apply keeps_forEach | apply_assumption

theorem keeps_sendHeld {r s : State} (u id : Nat) (h : Keeps r s) :
    Keeps r (State.sendHeld s u id) := by
  unfold State.sendHeld
  with_reducible repeat' first | apply keeps_sendDue | simp only [keeps_mk_iff] | apply_assumption

theorem keeps_sendAcked {r s : State} (id : Nat) (h : Keeps r s) :
    Keeps r (State.sendAcked s id) := by
  unfold State.sendAcked
  with_reducible repeat' first | apply keeps_sendDue | simp only [keeps_mk_iff] | apply_assumption

theorem keeps_semSigBody {r s : State} (u : Nat) (x : Payload) (h : Keeps r s) :
    Keeps r (State.semSigBody s u x) := by
  unfold State.semSigBody
  with_reducible repeat' first | apply keeps_progFault | apply keeps_advance | apply keeps_coreSignal | apply keeps_ite | apply_assumption

theorem keeps_icInv {r s : State} (u : Nat) (h : Keeps r s) :
    Keeps r (State.icInv s u) := by
  unfold State.icInv
  with_reducible repeat' first | simp only [keeps_mk_iff] | apply_assumption

theorem keeps_fillSlot {r s : State} (c l n : Nat) (w : Word) (h : Keeps r s) :
    Keeps r (State.fillSlot s c l n w) := by
  unfold State.fillSlot
  with_reducible repeat' first | simp only [keeps_mk_iff] | apply_assumption

theorem keeps_consumeSlot {r s : State} (c n l : Nat) (h : Keeps r s) :
    Keeps r (State.consumeSlot s c n l) := by
  unfold State.consumeSlot
  with_reducible repeat' first | apply keeps_coreWake | apply keeps_fillSlot | simp only [keeps_mk_iff] | split | apply_assumption

theorem keeps_reduceGo {r : State} (k : Nat) {s : State} (c n : Nat) (h : Keeps r s) : Keeps r (State.reduceGo k s c n) := by
  induction k generalizing s with
  | zero => exact h
  | succ k ih =>
    unfold State.reduceGo
    split
    · exact h
    · dsimp only
      split
      · exact ih (keeps_waitMet _ _ (keeps_forEach _ _ (fun l t ht => keeps_consumeSlot _ _ _ ht) _ (keeps_setReg _ _ _ _ h)))
      · exact h

/-! Operations of Machine/Dma.lean. -/

theorem keeps_reduceCheck {r s : State} (c n : Nat) (h : Keeps r s) :
    Keeps r (State.reduceCheck s c n) := by
  unfold State.reduceCheck
  with_reducible repeat' first | apply keeps_reduceGo | apply_assumption

/-! Operations of Machine/Scalar.lean. -/

theorem keeps_qputBody {r s : State} (u : Nat) (x : Payload) (h : Keeps r s) :
    Keeps r (State.qputBody s u x) := by
  unfold State.qputBody
  with_reducible repeat' first | apply keeps_progFault | apply keeps_put | apply keeps_coreWait | apply keeps_reduceCheck | apply keeps_advance | apply keeps_fillSlot | apply keeps_ite | apply_assumption

theorem keeps_dsetBody {r s : State} (u : Nat) (x : Payload) (h : Keeps r s) :
    Keeps r (State.dsetBody s u x) := by
  unfold State.dsetBody
  with_reducible repeat' first | apply keeps_progFault | apply keeps_advance | apply keeps_setD | split | apply_assumption

theorem keeps_reservedBody {r s : State} (u : Nat) (h : Keeps r s) :
    Keeps r (State.reservedBody s u) := by
  unfold State.reservedBody
  with_reducible repeat' first | apply keeps_progFault | apply_assumption

/-! Operations of Machine/Vector.lean. -/

theorem keeps_srDraws {r s : State} (u n : Nat) (h : Keeps r s) :
    Keeps r (State.srDraws s u n).2 := by
  unfold State.srDraws
  with_reducible repeat' first | apply keeps_draw | simp only [keeps_mk_iff] | apply_assumption

theorem keeps_valuBody {r s : State} (u : Nat) (x : Payload) (h : Keeps r s) :
    Keeps r (State.valuBody s u x) := by
  unfold State.valuBody
  with_reducible repeat' first | apply keeps_progFault | apply keeps_advance | apply keeps_numStatus | apply keeps_setV | apply keeps_ite | apply_assumption

theorem keeps_vcmpBody {r s : State} (u : Nat) (x : Payload) (h : Keeps r s) :
    Keeps r (State.vcmpBody s u x) := by
  unfold State.vcmpBody
  with_reducible repeat' first | apply keeps_progFault | apply keeps_advance | apply keeps_setP | split | apply_assumption

theorem keeps_cvtBlocks {r s : State} (u dst : Nat) (sat sr ftz : Bool) (bs : List (List Val)) (h : Keeps r s) :
    Keeps r (State.cvtBlocks s u dst sat sr ftz bs).2 := by
  unfold State.cvtBlocks
  with_reducible repeat' first | apply keeps_srDraws | simp only | split | apply_assumption

theorem keeps_cvtList {r s : State} (u dst : Nat) (sat sr ftz : Bool) (ys : List Val) (h : Keeps r s) :
    Keeps r (State.cvtList s u dst sat sr ftz ys).2 := by
  unfold State.cvtList
  with_reducible repeat' first | apply keeps_srDraws | split | apply_assumption

theorem keeps_vcvtoBody {r s : State} (u : Nat) (x : Payload) (h : Keeps r s) :
    Keeps r (State.vcvtoBody s u x) := by
  unfold State.vcvtoBody
  with_reducible repeat' first | apply keeps_progFault | apply keeps_cvtBlocks | apply keeps_setV | apply keeps_advance | apply keeps_numStatus | apply keeps_setS | apply keeps_cvtList | apply keeps_ite | apply_assumption

theorem keeps_vcvtiBody {r s : State} (u : Nat) (x : Payload) (h : Keeps r s) :
    Keeps r (State.vcvtiBody s u x) := by
  unfold State.vcvtiBody
  with_reducible repeat' first | apply keeps_progFault | apply keeps_advance | apply keeps_numStatus | apply keeps_setV | apply keeps_ite | apply_assumption

theorem keeps_vsplitBody {r s : State} (u : Nat) (x : Payload) (h : Keeps r s) :
    Keeps r (State.vsplitBody s u x) := by
  unfold State.vsplitBody
  with_reducible repeat' first | apply keeps_progFault | apply keeps_advance | apply keeps_setV | split | apply_assumption

theorem keeps_vredBody {r s : State} (u : Nat) (x : Payload) (h : Keeps r s) :
    Keeps r (State.vredBody s u x) := by
  unfold State.vredBody
  with_reducible repeat' first | apply keeps_draw | apply keeps_retire | apply keeps_numStatus | apply keeps_progFault | simp only | split | apply_assumption

theorem keeps_vmovBody {r s : State} (u : Nat) (x : Payload) (h : Keeps r s) :
    Keeps r (State.vmovBody s u x) := by
  unfold State.vmovBody
  with_reducible repeat' first | apply keeps_advance | apply keeps_setV | apply keeps_retire | apply keeps_progFault | split | apply_assumption

/-! Operations of Machine/Long.lean. -/

theorem keeps_locFault {r s : State} (u : Nat) (rq : Rq) (e' : LErr) (h : Keeps r s) :
    Keeps r (State.locFault s u rq e').2 := by
  unfold State.locFault
  with_reducible repeat' first | apply keeps_refuse | split | apply_assumption

theorem keeps_dropGens {r s : State} (u m : Nat) (h : Keeps r s) :
    Keeps r (State.dropGens s u m) := by
  unfold State.dropGens
  with_reducible repeat' first | apply keeps_put | apply_assumption

theorem keeps_longFault {r s : State} (u : Nat) (lt : Latch) (group e' a : Nat) (h : Keeps r s) :
    Keeps r (State.longFault s u lt group e' a) := by
  unfold State.longFault
  with_reducible repeat' first | apply keeps_coreFault | apply_assumption

/-! Operations of Machine/Matrix.lean. -/

theorem keeps_matmulStep {r s : State} (u : Nat) (lt : Latch) (pos : WalkPos) (h : Keeps r s) :
    Keeps r (State.matmulStep s u lt pos).2 := by
  unfold State.matmulStep
  with_reducible repeat' first | apply keeps_draw | simp only | split | apply_assumption

theorem keeps_showEngine {r s : State} (u : Nat) (q : Quad) (h : Keeps r s) :
    Keeps r (State.showEngine s u q) := by
  unfold State.showEngine
  with_reducible repeat' first | apply keeps_put | apply_assumption

theorem keeps_idleEngine {r s : State} (u : Nat) (h : Keeps r s) :
    Keeps r (State.idleEngine s u) := by
  unfold State.idleEngine
  with_reducible repeat' first | apply keeps_put | apply_assumption

theorem keeps_convertRow {r s : State} (u : Nat) (q : Quad) (ys : List (BitVec 32)) (h : Keeps r s) :
    Keeps r (State.convertRow s u q ys).2 := by
  unfold State.convertRow
  with_reducible repeat' first | apply keeps_cvtBlocks | apply keeps_cvtList | split | apply_assumption

theorem keeps_outRow {r s : State} (u : Nat) (q : Quad) (lt : Latch) (a : Nat) (chan : List (BitVec 32)) (h : Keeps r s) :
    Keeps r (State.outRow s u q lt a chan).2 := by
  unfold State.outRow
  with_reducible repeat' first | apply keeps_convertRow | simp only | split | apply_assumption

theorem keeps_outWrite {r s : State} (u : Nat) (lt : Latch) (a : Nat) (bs : List (BitVec 8)) (o : OutAcc) (h : Keeps r s) :
    Keeps r (State.outWrite s u lt a bs o).2 := by
  unfold State.outWrite
  with_reducible repeat' first | apply keeps_writeAll | simp only | refine keeps_of_eq (by assumption) ?_ | split | apply_assumption

theorem keeps_amWrite {r s : State} (u off : Nat) (bs : List (BitVec 8)) (o : OutAcc) (h : Keeps r s) :
    Keeps r (State.amWrite s u off bs o).2 := by
  unfold State.amWrite
  with_reducible repeat' first | apply keeps_storeBytes | split | apply_assumption

theorem keeps_pmoutRow {r : State} (u : Nat) (q : Quad) (lt : Latch) (st : OutAcc × State) (i : Nat) (h : Keeps r st.2) :
    Keeps r (State.pmoutRow u q lt st i).2 := by
  obtain ⟨o, s⟩ := st
  unfold State.pmoutRow
  dsimp only
  split
  · exact h
  · split
    · exact h
    · exact keeps_amWrite _ _ _ _ (keeps_outWrite _ _ _ _ _ (keeps_outWrite _ _ _ _ _ (keeps_outRow _ _ _ _ _ h)))

theorem keeps_pmoutStep {r s : State} (u : Nat) (lt : Latch) (pos : WalkPos) (h : Keeps r s) :
    Keeps r (s.pmoutStep u lt pos).2 := by
  have hf : ∀ (l : List Nat) (o : OutAcc), Keeps r (l.foldl (State.pmoutRow u (quadOf lt.quad) lt) (o, s)).2 :=
    fun l o => keeps_foldl2 l _ (fun p a hp => keeps_pmoutRow u _ lt p a hp) (o, s) h
  unfold State.pmoutStep
  dsimp only
  apply keeps_ite_snd <;> exact keeps_amWrite _ _ _ _ (hf _ _)

/-! Operations of Machine/Dma.lean. -/

theorem keeps_moveRun {r s : State} (rq : Rq) (n : Nat) (src dst : Int) (h : Keeps r s) :
    Keeps r (s.moveRun rq n src dst).2 := by
  unfold State.moveRun
  split
  · exact h
  · split
    · exact h
    · split
      · rename_i e
        exact keeps_of_eq e (keeps_readMem _ _ _ h)
      · exact h
      · rename_i e
        have h1 := keeps_of_eq e (keeps_readMem _ _ _ h)
        split
        · rename_i e
          exact keeps_of_eq e (keeps_writeAll _ _ _ h1)
        · rename_i e
          exact keeps_of_eq e (keeps_writeAll _ _ _ h1)
        · exact h

theorem keeps_transposeRefuse {r s : State} (rq : Rq) (dst : Nat) (h : Keeps r s) :
    Keeps r (State.transposeRefuse s rq dst) := by
  unfold State.transposeRefuse
  with_reducible repeat' first | apply keeps_refuse | split | apply_assumption

theorem keeps_pathGrant {r s : State} (rq : Rq) (dst : Nat) (h : Keeps r s) :
    Keeps r (State.pathGrant s rq dst) := by
  unfold State.pathGrant
  with_reducible repeat' first | apply keeps_letGo | apply keeps_served | simp only | split | apply_assumption

theorem keeps_storeRows {r s : State} (l : List (Nat × List (BitVec 8))) (h : Keeps r s) :
    Keeps r (State.storeRows s l) := by
  induction l generalizing s with
  | nil => exact h
  | cons p l ih => obtain ⟨a, bs⟩ := p; exact ih (keeps_storeBytes _ _ h)

theorem keeps_transposeTile {r s : State} (rq : Rq) (w dst pitch : Nat) (mx : Bool) (rows : List Nat) (h : Keeps r s) :
    Keeps r (s.transposeTile rq w dst pitch mx rows).2 := by
  unfold State.transposeTile
  split
  · exact h
  · split
    · exact keeps_transposeRefuse _ _ (keeps_pathGrant _ _ h)
    · dsimp only
      split
      · rename_i e
        have hm := List.mem_of_find?_eq_some e
        rw [List.mem_map] at hm
        obtain ⟨c, _, hc⟩ := hm
        have hq := keeps_request rq (dst + c * pitch) (4 * w) false true false h
        rw [(Prod.mk.inj hc).2] at hq
        exact keeps_pathGrant _ _ hq
      · exact h
      · exact keeps_storeRows _ (keeps_pathGrant _ _ h)

theorem keeps_tileRows {r : State} (j : DmaJob) {s : State} (pts : List Int) (h : Keeps r s) :
    Keeps r (State.tileRows j s pts).2 := by
  unfold State.tileRows
  with_reducible repeat' first | intro _ | apply keeps_readMem | apply keeps_foldl2 | refine keeps_of_eq (by assumption) ?_ | split | apply_assumption

theorem keeps_dmaTile {r : State} (j : DmaJob) {s : State} (k : Nat) (h : Keeps r s) : Keeps r (State.dmaTile j s k).2 := by
  unfold State.dmaTile
  dsimp only
  split
  · exact h
  · have hf := keeps_tileRows j ((List.range 32).map (fun r => j.point j.a (32 * k + r))) h
    split
    · exact h
    · rename_i e
      exact keeps_transposeRefuse _ _ (keeps_of_eq e hf)
    · rename_i e
      have h1 := keeps_of_eq e hf
      split
      · rename_i e
        exact keeps_of_eq e (keeps_transposeTile _ _ _ _ _ _ h1)
      · rename_i e
        exact keeps_of_eq e (keeps_transposeTile _ _ _ _ _ _ h1)
      · exact h

theorem keeps_fillRun {r : State} (j : DmaJob) {s : State} (i : Nat) (h : Keeps r s) : Keeps r (State.fillRun j s i).2 := by
  unfold State.fillRun
  dsimp only
  split
  · exact h
  · split
    · rename_i e
      exact keeps_of_eq e (keeps_writeAll _ _ _ h)
    · rename_i e
      exact keeps_of_eq e (keeps_writeAll _ _ _ h)
    · exact h

theorem keeps_entryIx {r : State} (j : DmaJob) (start k : Nat) {s : State} (i : Nat) (h : Keeps r s) :
    Keeps r (State.entryIx j start k s i).2 := by
  unfold State.entryIx
  with_reducible repeat' first | apply keeps_readMem | simp only | refine keeps_of_eq (by assumption) ?_ | split | apply_assumption

theorem keeps_entryRun {r : State} (j : DmaJob) (start k : Nat) {s : State} (i : Nat) (h : Keeps r s) :
    Keeps r (State.entryRun j start k s i).2 := by
  unfold State.entryRun
  have hq := keeps_entryIx j start k i h
  split
  · rename_i e
    exact keeps_of_eq e hq
  · rename_i e
    exact keeps_moveRun _ _ _ _ (keeps_of_eq e hq)

theorem keeps_listHeader {r s : State} (j : DmaJob) (h : Keeps r s) :
    Keeps r (State.listHeader s j).2 := by
  unfold State.listHeader
  with_reducible repeat' first | apply keeps_readMem | simp only | refine keeps_of_eq (by assumption) ?_ | split | apply_assumption

theorem keeps_sendFlit {r s : State} (rq : Rq) (op src dst : Nat) (lanes : List (BitVec 32)) (h : Keeps r s) :
    Keeps r (s.sendFlit rq op src dst lanes).2 := by
  unfold State.sendFlit
  dsimp only
  split
  · exact keeps_emit _ _ _ _ (keeps_record _ h)
  · exact keeps_mk _ _ _ _ _ _ _ _ _ _ _ _ _ _ _ _ _ h

theorem keeps_reduceRun {r : State} (j : DmaJob) (op : Nat) {s : State} (i : Nat) (h : Keeps r s) :
    Keeps r (State.reduceRun j op s i).2 := by
  unfold State.reduceRun
  dsimp only
  split
  · exact h
  · split
    · exact h
    · split
      · exact h
      · split
        · rename_i e
          exact keeps_of_eq e (keeps_readMem _ _ _ h)
        · exact h
        · rename_i e
          exact keeps_runAll _ (fun t x ht => keeps_sendFlit _ _ _ _ _ ht) _ (keeps_of_eq e (keeps_readMem _ _ _ h))

theorem keeps_dmaUnit {r : State} (j : DmaJob) (op : Nat) (header : List Nat) {s : State} (i : Nat) (h : Keeps r s) :
    Keeps r (State.dmaUnit j op header s i).2 := by
  unfold State.dmaUnit
  split
  · exact keeps_moveRun _ _ _ _ h
  · exact keeps_moveRun _ _ _ _ h
  · exact keeps_fillRun _ _ h
  · exact keeps_reduceRun _ _ _ h
  · exact keeps_entryRun _ _ _ _ h
  · exact keeps_entryRun _ _ _ _ h
  · exact keeps_dmaTile _ _ h

theorem keeps_dmaHeader {r s : State} (j : DmaJob) (h : Keeps r s) :
    Keeps r (State.dmaHeader s j).2 := by
  unfold State.dmaHeader
  with_reducible repeat' first | apply keeps_listHeader | split | apply_assumption

theorem keeps_dmaStep {r s : State} (u op : Nat) (lt : Latch) (pos : WalkPos) (h : Keeps r s) :
    Keeps r (s.dmaStep u op lt pos).2 := by
  unfold State.dmaStep
  dsimp only
  have hd : Keeps r (if pos.i = 0 then s.dmaHeader (dmaJobOf u lt) else (.ok pos.header, s)).2 := by
    split
    · exact keeps_dmaHeader _ h
    · exact h
  split
  · rename_i e
    rw [e] at hd
    exact hd
  · rename_i hdr t e
    rw [e] at hd
    split
    · exact hd
    · have hr := keeps_runAll (State.dmaUnit (dmaJobOf u lt) op hdr) (fun a x ha => keeps_dmaUnit _ _ _ _ ha)
        ((List.range (min ((dmaJobOf u lt).units hdr) (pos.i + (dmaJobOf u lt).stepUnits))).drop pos.i) hd
      split
      · rename_i e2
        rw [e2] at hr
        exact hr
      · rename_i e2
        rw [e2] at hr
        exact hr

theorem keeps_reduceElt {r s : State} (u : Nat) (q : Quad) (lt : Latch) (i : Nat) (h : Keeps r s) :
    Keeps r (State.reduceElt s u q lt i).2 := by
  unfold State.reduceElt
  with_reducible repeat' first | apply keeps_readMem | simp only | refine keeps_of_eq (by assumption) ?_ | split | apply_assumption

theorem keeps_reduceElts {r s : State} (u : Nat) (q : Quad) (lt : Latch) (l : List Nat) (h : Keeps r s) :
    Keeps r (State.reduceElts s u q lt l).2 := by
  unfold State.reduceElts
  with_reducible repeat' first | intro _ | apply keeps_reduceElt | apply keeps_foldl2 | refine keeps_of_eq (by assumption) ?_ | split | apply_assumption

theorem keeps_reduceAll {r s : State} (lt : Latch) (vals : List (BitVec 32)) (h : Keeps r s) :
    Keeps r (State.reduceAll s lt vals).2 := by
  unfold State.reduceAll
  with_reducible repeat' first | apply keeps_draw | apply_assumption

theorem keeps_reduceStep {r s : State} (u : Nat) (lt : Latch) (pos : WalkPos) (h : Keeps r s) :
    Keeps r (State.reduceStep s u lt pos).2 := by
  unfold State.reduceStep
  with_reducible repeat' first | apply keeps_reduceElts | apply keeps_reduceAll | simp only | refine keeps_of_eq (by assumption) ?_ | split | apply_assumption

theorem keeps_zmapRun {r s : State} (u : Nat) (q : Quad) (lt : Latch) (r' : Nat) (h : Keeps r s) :
    Keeps r (State.zmapRun s u q lt r').2 := by
  unfold State.zmapRun
  with_reducible repeat' first | apply keeps_readMem | simp only | refine keeps_of_eq (by assumption) ?_ | split | apply_assumption

theorem keeps_zmapRuns {r s : State} (u : Nat) (q : Quad) (lt : Latch) (l : List Nat) (h : Keeps r s) :
    Keeps r (State.zmapRuns s u q lt l).2 := by
  unfold State.zmapRuns
  with_reducible repeat' first | intro _ | apply keeps_zmapRun | apply keeps_foldl2 | refine keeps_of_eq (by assumption) ?_ | split | apply_assumption

theorem keeps_zmapStep {r s : State} (u : Nat) (lt : Latch) (pos : WalkPos) (h : Keeps r s) :
    Keeps r (State.zmapStep s u lt pos).2 := by
  unfold State.zmapStep
  with_reducible repeat' first | apply keeps_zmapRuns | apply keeps_amWrite | simp only | refine keeps_of_eq (by assumption) ?_ | split | apply_assumption

theorem keeps_longStep {r s : State} (u op opc : Nat) (lt : Latch) (pos : WalkPos) (h : Keeps r s) :
    Keeps r (State.longStep s u op opc lt pos).2 := by
  unfold State.longStep
  with_reducible repeat' first | apply keeps_matmulStep | apply keeps_pmoutStep | apply keeps_dmaStep | apply keeps_reduceStep | apply keeps_zmapStep | split | apply_assumption

/-! Operations of Machine/Issue.lean. -/

theorem keeps_setOp {r s : State} (o : LongOp) (h : Keeps r s) :
    Keeps r (State.setOp s o) := by
  unfold State.setOp
  with_reducible repeat' first | simp only [keeps_mk_iff] | apply_assumption

theorem keeps_claim {r : State} (k : Nat) {s : State} (o : LongOp) (h : Keeps r s) : Keeps r (State.claim k s o).2 := by
  induction k generalizing s o with
  | zero => exact h
  | succ k ih =>
    unfold State.claim
    split
    · exact h
    · exact ih _ (keeps_put _ _ _ _ h)

theorem keeps_freeB {r s : State} (o : LongOp) (h : Keeps r s) :
    Keeps r (State.freeB s o) := by
  unfold State.freeB
  with_reducible repeat' first | apply keeps_setOp | apply keeps_dropGens | apply_assumption

theorem keeps_freeY {r s : State} (o : LongOp) (h : Keeps r s) :
    Keeps r (State.freeY s o) := by
  unfold State.freeY
  with_reducible repeat' first | apply keeps_setOp | apply keeps_dropGens | apply_assumption

theorem keeps_freeWalks {r s : State} (o : LongOp) (h : Keeps r s) :
    Keeps r (State.freeWalks s o) := by
  unfold State.freeWalks
  with_reducible repeat' first | apply keeps_setOp | apply keeps_dropGens | apply_assumption

theorem keeps_endB {r s : State} (u : Nat) (h : Keeps r s) :
    Keeps r (State.endB s u) := by
  unfold State.endB
  with_reducible repeat' first | intro _ | apply keeps_freeB | apply keeps_forEach | apply_assumption

theorem keeps_endY {r s : State} (u id : Nat) (h : Keeps r s) :
    Keeps r (State.endY s u id) := by
  unfold State.endY
  with_reducible repeat' first | intro _ | apply keeps_freeY | apply keeps_forEach | apply_assumption

theorem keeps_dropOp {r s : State} (o : LongOp) (h : Keeps r s) :
    Keeps r (State.dropOp s o) := by
  unfold State.dropOp
  with_reducible repeat' first | intro _ | apply keeps_dropGens | apply keeps_put | simp only [keeps_mk_iff] | apply keeps_when | apply_assumption

theorem keeps_idleCheck {r s : State} (u : Nat) (h : Keeps r s) :
    Keeps r (State.idleCheck s u) := by
  unfold State.idleCheck
  with_reducible repeat' first | apply keeps_idleEngine | split | apply_assumption

theorem keeps_opFault {r s : State} (o : LongOp) (event a : Nat) (h : Keeps r s) :
    Keeps r (State.opFault s o event a) := by
  unfold State.opFault
  with_reducible repeat' first | apply keeps_sendHeld | apply keeps_idleCheck | apply keeps_dropOp | apply keeps_longFault | apply keeps_fenceCheck | apply_assumption

theorem keeps_completeOp {r s : State} (o : LongOp) (h : Keeps r s) :
    Keeps r (State.completeOp s o) := by
  unfold State.completeOp
  with_reducible repeat' first | intro _ | apply keeps_idleCheck | apply keeps_dropOp | apply keeps_sendSignal | apply keeps_sendHeld | apply keeps_coreDone | apply keeps_fenceCheck | apply keeps_when | apply_assumption

/-- Both states that the check of a failed access answers keep. -/
theorem keeps_stepErr {r s t : State} (o : LongOp) (e : LErr) (h : Keeps r s) (ht : Keeps r t) :
    (∀ x, (s.stepErr t o e).1 = some x → Keeps r x.2) ∧ Keeps r (s.stepErr t o e).2 := by
  unfold State.stepErr
  dsimp only
  split
  · split
    · refine ⟨fun x hx => (Option.some_ne_none x hx.symm).elim, ?_⟩
      with_reducible exact keeps_parityEvent _ _ _ (keeps_dropUpset _ h)
    · refine ⟨?_, h⟩
      rintro x e2
      obtain rfl := (Option.some.inj e2)
      with_reducible exact keeps_poisonRow _ _ (keeps_dropUpset _ ht)
    · refine ⟨?_, h⟩
      rintro x e2
      obtain rfl := (Option.some.inj e2)
      exact keeps_locFault _ _ _ ht
  · refine ⟨?_, h⟩
    rintro x e2
    obtain rfl := (Option.some.inj e2)
    exact keeps_locFault _ _ _ ht

theorem keeps_stepGo {r : State} (n : Nat) {s : State} (o : LongOp) (pos : WalkPos) (h : Keeps r s) :
    Keeps r (State.stepGo n s o pos).2 := by
  induction n generalizing s o with
  | zero => exact keeps_longStep _ _ _ _ _ h
  | succ n ih =>
    have hl := keeps_longStep o.u o.id o.opc o.latch pos h
    unfold State.stepGo
    dsimp only
    split
    · exact hl
    · rename_i e _
      have he := keeps_stepErr o e h hl
      split
      · rename_i e2
        exact he.1 _ (congrArg Prod.fst e2)
      · rename_i e2
        have h2 := he.2
        rw [e2] at h2
        exact ih _ h2

theorem keeps_awaitStep {r s : State} (o : LongOp) (n : Nat) (h : Keeps r s) :
    Keeps r (State.awaitStep s o n).2 := by
  unfold State.awaitStep
  with_reducible repeat' first | apply keeps_awaitAck | split | apply_assumption

theorem keeps_carry {r s : State} (o : LongOp) (pos : WalkPos) (h : Keeps r s) :
    ∀ t, State.carry s o pos = some t → Keeps r t := by
  intro t e
  unfold State.carry at e
  (repeat' split at e) <;> first | (cases e; done) | (refine keeps_some ?_ e; with_reducible repeat' first | intro _ | apply keeps_stepGo | apply keeps_awaitStep | apply keeps_setOp | apply keeps_showEngine | apply keeps_when | refine keeps_of_eq (by assumption) ?_ | apply_assumption; done)

theorem keeps_settle {r s : State} (o : LongOp) (h : Keeps r s) :
    Keeps r (State.settle s o) := by
  unfold State.settle
  with_reducible repeat' first | apply keeps_freeWalks | split | apply_assumption

theorem keeps_beginWalks {r s : State} (o : LongOp) (h : Keeps r s) :
    Keeps r (State.beginWalks s o).2 := by
  unfold State.beginWalks
  with_reducible repeat' first | intro _ | apply keeps_endY | apply keeps_claim | apply keeps_setOp | apply keeps_when | apply_assumption

theorem keeps_pathGo {r : State} (n : Nat) {s : State} (u : Nat) (h : Keeps r s) : Keeps r (State.pathGo n s u) := by
  induction n generalizing s with
  | zero => exact h
  | succ n ih =>
    unfold State.pathGo
    split
    · exact ih (keeps_opFault _ _ _ h)
    · split
      · exact ih (keeps_completeOp _ h)
      · split
        · exact h
        · rename_i o _
          split
          · exact h
          · have hb := keeps_beginWalks o h
            dsimp only
            split
            · exact hb
            · split
              · exact hb
              · rename_i e
                exact ih (keeps_settle _ (keeps_carry _ _ hb _ e))

theorem keeps_retakeB {r s : State} (u : Nat) (h : Keeps r s) :
    Keeps r (State.retakeB s u) := by
  unfold State.retakeB
  with_reducible repeat' first | intro _ | apply keeps_claim | apply keeps_setOp | apply keeps_forEach | apply_assumption

theorem keeps_unitStep {r s : State} (o : LongOp) (h : Keeps r s) :
    Keeps r (State.unitStep s o) := by
  unfold State.unitStep
  with_reducible repeat' first | apply keeps_opFault | apply keeps_settle | refine keeps_carry _ _ ?_ _ (by assumption) | split | apply_assumption

theorem keeps_dmaGo {r : State} (l : List LongOp) {s : State} (h : Keeps r s) : Keeps r (State.dmaGo l s) := by
  induction l generalizing s with
  | nil => exact h
  | cons o l ih =>
    unfold State.dmaGo
    split
    · exact ih (keeps_completeOp _ h)
    · have hc := keeps_claim 1 o h
      dsimp only
      split
      · split
        · exact hc
        · exact ih (keeps_unitStep _ (keeps_setOp _ hc))
      · exact ih (keeps_unitStep _ (keeps_setOp _ h))

theorem keeps_feed {r s : State} (u : Nat) (h : Keeps r s) :
    Keeps r (State.feed s u) := by
  unfold State.feed
  with_reducible repeat' first | intro _ | apply keeps_retakeB | apply keeps_pathGo | apply keeps_dmaGo | apply keeps_claim | apply keeps_unitStep | apply keeps_setOp | apply keeps_forEach | refine keeps_of_eq (by assumption) ?_ | split | apply_assumption

theorem keeps_bqPop {r s : State} (u : Nat) (h : Keeps r s) :
    Keeps r (State.bqPop s u) := by
  unfold State.bqPop
  with_reducible repeat' first | simp only [keeps_mk_iff] | split | apply_assumption

theorem keeps_emptyResult {r s : State} (u opc : Nat) (lt : Latch) (h : Keeps r s) :
    Keeps r (State.emptyResult s u opc lt) := by
  unfold State.emptyResult
  with_reducible repeat' first | apply keeps_reduceAll | apply keeps_setS | split | apply_assumption

theorem keeps_enter {r s : State} (u opc : Nat) (lt : Latch) (empty : Bool) (group : Nat) (h : Keeps r s) :
    Keeps r (State.enter s u opc lt empty group) := by
  unfold State.enter
  with_reducible repeat' first | intro _ | apply keeps_completeOp | apply keeps_endB | apply keeps_claim | apply keeps_wrap | simp only [keeps_mk_iff] | apply keeps_when | split | apply_assumption

theorem keeps_launchLong {r s : State} (u opc : Nat) (lt : Latch) (group : Nat) (next : State → State) (h : Keeps r s) (h_next : ∀ a0, Keeps r a0 → Keeps r (next a0)) :
    Keeps r (State.launchLong s u opc lt group next) := by
  unfold State.launchLong
  with_reducible repeat' first | intro _ | apply keeps_longFault | apply keeps_feed | apply keeps_enter | apply keeps_emptyResult | apply keeps_when | split | apply_assumption

theorem keeps_issueProg {r s : State} (u opc : Nat) (w : LPayload) (h : Keeps r s) :
    Keeps r (State.issueProg s u opc w) := by
  unfold State.issueProg
  with_reducible repeat' first | intro _ | apply keeps_feed | apply keeps_advance | apply keeps_enter | apply keeps_longFault | apply keeps_launchLong | apply keeps_ite | apply_assumption

theorem keeps_issueBcast {r s : State} (u opc : Nat) (e' : BQEntry) (h : Keeps r s) :
    Keeps r (State.issueBcast s u opc e') := by
  unfold State.issueBcast
  with_reducible repeat' first | intro _ | apply keeps_launchLong | apply keeps_bqPop | apply_assumption

theorem keeps_issueLong {r s : State} (u opc : Nat) (bcast : Bool) (w : LPayload) (h : Keeps r s) :
    ∀ t, State.issueLong s u opc bcast w = .next t → Keeps r t := by
  intro t e
  unfold State.issueLong at e
  (repeat' split at e) <;> first | (refine keeps_next ?_ e; with_reducible repeat' first | apply keeps_issueBcast | apply keeps_issueProg | split | apply_assumption; done)

theorem keeps_issueDma {r s : State} (u : Nat) (bcast : Bool) (w : LPayload) (subs : List Nat) (h : Keeps r s) :
    ∀ t, State.issueDma s u bcast w subs = .next t → Keeps r t := by
  intro t e
  unfold State.issueDma at e
  (repeat' split at e) <;> first | (refine keeps_next ?_ e; with_reducible apply_assumption; done) | (refine keeps_issueLong _ _ _ _ ?_ _ e; all_goals (with_reducible apply_assumption); done)

/-! Operations of Machine/Gate.lean. -/

theorem keeps_regAct {r s : State} (rq : Rq) (c addr : Nat) (f : State → State) (h : Keeps r s) (h_f : ∀ a0, Keeps r a0 → Keeps r (f a0)) :
    Keeps r (State.regAct s rq c addr f) := by
  unfold State.regAct
  with_reducible repeat' first | apply keeps_refuse | split | apply_assumption

theorem keeps_rangeRefused {r s : State} (a : Nat) (wr : Bool) (h : Keeps r s) :
    Keeps r (State.rangeRefused s a wr) := by
  unfold State.rangeRefused
  with_reducible repeat' first | intro _ | apply keeps_stick | apply keeps_when | split | apply_assumption

theorem keeps_csRefuse {r s : State} (rq : Rq) (a : Nat) (wr : Bool) (e' : Nat × Nat) (h : Keeps r s) :
    Keeps r (State.csRefuse s rq a wr e') := by
  unfold State.csRefuse
  with_reducible repeat' first | apply keeps_refuse | apply keeps_rangeRefused | apply_assumption

theorem keeps_writeRw {r s : State} (r' u i : Nat) (w : Word) (h : Keeps r s) :
    Keeps r (State.writeRw s r' u i w) := by
  unfold State.writeRw
  with_reducible repeat' first | apply keeps_writeAcc | apply_assumption

theorem keeps_busyWrite {r s : State} (f : Fld) (u i : Nat) (h : Keeps r s) :
    Keeps r (State.busyWrite s f u i) := by
  unfold State.busyWrite
  with_reducible repeat' first | apply keeps_stick | apply_assumption

theorem keeps_csAct {r s : State} (rq : Rq) (a : Nat) (f : State → State) (h : Keeps r s) (h_f : ∀ a0, Keeps r a0 → Keeps r (f a0)) :
    Keeps r (State.csAct s rq a f) := by
  unfold State.csAct
  with_reducible repeat' first | apply keeps_csRefuse | split | apply_assumption

/-! Operations of Machine/MemRows.lean. -/

theorem keeps_parityFault {r s : State} (rq : Rq) (a : Nat) (h : Keeps r s) :
    Keeps r (State.parityFault s rq a) := by
  unfold State.parityFault
  with_reducible repeat' first | apply keeps_feed | apply keeps_opFault | apply keeps_progFault | simp only | split | apply_assumption

theorem keeps_stalled {r s : State} (rq : Rq) (p : Place) (n : Nat) (h : Keeps r s) :
    Keeps r (State.stalled s rq p n) := by
  unfold State.stalled
  with_reducible repeat' first | apply keeps_sat | split | apply_assumption

theorem keeps_sramServe {r s : State} (rq : Rq) (a n : Nat) (rd : Bool) (parity stall : Nat) (f : State → Nat → State) (h : Keeps r s) (h_f : ∀ a0 a1, Keeps r a0 → Keeps r (f a0 a1)) :
    Keeps r (State.sramServe s rq a n rd parity stall f) := by
  unfold State.sramServe
  with_reducible repeat' first | intro _ | apply keeps_stalled | apply keeps_upset | apply keeps_atPlace | apply keeps_bankGrant | apply keeps_parityFault | simp only | apply keeps_when | refine keeps_of_eq (by assumption) ?_ | split | apply_assumption

theorem keeps_tileCommand {r s : State} (rq : Rq) (width dst pitch : Nat) (mx : Bool) (rows : List Nat) (stall : Bool) (h : Keeps r s) :
    Keeps r (State.tileCommand s rq width dst pitch mx rows stall) := by
  unfold State.tileCommand
  with_reducible repeat' first | apply keeps_transposeTile | apply keeps_hold | apply keeps_pathGrant | apply keeps_ite | apply_assumption

theorem keeps_setPart {r s : State} (k : Nat) (on pend : Bool) (h : Keeps r s) :
    Keeps r (State.setPart s k on pend) := by
  unfold State.setPart
  with_reducible repeat' first | apply keeps_putBit | split | apply_assumption

theorem keeps_startPower {r s : State} (k dir : Nat) (h : Keeps r s) :
    Keeps r (State.startPower s k dir) := by
  unfold State.startPower
  with_reducible repeat' first | apply keeps_setPart | simp only [keeps_mk_iff] | apply_assumption

theorem keeps_powerRequest {r s : State} (k dir : Nat) (h : Keeps r s) :
    Keeps r (State.powerRequest s k dir) := by
  unfold State.powerRequest
  with_reducible repeat' first | apply keeps_startPower | simp only [keeps_mk_iff] | split | apply_assumption

theorem keeps_nextPower {r s : State} (k : Nat) (h : Keeps r s) :
    Keeps r (State.nextPower s k) := by
  unfold State.nextPower
  with_reducible repeat' first | apply keeps_powerRequest | simp only [keeps_mk_iff] | split | apply_assumption

theorem keeps_clearRange {r s : State} (lo n : Nat) (h : Keeps r s) :
    Keeps r (State.clearRange s lo n) := by
  unfold State.clearRange
  exact keeps_mem _ (fun x => mwf_filter zeroB _ _ x) h

theorem keeps_cleanRange {r s : State} (lo n : Nat) (h : Keeps r s) :
    Keeps r (State.cleanRange s lo n) := by
  unfold State.cleanRange
  with_reducible repeat' first | simp only [keeps_mk_iff] | apply_assumption

theorem keeps_powerDown {r s : State} (k : Nat) (h : Keeps r s) :
    Keeps r (State.powerDown s k) := by
  unfold State.powerDown
  with_reducible repeat' first | apply keeps_nextPower | apply keeps_setPart | apply keeps_clearRange | apply_assumption

theorem keeps_powerUp {r s : State} (k : Nat) (h : Keeps r s) :
    Keeps r (State.powerUp s k) := by
  unfold State.powerUp
  with_reducible repeat' first | apply keeps_nextPower | apply keeps_setPart | apply keeps_cleanRange | apply keeps_clearRange | apply_assumption

theorem keeps_semWrite {r s : State} (rq : Rq) (op c : Nat) (k v : Nat) (h : Keeps r s) :
    Keeps r (State.semWrite s rq op c k v) := by
  unfold State.semWrite
  with_reducible repeat' first | apply keeps_semServe | apply keeps_put | apply keeps_semAdd | split | apply_assumption

theorem keeps_semRefused {r s : State} (g : SemFrom) (h : Keeps r s) :
    Keeps r (State.semRefused s g) := by
  unfold State.semRefused
  with_reducible repeat' first | apply keeps_progFault | apply keeps_coreFault | apply keeps_streamFault | apply keeps_stick | apply keeps_ite | split | apply_assumption

theorem keeps_semRefuse {r s : State} (g : SemFrom) (h : Keeps r s) :
    Keeps r (State.semRefuse s g) := by
  unfold State.semRefuse
  with_reducible repeat' first | apply keeps_semRefused | apply keeps_emit | apply keeps_record | apply keeps_secRefused | apply_assumption

theorem keeps_applySignal {r s : State} (g : SemSig) (h : Keeps r s) :
    Keeps r (State.applySignal s g) := by
  unfold State.applySignal
  with_reducible repeat' first | apply keeps_semAdd | apply keeps_semServe | simp only [keeps_mk_iff] | split | apply_assumption

theorem keeps_sigTravel {r s : State} (list n : Nat) (unit c : Nat) (o : Origin) (h : Keeps r s) :
    Keeps r (State.sigTravel s list n unit c o).2 := by
  unfold State.sigTravel
  with_reducible repeat' first | apply keeps_travel | apply keeps_sigLost | simp only | refine keeps_of_eq (by assumption) ?_ | split | apply_assumption

theorem keeps_semDeliver {r s : State} (c : Nat) (o : Origin) (f : State → State) (h : Keeps r s) (h_f : ∀ a0, Keeps r a0 → Keeps r (f a0)) :
    Keeps r (State.semDeliver s c o f) := by
  unfold State.semDeliver
  with_reducible repeat' first | refine keeps_sigGone _ _ ?_ _ (by assumption) | split | apply_assumption

theorem keeps_signalIn {r s : State} (g : SemSig) (h : Keeps r s) :
    Keeps r (State.signalIn s g) := by
  unfold State.signalIn
  with_reducible repeat' first | intro _ | apply keeps_semDeliver | apply keeps_applySignal | apply keeps_semRefuse | split | apply_assumption

theorem keeps_waitIn {r s : State} (w : SemWait) (h : Keeps r s) :
    Keeps r (State.waitIn s w) := by
  unfold State.waitIn
  with_reducible repeat' first | intro _ | apply keeps_semDeliver | apply keeps_semServe | apply keeps_semRefuse | simp only [keeps_mk_iff] | split | apply_assumption

theorem keeps_grantIn {r s : State} (g : SemGrant) (h : Keeps r s) :
    Keeps r (State.grantIn s g) := by
  unfold State.grantIn
  with_reducible repeat' first | apply keeps_waitMet | apply keeps_coreWake | apply keeps_sendSignal | split | apply_assumption

/-! Operations of Machine/Fence.lean. -/

theorem keeps_absorb {r s : State} (c : Nat) (p : Rq → Bool) (h : Keeps r s) :
    Keeps r (State.absorb s c p) := by
  unfold State.absorb
  with_reducible repeat' first | apply keeps_put | simp only [keeps_mk_iff] | apply_assumption

theorem keeps_withdrawCore {r s : State} (u : Nat) (h : Keeps r s) :
    Keeps r (State.withdrawCore s u) := by
  unfold State.withdrawCore
  with_reducible repeat' first | apply keeps_dropWaits | apply_assumption

theorem keeps_wipeCore {r s : State} (u : Nat) (h : Keeps r s) :
    Keeps r (State.wipeCore s u) := by
  unfold State.wipeCore
  with_reducible repeat' first | simp only [keeps_mk_iff] | apply_assumption

theorem keeps_wipeLogical {r s : State} (c l : Nat) (h : Keeps r s) :
    Keeps r (State.wipeLogical s c l) := by
  unfold State.wipeLogical
  with_reducible repeat' first | simp only [keeps_mk_iff] | apply_assumption

theorem keeps_loadSeed {r s : State} (u : Nat) (h : Keeps r s) :
    Keeps r (State.loadSeed s u) := by
  unfold State.loadSeed
  with_reducible repeat' first | simp only [keeps_mk_iff] | apply_assumption

theorem keeps_wipeCoRegs {r s : State} (u : Nat) (h : Keeps r s) :
    Keeps r (State.wipeCoRegs s u) := by
  unfold State.wipeCoRegs
  with_reducible repeat' first | apply keeps_setReg | apply keeps_put | apply_assumption

theorem keeps_dropReplays {r s : State} (u : Nat) (h : Keeps r s) :
    Keeps r (State.dropReplays s u) := by
  unfold State.dropReplays
  with_reducible repeat' first | simp only [keeps_mk_iff] | apply_assumption

theorem keeps_clearSlot {r s : State} (u : Nat) (h : Keeps r s) :
    Keeps r (State.clearSlot s u) := by
  unfold State.clearSlot
  with_reducible repeat' first | apply keeps_dropReplays | apply keeps_wipeCore | apply keeps_withdrawCore | apply keeps_absorb | apply keeps_wipeCoRegs | apply keeps_loadSeed | apply keeps_takeSh | apply keeps_put | apply keeps_ite | apply_assumption

theorem keeps_strandCore {r s : State} (c l : Nat) (h : Keeps r s) :
    Keeps r (State.strandCore s c l) := by
  unfold State.strandCore
  with_reducible repeat' first | intro _ | apply keeps_coreDone | apply keeps_streamFault | apply keeps_forEach | split | apply_assumption

theorem keeps_setMap {r s : State} (c l slot : Nat) (h : Keeps r s) :
    Keeps r (State.setMap s c l slot) := by
  unfold State.setMap
  with_reducible repeat' first | apply keeps_put | apply_assumption

theorem keeps_setPresent {r s : State} (c l : Nat) (b : Bool) (h : Keeps r s) :
    Keeps r (State.setPresent s c l b) := by
  unfold State.setPresent
  with_reducible repeat' first | apply keeps_putBit | apply keeps_put | apply_assumption

theorem keeps_goneCore {r s : State} (c l old : Nat) (h : Keeps r s) :
    Keeps r (State.goneCore s c l old) := by
  unfold State.goneCore
  with_reducible repeat' first | apply keeps_setPresent | apply keeps_setMap | apply keeps_event | apply keeps_stick | apply keeps_wipeLogical | apply keeps_strandCore | apply_assumption

theorem keeps_setSpare {r s : State} (c row : Nat) (slot : Option Nat) (h : Keeps r s) :
    Keeps r (State.setSpare s c row slot) := by
  unfold State.setSpare
  with_reducible repeat' first | apply keeps_put | split | apply_assumption

theorem keeps_matchPower {r s : State} (old new : Nat) (h : Keeps r s) :
    Keeps r (State.matchPower s old new) := by
  unfold State.matchPower
  with_reducible repeat' first | intro _ | apply keeps_clearRange | apply keeps_setPart | apply keeps_forEach | split | apply_assumption

theorem keeps_startTakeover {r s : State} (c l : Nat) (dress forced : Bool) (h : Keeps r s) :
    Keeps r (State.startTakeover s c l dress forced) := by
  unfold State.startTakeover
  with_reducible repeat' first | apply keeps_goneCore | apply keeps_matchPower | apply keeps_setSpare | apply keeps_put | simp only [keeps_mk_iff] | split | apply_assumption

theorem keeps_nextTakeover {r s : State} (c row : Nat) (h : Keeps r s) :
    Keeps r (State.nextTakeover s c row) := by
  unfold State.nextTakeover
  with_reducible repeat' first | apply keeps_startTakeover | simp only [keeps_mk_iff] | split | apply_assumption

theorem keeps_showTakeover {r s : State} (c : Nat) (h : Keeps r s) :
    Keeps r (State.showTakeover s c) := by
  unfold State.showTakeover
  with_reducible repeat' first | apply keeps_put | apply_assumption

theorem keeps_abandon {r s : State} (u : Nat) (h : Keeps r s) :
    Keeps r (State.abandon s u) := by
  unfold State.abandon
  with_reducible repeat' first | apply keeps_nextTakeover | apply keeps_goneCore | apply keeps_showTakeover | simp only [keeps_mk_iff] | split | apply_assumption

theorem keeps_keepState {r s : State} (u : Nat) (h : Keeps r s) :
    Keeps r (State.keepState s u) := by
  unfold State.keepState
  with_reducible repeat' first | simp only [keeps_mk_iff] | apply_assumption

theorem keeps_markFenced {r s : State} (u reason : Nat) (h : Keeps r s) :
    Keeps r (State.markFenced s u reason) := by
  unfold State.markFenced
  with_reducible repeat' first | apply keeps_put | apply keeps_putBit | apply keeps_keepState | apply keeps_stick | apply_assumption

theorem keeps_fenceLater {r s : State} (x reason : Nat) (h : Keeps r s) :
    Keeps r (State.fenceLater s x reason) := by
  unfold State.fenceLater
  with_reducible repeat' first | simp only [keeps_mk_iff] | split | apply_assumption

theorem keeps_fenceCore {r s : State} (u reason : Nat) (h : Keeps r s) :
    Keeps r (State.fenceCore s u reason) := by
  unfold State.fenceCore
  with_reducible repeat' first | apply keeps_fenceLater | apply keeps_addDefect | apply keeps_markFenced | apply keeps_setSpare | apply keeps_abandon | apply keeps_startTakeover | apply keeps_ite | apply_assumption

theorem keeps_resetSeq {r s : State} (c : Nat) (h : Keeps r s) :
    Keeps r (State.resetSeq s c) := by
  unfold State.resetSeq
  with_reducible repeat' first | intro _ | apply keeps_absorb | apply keeps_setWait | apply keeps_setReg | apply keeps_dropSh | apply keeps_dropWaits | simp only [keeps_mk_iff] | apply keeps_forEach | apply_assumption

theorem keeps_endStreams {r s : State} (c : Nat) (states : List Nat) (h : Keeps r s) :
    Keeps r (State.endStreams s c states) := by
  unfold State.endStreams
  with_reducible repeat' first | intro _ | apply keeps_endIfQuiet | apply keeps_streamFault | simp only [keeps_mk_iff] | apply keeps_forEach | apply_assumption

theorem keeps_fenceLogical {r s : State} (c l : Nat) (h : Keeps r s) :
    Keeps r (State.fenceLogical s c l) := by
  unfold State.fenceLogical
  with_reducible repeat' first | apply keeps_put | apply keeps_wipeLogical | apply keeps_wipeCore | apply keeps_withdrawCore | apply keeps_setPresent | apply keeps_setMap | apply keeps_ite | apply_assumption

theorem keeps_fenceCluster {r s : State} (c cause : Nat) (h : Keeps r s) :
    Keeps r (State.fenceCluster s c cause) := by
  unfold State.fenceCluster
  with_reducible repeat' first | intro _ | apply keeps_fenceLater | apply keeps_stick | apply keeps_event | apply keeps_fenceLogical | apply keeps_cutRuns | apply keeps_put | apply keeps_endStreams | simp only [keeps_mk_iff] | apply keeps_forEach | split | apply_assumption

theorem keeps_wipeSync {r s : State} (c : Nat) (h : Keeps r s) :
    Keeps r (State.wipeSync s c) := by
  unfold State.wipeSync
  exact keeps_mk _ _ _ _ _ _ _ _ _ _ _ _ _ _ _ _ _
    (keeps_forEach _ _ (fun l t ht => keeps_wipeLogical _ _ ht) _ (keeps_regs _ (fun x => mwf_filter regReset _ _ x) h))

/-! Operations of Machine/Commit.lean. -/

theorem keeps_reservedBcast {r s : State} (u : Nat) (e' : BQEntry) (h : Keeps r s) :
    Keeps r (State.reservedBcast s u e') := by
  unfold State.reservedBcast
  with_reducible repeat' first | apply keeps_longFault | apply keeps_bqPop | apply_assumption

theorem keeps_icPlace {r s : State} (u line : Nat) (bs : List (BitVec 8)) (h : Keeps r s) :
    Keeps r (State.icPlace s u line bs) := by
  unfold State.icPlace
  with_reducible repeat' first | apply keeps_draw | simp only [keeps_mk_iff] | split | apply_assumption

theorem keeps_icFetch {r s : State} (u line : Nat) (h : Keeps r s) :
    Keeps r (State.icFetch s u line).2 := by
  unfold State.icFetch
  with_reducible repeat' first | apply keeps_fetchMem | apply keeps_icPlace | refine keeps_of_eq (by assumption) ?_ | split | apply_assumption

theorem keeps_icMiss {r s : State} (u line : Nat) (h : Keeps r s) :
    Keeps r (State.icMiss s u line) := by
  unfold State.icMiss
  with_reducible repeat' first | apply keeps_icFetch | apply keeps_progFault | refine keeps_of_eq (by assumption) ?_ | split | apply_assumption

theorem keeps_commitPm {r s : State} (u : Nat) (l : List (Nat × BitVec 32)) (h : Keeps r s) :
    Keeps r (State.commitPm s u l) := by
  induction l generalizing s with
  | nil => exact h
  | cons p l ih => obtain ⟨o, w⟩ := p; exact ih (keeps_storeBytes _ _ h)

theorem keeps_countReplay {r s : State} (u since : Nat) (h : Keeps r s) :
    Keeps r (State.countReplay s u since) := by
  unfold State.countReplay
  with_reducible repeat' first | apply keeps_fenceCore | apply keeps_record | simp only [keeps_mk_iff] | split | apply_assumption

theorem keeps_replayDone {r s : State} (u op : Nat) (h : Keeps r s) :
    Keeps r (State.replayDone s u op) := by
  unfold State.replayDone
  with_reducible repeat' first | apply keeps_sat | apply keeps_record | apply keeps_countReplay | simp only [keeps_mk_iff] | split | apply_assumption

theorem keeps_commitStep {r s : State} (o : LongOp) (r' : StepRes) (rest : List StepRes) (h : Keeps r s) :
    Keeps r (State.commitStep s o r' rest) := by
  unfold State.commitStep
  with_reducible repeat' first | apply keeps_numStatus | apply keeps_commitPm | apply keeps_setS | apply keeps_settle | apply keeps_setOp | apply keeps_opFault | apply keeps_idleCheck | apply keeps_feed | apply keeps_stormStop | apply keeps_replayDone | split | apply_assumption

theorem keeps_countFail {r s : State} (u event : Nat) (h : Keeps r s) :
    Keeps r (State.countFail s u event) := by
  unfold State.countFail
  with_reducible repeat' first | apply keeps_sat | split | apply_assumption

theorem keeps_rewindPath {r s : State} (u : Nat) (h : Keeps r s) :
    Keeps r (State.rewindPath s u) := by
  unfold State.rewindPath
  with_reducible repeat' first | intro _ | apply keeps_idleCheck | apply keeps_setOp | apply keeps_dropGens | apply keeps_forEach | apply_assumption

theorem keeps_replayFrom {r s : State} (o : LongOp) (h : Keeps r s) :
    Keeps r (State.replayFrom s o) := by
  unfold State.replayFrom
  with_reducible repeat' first | apply keeps_feed | apply keeps_rewindPath | apply keeps_setOp | split | apply_assumption

theorem keeps_failedDraws {r s : State} (u : Nat) (h : Keeps r s) :
    Keeps r (State.failedDraws s u) := by
  unfold State.failedDraws
  with_reducible repeat' first | simp only [keeps_mk_iff] | split | apply_assumption

theorem keeps_detect {r s : State} (u op : Nat) (event inst : Nat) (injected : Bool) (h : Keeps r s) :
    Keeps r (State.detect s u op event inst injected).2 := by
  unfold State.detect
  with_reducible repeat' first | apply keeps_stormArm | apply keeps_countFail | apply keeps_sat | apply keeps_record | apply keeps_stormIdle | simp only [keeps_mk_iff] | apply_assumption

theorem keeps_failStep {r s : State} (u op : Nat) (event inst : Nat) (o : Option LongOp) (h : Keeps r s) :
    Keeps r (State.failStep s u op event inst o) := by
  unfold State.failStep
  with_reducible repeat' first | apply keeps_detect | apply keeps_fenceCore | apply keeps_replayFrom | apply keeps_failedDraws | simp only [keeps_mk_iff] | split | apply_assumption

theorem keeps_stateLost {r s : State} (u op inst : Nat) (h : Keeps r s) :
    Keeps r (State.stateLost s u op inst) := by
  unfold State.stateLost
  with_reducible repeat' first | apply keeps_fenceCore | apply keeps_detect | apply_assumption

theorem keeps_clearCounts {r s : State} (u : Nat) (h : Keeps r s) :
    Keeps r (State.clearCounts s u) := by
  unfold State.clearCounts
  with_reducible repeat' first | apply keeps_put | apply_assumption

end Sys2Proof.Machine
end

