-- ==== Sys2Proof/Laws/KeepsStreams.lean ====
section
/-! SUPPORT. One lemma for each operation of streams, routing, the network and HBM: what it keeps (Laws/Keeps.lean). -/

namespace Sys2Proof.Machine

/-! Operations of Machine/Clocks.lean. -/

theorem keeps_ceilShow {r s : State} (r' : Nat) (h : Keeps r s) :
    Keeps r (State.ceilShow s r') := by
  unfold State.ceilShow
  with_reducible repeat' first | apply keeps_put | apply_assumption

theorem keeps_setCeil {r s : State} (k : Loop) (r' : Nat) (c : Option Nat) (h : Keeps r s) :
    Keeps r (State.setCeil s k r' c) := by
  unfold State.setCeil
  with_reducible repeat' first | apply keeps_ceilShow | simp only [keeps_mk_iff] | apply_assumption

/-! Operations of Machine/Integrity.lean. -/

theorem keeps_copyRange {r s : State} (src dst n : Nat) (h : Keeps r s) :
    Keeps r (State.copyRange s src dst n) := by
  unfold State.copyRange
  exact keeps_forEach _ _ (fun c t ht => keeps_mem _ (fun x => mwf_mput zeroB _ _ _ x) ht) _ (keeps_clearRange _ _ h)

theorem keeps_copyReads {r s : State} (u : Nat) (bad : List Nat) (h : Keeps r s) :
    Keeps r (State.copyReads s u bad) := by
  unfold State.copyReads
  with_reducible repeat' first | intro _ | apply keeps_poisonRow | apply keeps_dropUpset | apply keeps_parityEvent | apply keeps_forEach | split | apply_assumption

theorem keeps_movePoison {r s : State} (src dst : Nat) (h : Keeps r s) :
    Keeps r (State.movePoison s src dst) := by
  unfold State.movePoison
  with_reducible repeat' first | apply keeps_cleanRange | simp only [keeps_mk_iff] | apply_assumption

theorem keeps_moveArch {r s : State} (old new : Nat) (h : Keeps r s) :
    Keeps r (State.moveArch s old new) := by
  unfold State.moveArch
  with_reducible repeat' first | simp only [keeps_mk_iff] | apply_assumption

theorem keeps_moveWaits {r s : State} (old new : Nat) (h : Keeps r s) :
    Keeps r (State.moveWaits s old new) := by
  unfold State.moveWaits
  with_reducible repeat' first | simp only [keeps_mk_iff] | apply_assumption

theorem keeps_moveRegs {r s : State} (old new state : Nat) (h : Keeps r s) :
    Keeps r (State.moveRegs s old new state) := by
  unfold State.moveRegs
  with_reducible repeat' first | intro _ | apply keeps_setReg | apply keeps_put | apply keeps_forEach | apply_assumption

theorem keeps_moveReplays {r s : State} (old new : Nat) (h : Keeps r s) :
    Keeps r (State.moveReplays s old new) := by
  unfold State.moveReplays
  with_reducible repeat' first | simp only [keeps_mk_iff] | apply_assumption

theorem keeps_moveCore {r s : State} (t' : Takeover) (lost : Bool) (h : Keeps r s) :
    Keeps r (State.moveCore s t' lost) := by
  unfold State.moveCore
  with_reducible repeat' first | apply keeps_movePoison | apply keeps_copyRange | apply keeps_clearSlot | apply keeps_absorb | apply keeps_dropReplays | apply keeps_wipeLogical | apply keeps_wipeCore | apply keeps_withdrawCore | apply keeps_moveReplays | apply keeps_moveWaits | apply keeps_moveRegs | apply keeps_moveArch | apply keeps_setMap | split | apply_assumption

theorem keeps_addRedo {r s : State} (u : Nat) (h : Keeps r s) :
    Keeps r (State.addRedo s u) := by
  unfold State.addRedo
  with_reducible repeat' first | simp only [keeps_mk_iff] | apply_assumption

theorem keeps_startRun {r s : State} (u : Nat) (forced : Bool) (leased : Option Nat) (h : Keeps r s) :
    Keeps r (State.startRun s u forced leased) := by
  unfold State.startRun
  with_reducible repeat' first | apply keeps_put | simp only [keeps_mk_iff] | apply_assumption

theorem keeps_dressOld {r s : State} (t' : Takeover) (h : Keeps r s) :
    Keeps r (State.dressOld s t') := by
  unfold State.dressOld
  with_reducible repeat' first | apply keeps_put | apply keeps_addRedo | apply keeps_startRun | apply keeps_ite | apply_assumption

theorem keeps_takeoverEnd {r s : State} (t' : Takeover) (lost : Bool) (rows : List Nat) (h : Keeps r s) :
    Keeps r (State.takeoverEnd s t' lost rows) := by
  unfold State.takeoverEnd
  with_reducible repeat' first | intro _ | apply keeps_stick | apply keeps_event | apply keeps_wrap | apply keeps_sat | apply keeps_showTakeover | apply keeps_strandCore | apply keeps_dressOld | apply keeps_feed | apply keeps_nextTakeover | simp only [keeps_mk_iff] | apply keeps_when | split | apply_assumption

theorem keeps_sameRow {r s : State} (c : Nat) (dead : List (Nat × Nat)) (h : Keeps r s) :
    Keeps r (State.sameRow s c dead) := by
  unfold State.sameRow
  with_reducible repeat' first | intro _ | apply keeps_goneCore | simp only [keeps_mk_iff] | apply keeps_forEach | split | apply_assumption

theorem keeps_probe {r s : State} (c x : Nat) (silent : Bool) (h : Keeps r s) :
    Keeps r (State.probe s c x silent) := by
  unfold State.probe
  with_reducible repeat' first | apply keeps_fenceCore | apply keeps_event | simp only [keeps_mk_iff] | split | apply_assumption

theorem keeps_startDress {r s : State} (u : Nat) (h : Keeps r s) :
    Keeps r (State.startDress s u) := by
  unfold State.startDress
  with_reducible repeat' first | intro _ | apply keeps_stick | apply keeps_startRun | apply keeps_startTakeover | apply keeps_when | apply keeps_ite | apply_assumption

theorem keeps_overdueCheck {r s : State} (u : Nat) (h : Keeps r s) :
    Keeps r (State.overdueCheck s u) := by
  unfold State.overdueCheck
  with_reducible repeat' first | apply keeps_stick | apply keeps_record | simp only [keeps_mk_iff] | split | apply_assumption

theorem keeps_showOverdue {r s : State} (h : Keeps r s) :
    Keeps r (State.showOverdue s) := by
  unfold State.showOverdue
  with_reducible repeat' first | apply keeps_put | apply_assumption

theorem keeps_leaseRuns {r s : State} (h : Keeps r s) :
    Keeps r (State.leaseRuns s) := by
  unfold State.leaseRuns
  with_reducible repeat' first | intro _ | apply keeps_startRun | apply keeps_forEach | split | apply_assumption

theorem keeps_scrubSlot {r s : State} (u : Nat) (h : Keeps r s) :
    Keeps r (State.scrubSlot s u) := by
  unfold State.scrubSlot
  with_reducible repeat' first | apply keeps_cleanRange | apply keeps_clearRange | simp only [keeps_mk_iff] | apply_assumption

theorem keeps_leaseResult {r s : State} (c l r' : Nat) (h : Keeps r s) :
    Keeps r (State.leaseResult s c l r') := by
  unfold State.leaseResult
  with_reducible repeat' first | simp only [keeps_mk_iff] | apply_assumption

theorem keeps_endRun {r s : State} (d : Dressing) (h : Keeps r s) :
    Keeps r (State.endRun s d) := by
  unfold State.endRun
  with_reducible repeat' first | apply keeps_put | simp only [keeps_mk_iff] | apply_assumption

theorem keeps_runRecord {r s : State} (d : Dressing) (event outcome : Nat) (h : Keeps r s) :
    Keeps r (State.runRecord s d event outcome) := by
  unfold State.runRecord
  with_reducible repeat' first | apply keeps_record | apply_assumption

theorem keeps_dressEnd {r s : State} (u verdict : Nat) (d : Dressing) (h : Keeps r s) :
    Keeps r (State.dressEnd s u verdict d) := by
  unfold State.dressEnd
  with_reducible repeat' first | apply keeps_scrubSlot | apply keeps_endRun | apply keeps_setSpare | apply keeps_leaseResult | apply keeps_wrap | apply keeps_showOverdue | apply keeps_runRecord | apply keeps_stick | apply keeps_sat | apply keeps_fenceCore | apply keeps_addRedo | simp only [keeps_mk_iff] | split | apply_assumption

theorem keeps_ledgerAdvance {r s : State} (v : Nat) (h : Keeps r s) :
    Keeps r (State.ledgerAdvance s v) := by
  unfold State.ledgerAdvance
  with_reducible repeat' first | apply keeps_put | apply keeps_ite | apply_assumption

theorem keeps_mirrorSet {r s : State} (v : Nat) (h : Keeps r s) :
    Keeps r (State.mirrorSet s v) := by
  unfold State.mirrorSet
  with_reducible repeat' first | intro _ | apply keeps_put | apply keeps_physWrite | apply keeps_forEach | apply keeps_ite | apply_assumption

/-! Operations of Machine/Streams.lean. -/

theorem keeps_arm {r s : State} (id : Nat) (h : Keeps r s) :
    Keeps r (State.arm s id) := by
  unfold State.arm
  with_reducible repeat' first | apply keeps_record | apply keeps_stick | apply keeps_put | simp only [keeps_mk_iff] | split | apply_assumption

theorem keeps_word7 {r s : State} (id : Nat) (w : Word) (h : Keeps r s) :
    Keeps r (State.word7 s id w) := by
  unfold State.word7
  with_reducible repeat' first | apply keeps_put | apply keeps_writeRw | apply keeps_arm | apply keeps_stick | apply keeps_ite | apply_assumption

theorem keeps_entryWrite {r s : State} (id k : Nat) (w : Word) (h : Keeps r s) :
    Keeps r (State.entryWrite s id k w) := by
  unfold State.entryWrite
  with_reducible repeat' first | apply keeps_put | apply keeps_stick | apply keeps_word7 | apply keeps_writeRw | simp only [keeps_mk_iff] | split | apply_assumption

theorem keeps_entryAct {r s : State} (rq : Rq) (id : Nat) (w : Word) (b : Bool) (h : Keeps r s) :
    ∀ t, State.entryAct s rq id w b = .next t → Keeps r t := by
  intro t e
  unfold State.entryAct at e
  refine keeps_guard _ _ ?_ ?_ _ e
  all_goals (with_reducible repeat' first | intro _ | apply keeps_csAct | apply keeps_entryWrite | apply_assumption)

theorem keeps_pickGo {r : State} (n : Nat) {s : State} (todo : List (Option Nat × Nat)) (acc : List Nat) (h : Keeps r s) :
    Keeps r (State.pickGo n s todo acc).2 := by
  induction n generalizing s todo acc with
  | zero => exact h
  | succ n ih =>
    unfold State.pickGo
    dsimp only
    split
    · exact h
    · exact ih _ _ (keeps_setOstler _ _ h)

theorem keeps_schedLeave {r s : State} (left : List Nat) (h : Keeps r s) :
    Keeps r (State.schedLeave s left) := by
  unfold State.schedLeave
  with_reducible repeat' first | apply keeps_setOstler | apply_assumption

theorem keeps_release {r s : State} (id : Nat) (h : Keeps r s) :
    Keeps r (State.release s id) := by
  unfold State.release
  with_reducible repeat' first | intro _ | apply keeps_put | apply keeps_wrap | apply keeps_trace | apply keeps_record | apply keeps_streamFault | simp only [keeps_mk_iff] | apply keeps_when | split | apply_assumption

theorem keeps_boundary {r s : State} (h : Keeps r s) :
    Keeps r (State.boundary s) := by
  unfold State.boundary
  with_reducible repeat' first | intro _ | apply keeps_pickGo | apply keeps_schedLeave | apply keeps_release | apply keeps_stick | simp only [keeps_mk_iff] | apply keeps_forEach | apply keeps_when | apply_assumption

theorem keeps_boundaryLost {r s : State} (h : Keeps r s) :
    Keeps r (State.boundaryLost s) := by
  unfold State.boundaryLost
  with_reducible repeat' first | apply keeps_event | simp only [keeps_mk_iff] | apply_assumption

theorem keeps_dropAhead {r s : State} (c i : Nat) (h : Keeps r s) :
    Keeps r (State.dropAhead s c i) := by
  unfold State.dropAhead
  with_reducible repeat' first | simp only [keeps_mk_iff] | apply_assumption

theorem keeps_stopAct {r s : State} (rq : Rq) (id : Nat) (h : Keeps r s) :
    Keeps r (State.stopAct s rq id) := by
  unfold State.stopAct
  with_reducible repeat' first | apply keeps_streamStop | apply keeps_stick | apply keeps_refuse | apply keeps_ite | split | apply_assumption

theorem keeps_recFault {r s : State} (x : Iss) (event : Nat) (detail : optParam (List (BitVec 8)) []) (h : Keeps r s) :
    Keeps r (State.recFault s x event detail) := by
  unfold State.recFault
  with_reducible repeat' first | apply keeps_streamFault | apply_assumption

theorem keeps_goto {r s : State} (x : Iss) (pos : Nat) (h : Keeps r s) :
    Keeps r (State.goto s x pos) := by
  unfold State.goto
  with_reducible repeat' first | apply keeps_put | apply_assumption

theorem keeps_recDone {r s : State} (x : Iss) (h : Keeps r s) :
    Keeps r (State.recDone s x) := by
  unfold State.recDone
  with_reducible repeat' first | apply keeps_completed | apply keeps_goto | apply_assumption

theorem keeps_beginWait {r s : State} (x : Iss) (code obj need : Nat) (timed : Bool) (cores : List Nat) (h : Keeps r s) :
    Keeps r (State.beginWait s x code obj need timed cores) := by
  unfold State.beginWait
  with_reducible repeat' first | apply keeps_trace | apply keeps_put | apply keeps_setWait | simp only [keeps_mk_iff] | apply_assumption

theorem keeps_block {r s : State} (x : Iss) (code obj need : Nat) (timed : Bool) (cores : List Nat) (h : Keeps r s) :
    Keeps r (State.block s x code obj need timed cores) := by
  unfold State.block
  with_reducible repeat' first | apply keeps_beginWait | apply keeps_goto | apply_assumption

theorem keeps_waitAt {r s : State} (x : Iss) (code : Nat) (timed : Bool) (h : Keeps r s) :
    ∀ t, State.waitAt s x code timed = some t → Keeps r t := by
  intro t e
  unfold State.waitAt at e
  split at e
  · exact absurd e.symm (Option.some_ne_none _)
  · exact keeps_some (keeps_beginWait _ _ _ _ _ _ h) e

theorem keeps_waitOver {r s : State} (x : Iss) (h : Keeps r s) :
    Keeps r (State.waitOver s x) := by
  unfold State.waitOver
  with_reducible repeat' first | apply keeps_trace | apply keeps_put | apply keeps_setWait | split | apply_assumption

theorem keeps_vet {r s : State} (x : Iss) (run : Iss → State → Option State) (h : Keeps r s)
    (h_run : ∀ a0 a1, Keeps r a1 → ∀ t, run a0 a1 = some t → Keeps r t) :
    ∀ t, State.vet s x run = some t → Keeps r t := by
  intro t e
  unfold State.vet at e
  dsimp only at e
  split at e
  · exact keeps_some (keeps_recFault _ _ _ h) e
  · split at e
    · exact keeps_some (keeps_recFault _ _ _ h) e
    · split at e
      · exact keeps_waitAt _ _ _ h _ e
      · split at e
        · exact keeps_waitAt _ _ _ h _ e
        · split at e
          · exact h_run _ _ (keeps_waitOver _ h) _ e
          · exact h_run _ _ (keeps_trace _ _ _ _ _ _ _ (keeps_waitOver _ h)) _ e

theorem keeps_readRec {r s : State} (c pos : Nat) (h : Keeps r s) :
    Keeps r (State.readRec s c pos).2 := by
  unfold State.readRec
  with_reducible repeat' first | apply keeps_readMem | refine keeps_of_eq (by assumption) ?_ | split | apply_assumption

theorem keeps_fetchRec {r s : State} (c i pos : Nat) (h : Keeps r s) :
    Keeps r (State.fetchRec s c i pos).2 := by
  unfold State.fetchRec
  with_reducible repeat' first | apply keeps_readRec | apply keeps_draw | refine keeps_of_eq (by assumption) ?_ | split | apply_assumption

theorem keeps_fetchAhead {r : State} (c i : Nat) (x2 x3 : Nat) {x4 : State} (h : Keeps r x4) :
    Keeps r (State.fetchAhead c i x2 x3 x4) := by
  induction x2 generalizing x3 x4 with
  | zero => exact h
  | succ n ih =>
    unfold State.fetchAhead
    split
    · exact ih _ h
    · split
      · rename_i ws t e
        have ht := keeps_of_eq e (keeps_readRec _ _ h)
        exact ih _ (keeps_mk _ _ _ _ _ _ _ _ _ _ _ _ _ _ _ _ _ ht)
      · exact h

theorem keeps_ahead {r s : State} (c i : Nat) (h : Keeps r s) :
    Keeps r (State.ahead s c i) := by
  unfold State.ahead
  with_reducible repeat' first | apply keeps_dropAhead | apply keeps_fetchAhead | simp only [keeps_mk_iff] | split | apply_assumption

theorem keeps_issueRec {r s : State} (c i : Nat) (kind : Nat → Bool) (run : Iss → State → Option State) (h : Keeps r s)
    (h_run : ∀ a0 a1, Keeps r a1 → ∀ t, run a0 a1 = some t → Keeps r t) :
    ∀ t, State.issueRec s c i kind run = .next t → Keeps r t := by
  unfold State.issueRec
  refine keeps_guard _ _ h (fun s h => ?_)
  dsimp only
  split
  · exact h
  · rename_i t e
    exact keeps_streamFault _ _ _ _ _ (keeps_of_eq e (keeps_fetchRec _ _ _ h))
  · rename_i ws t e
    have ht := keeps_of_eq e (keeps_fetchRec _ _ _ h)
    split
    · refine keeps_getD _ ?_ h
      intro v ev
      obtain ⟨w, ew, rfl⟩ := Option.map_eq_some_iff.mp ev
      exact keeps_ahead _ _ (keeps_vet _ _ ht h_run _ ew)
    · exact h

theorem keeps_issueNow {r s : State} (c i opc : Nat) (run : Iss → State → State) (h : Keeps r s)
    (h_run : ∀ a0 a1, Keeps r a1 → Keeps r (run a0 a1)) :
    ∀ t, State.issueNow s c i opc run = .next t → Keeps r t := by
  intro t e
  unfold State.issueNow at e
  exact keeps_issueRec c i _ _ h (fun a b hb t e => by cases e; exact h_run _ _ hb) _ e

theorem keeps_timeOut {r s : State} (id way : Nat) (since obj : Nat) (value need writer : Nat) (h : Keeps r s) :
    Keeps r (State.timeOut s id way since obj value need writer) := by
  unfold State.timeOut
  with_reducible repeat' first | apply keeps_streamFault | simp only [keeps_mk_iff] | apply_assumption

theorem keeps_endingCheck {r s : State} (id : Nat) (h : Keeps r s) :
    Keeps r (State.endingCheck s id) := by
  unfold State.endingCheck
  with_reducible repeat' first | apply keeps_endIfQuiet | simp only [keeps_mk_iff] | split | apply_assumption

theorem keeps_launchDone {r s : State} (x : Launch) (h : Keeps r s) :
    Keeps r (State.launchDone s x) := by
  unfold State.launchDone
  with_reducible repeat' first | apply keeps_sendSignal | apply keeps_endingCheck | apply keeps_completed | simp only [keeps_mk_iff] | split | apply_assumption

/-! Operations of Machine/Commands.lean. -/

theorem keeps_readPack {r s : State} (x : Iss) (h : Keeps r s) :
    Keeps r (State.readPack s x).2 := by
  unfold State.readPack
  with_reducible repeat' first | apply keeps_readMem | simp only | refine keeps_of_eq (by assumption) ?_ | split | apply_assumption

theorem keeps_tensor {r : State} (x : Iss) {s : State} (h : Keeps r s) :
    ∀ t, State.tensor x s = some t → Keeps r t := by
  intro t e
  unfold State.tensor at e
  (repeat' split at e) <;> first | (cases e; done) | (refine keeps_some ?_ e; with_reducible repeat' first | apply keeps_recFault | apply keeps_readPack | simp only [keeps_mk_iff] | refine keeps_of_eq (by assumption) ?_ | apply_assumption; done)

theorem keeps_addLaunch {r s : State} (c id : Nat) (way opc : Nat) (cores : List Nat) (sig : Option (Nat × Nat)) (h : Keeps r s) :
    Keeps r (State.addLaunch s c id way opc cores sig) := by
  unfold State.addLaunch
  with_reducible repeat' first | simp only [keeps_mk_iff] | apply_assumption

theorem keeps_aheadOfStream {r s : State} (id : Nat) (h : Keeps r s) :
    Keeps r (State.aheadOfStream s id) := by
  unfold State.aheadOfStream
  with_reducible repeat' first | apply keeps_ahead | split | apply_assumption

theorem keeps_deliver {r s : State} (t' : Tensor) (ls : List Nat) (h : Keeps r s) :
    Keeps r (State.deliver s t' ls) := by
  unfold State.deliver
  with_reducible repeat' first | apply keeps_trace | apply keeps_addLaunch | apply keeps_aheadOfStream | apply keeps_put | simp only [keeps_mk_iff] | apply_assumption

theorem keeps_readArgs {r : State} (x : Iss) {s : State} (l : List Nat) (h : Keeps r s) :
    Keeps r (State.readArgs x s l).2 := by
  induction l generalizing s with
  | nil => exact h
  | cons a l ih =>
    unfold State.readArgs
    dsimp only
    have hq := keeps_readMem (.seqFetch x.c x.org) (x.bits 3 0 40 + a * x.bits 4 0 32) 64 h
    split
    · rename_i e
      rw [e] at hq
      exact hq
    · rename_i e
      rw [e] at hq
      exact hq
    · rename_i t e
      rw [e] at hq
      have hr := ih (s := t) hq
      split
      · rename_i e2
        rw [e2] at hr
        exact hr
      · exact hr

theorem keeps_startCores {r s : State} (x : Iss) (entry level : Nat) (args : List (Nat × List Word)) (h : Keeps r s) :
    Keeps r (State.startCores s x entry level args) := by
  unfold State.startCores
  with_reducible repeat' first | apply keeps_goto | apply keeps_addLaunch | simp only [keeps_mk_iff] | apply_assumption

theorem keeps_callCores {r s : State} (x : Iss) (h' : List (BitVec 8)) (h : Keeps r s) :
    ∀ t, State.callCores s x h' = some t → Keeps r t := by
  intro t e
  unfold State.callCores at e
  dsimp only at e
  (repeat' split at e) <;> first | (cases e; done) | (refine keeps_some ?_ e; with_reducible repeat' first | apply keeps_recFault | apply keeps_readArgs | apply keeps_startCores | refine keeps_of_eq (by assumption) ?_ | apply_assumption; done)

theorem keeps_callCore {r : State} (x : Iss) {s : State} (h : Keeps r s) :
    ∀ t, State.callCore x s = some t → Keeps r t := by
  intro t e
  unfold State.callCore at e
  (repeat' split at e) <;> first | (cases e; done) | (refine keeps_some ?_ e; with_reducible repeat' first | apply keeps_recFault | apply keeps_readMem | refine keeps_of_eq (by assumption) ?_ | apply_assumption; done) | (refine keeps_callCores _ _ ?_ _ e; all_goals (with_reducible repeat' first | apply keeps_recFault | apply keeps_readMem | refine keeps_of_eq (by assumption) ?_ | apply_assumption); done)

theorem keeps_loadArgs {r s : State} (u : Nat) (args : List Word) (h : Keeps r s) :
    Keeps r (State.loadArgs s u args) := by
  unfold State.loadArgs
  with_reducible repeat' first | intro _ | apply keeps_icInv | apply keeps_setS | simp only [keeps_mk_iff] | apply keeps_forEach | apply_assumption

theorem keeps_programRegs {r s : State} (u entry level : Nat) (h : Keeps r s) :
    Keeps r (State.programRegs s u entry level) := by
  unfold State.programRegs
  with_reducible repeat' first | apply keeps_setReg | apply keeps_put | apply keeps_setPc | apply_assumption

theorem keeps_levelUsed {r s : State} (c level : Nat) (h : Keeps r s) :
    Keeps r (State.levelUsed s c level) := by
  unfold State.levelUsed
  with_reducible repeat' first | apply keeps_putBit | split | apply_assumption

theorem keeps_programOf {r s : State} (u : Nat) (x : CoreStart) (h : Keeps r s) :
    Keeps r (State.programOf s u x) := by
  unfold State.programOf
  with_reducible repeat' first | simp only [keeps_mk_iff] | apply_assumption

theorem keeps_startProgram {r s : State} (u : Nat) (x : CoreStart) (h : Keeps r s) :
    Keeps r (State.startProgram s u x) := by
  unfold State.startProgram
  with_reducible repeat' first | apply keeps_clearWait | apply keeps_levelUsed | apply keeps_programOf | apply keeps_programRegs | apply keeps_loadArgs | simp only [keeps_mk_iff] | apply_assumption

theorem keeps_dmaStop {r : State} {t' : State} (x : Iss) (list : Nat) (x3 : DErr) (h : Keeps r t') :
    ∀ t, State.dmaStop t' x list x3 = some t → Keeps r t := by
  intro t e
  unfold State.dmaStop at e
  (repeat' split at e) <;> first | (cases e; done) | (refine keeps_some ?_ e; with_reducible repeat' first | apply keeps_recFault | apply_assumption; done)

theorem keeps_listedRuns {r : State} (j : DmaJob) (h' : List Nat) (x2 x3 : Nat) {x4 : State} (h : Keeps r x4) :
    Keeps r (State.listedRuns j h' x2 x3 x4).2 := by
  induction x2 generalizing x3 x4 with
  | zero => exact h
  | succ n ih =>
    unfold State.listedRuns
    have hq := keeps_entryIx j (h'.getD 0 0) (h'.getD 1 0) x3 h
    split
    · rename_i e
      rw [e] at hq
      exact hq
    · rename_i e
      rw [e] at hq
      exact ih _ hq

theorem keeps_listedTransfer {r s : State} (j : DmaJob) (hs : List Nat) (h : Keeps r s) :
    Keeps r (s.listedTransfer j hs).2 := by
  unfold State.listedTransfer
  dsimp only
  have h0 := keeps_listedRuns j hs (j.units hs) 0 h
  split
  · exact h0
  · have hq := keeps_runAll (fun s (p : Int × Int) => s.moveRun j.rq j.len p.1 p.2) (fun t x ht => keeps_moveRun _ _ _ _ ht)
      (State.listedRuns j hs (j.units hs) 0 s).1.1 h0
    split
    · rename_i e
      rw [e] at hq
      exact hq
    · exact hq

theorem keeps_recTransfer {r s : State} (j : DmaJob) (op : Nat) (hs : List Nat) (h : Keeps r s) :
    Keeps r (s.recTransfer j op hs).2 := by
  unfold State.recTransfer
  split
  · exact keeps_listedTransfer _ _ h
  · split
    · exact h
    · exact keeps_runAll _ (fun t x ht => keeps_dmaUnit _ _ _ _ ht) _ h

theorem keeps_transferDone {r s : State} (x : Iss) (j : DmaJob) (units : Nat) (h : Keeps r s) :
    Keeps r (State.transferDone s x j units) := by
  unfold State.transferDone
  with_reducible repeat' first | intro _ | apply keeps_goto | apply keeps_addLaunch | apply keeps_launchDone | apply keeps_awaitAck | apply keeps_forEach | split | apply_assumption

theorem keeps_seqTransfer {r s : State} (x : Iss) (j : DmaJob) (h : Keeps r s) :
    ∀ t, State.seqTransfer s x j = some t → Keeps r t := by
  intro t e
  unfold State.seqTransfer at e
  dsimp only at e
  split at e
  · exact keeps_dmaStop _ _ _ h _ e
  · split at e
    · exact keeps_some (keeps_transferDone _ _ _ h) e
    · split at e
      · rename_i e2
        exact keeps_dmaStop _ _ _ (keeps_of_eq e2 (keeps_dmaHeader _ h)) _ e
      · rename_i e2
        have hd := keeps_of_eq e2 (keeps_dmaHeader _ h)
        split at e
        · rename_i e3
          exact keeps_dmaStop _ _ _ (keeps_of_eq e3 (keeps_recTransfer _ _ _ hd)) _ e
        · rename_i e3
          exact keeps_some (keeps_transferDone _ _ _ (keeps_of_eq e3 (keeps_recTransfer _ _ _ hd))) e

theorem keeps_dmaRec {r : State} (x : Iss) {s : State} (h : Keeps r s) :
    ∀ t, State.dmaRec x s = some t → Keeps r t := by
  intro t e
  unfold State.dmaRec at e
  dsimp only at e
  (repeat' split at e) <;> first | (cases e; done) | (refine keeps_some ?_ e; with_reducible repeat' first | apply keeps_recFault | apply keeps_readMem | refine keeps_of_eq (by assumption) ?_ | apply_assumption; done) | (refine keeps_seqTransfer _ _ ?_ _ e; all_goals (with_reducible repeat' first | apply keeps_recFault | apply keeps_readMem | refine keeps_of_eq (by assumption) ?_ | apply_assumption); done)

theorem keeps_semSignalRec {r : State} (x : Iss) {s : State} (h : Keeps r s) :
    Keeps r (State.semSignalRec x s) := by
  unfold State.semSignalRec
  with_reducible repeat' first | apply keeps_recDone | apply keeps_sendSignal | apply_assumption

theorem keeps_semWaitRec {r : State} (x : Iss) {s : State} (h : Keeps r s) :
    Keeps r (State.semWaitRec x s) := by
  unfold State.semWaitRec
  with_reducible repeat' first | apply keeps_recDone | apply keeps_block | simp only [keeps_mk_iff] | split | apply_assumption

theorem keeps_flagBad {r s : State} (x : Iss) (h : Keeps r s) :
    Keeps r (State.flagBad s x) := by
  unfold State.flagBad
  with_reducible repeat' first | apply keeps_recFault | apply keeps_flagRefuse | apply_assumption

theorem keeps_flagSetRec {r : State} (x : Iss) {s : State} (h : Keeps r s) :
    Keeps r (State.flagSetRec x s) := by
  unfold State.flagSetRec
  with_reducible repeat' first | apply keeps_recFault | apply keeps_flagBad | apply keeps_recDone | apply keeps_flagOp | split | apply_assumption

theorem keeps_flagWaitRec {r : State} (x : Iss) {s : State} (h : Keeps r s) :
    Keeps r (State.flagWaitRec x s) := by
  unfold State.flagWaitRec
  with_reducible repeat' first | apply keeps_recFault | apply keeps_flagBad | apply keeps_recDone | apply keeps_block | split | apply_assumption

theorem keeps_waveInterval {r s : State} (h : Keeps r s) :
    Keeps r (State.waveInterval s).2 := by
  unfold State.waveInterval
  with_reducible repeat' first | apply keeps_draw | split | apply_assumption

theorem keeps_generationDone {r s : State} (b : Nat) (h : Keeps r s) :
    Keeps r (State.generationDone s b) := by
  unfold State.generationDone
  with_reducible repeat' first | apply keeps_waveInterval | apply keeps_put | simp only [keeps_mk_iff] | apply_assumption

theorem keeps_arrive {r s : State} (x : Iss) (b n : Nat) (h : Keeps r s) :
    Keeps r (State.arrive s x b n) := by
  unfold State.arrive
  with_reducible repeat' first | apply keeps_wrap | apply keeps_put | apply keeps_block | apply keeps_generationDone | simp only [keeps_mk_iff] | split | apply_assumption

theorem keeps_barrierRec {r : State} (x : Iss) {s : State} (h : Keeps r s) :
    Keeps r (State.barrierRec x s) := by
  unfold State.barrierRec
  with_reducible repeat' first | apply keeps_recDone | apply keeps_recFault | apply keeps_arrive | apply keeps_ite | apply_assumption

theorem keeps_releaseWave {r s : State} (b g : Nat) (c t' : Nat) (h : Keeps r s) :
    Keeps r (State.releaseWave s b g c t') := by
  unfold State.releaseWave
  with_reducible repeat' first | intro _ | apply keeps_waitMet | simp only [keeps_mk_iff] | apply keeps_forEach | apply_assumption

theorem keeps_waitTimeRec {r : State} (x : Iss) {s : State} (h : Keeps r s) :
    Keeps r (State.waitTimeRec x s) := by
  unfold State.waitTimeRec
  with_reducible repeat' first | apply keeps_recDone | apply keeps_block | apply keeps_ite | apply_assumption

theorem keeps_reduceQRec {r : State} (x : Iss) {s : State} (h : Keeps r s) :
    Keeps r (State.reduceQRec x s) := by
  unfold State.reduceQRec
  with_reducible repeat' first | apply keeps_recFault | apply keeps_reduceCheck | apply keeps_block | split | apply_assumption

theorem keeps_branchTo {r s : State} (x : Iss) (h : Keeps r s) :
    ∀ t, State.branchTo s x = some t → Keeps r t := by
  intro t e
  unfold State.branchTo at e
  dsimp only at e
  (repeat' split at e) <;> first | (cases e; done) | (refine keeps_some ?_ e; with_reducible repeat' first | apply keeps_recFault | apply keeps_readMem | apply keeps_dropAhead | apply keeps_goto | apply keeps_recDone | apply keeps_trace | refine keeps_of_eq (by assumption) ?_ | apply_assumption; done)

theorem keeps_branchRec {r : State} (x : Iss) {s : State} (h : Keeps r s) :
    ∀ t, State.branchRec x s = some t → Keeps r t := by
  intro t e
  unfold State.branchRec at e
  dsimp only at e
  (repeat' split at e) <;> first | (refine keeps_some ?_ e; with_reducible repeat' first | apply keeps_recFault | apply keeps_setReg | apply keeps_recDone | apply_assumption; done) | (refine keeps_branchTo _ ?_ _ e; all_goals (with_reducible repeat' first | apply keeps_recFault | apply keeps_setReg | apply keeps_recDone | apply_assumption); done)

theorem keeps_markRec {r : State} (x : Iss) {s : State} (h : Keeps r s) :
    Keeps r (State.markRec x s) := by
  unfold State.markRec
  with_reducible repeat' first | apply keeps_recDone | apply keeps_put | apply keeps_trace | simp only [keeps_mk_iff] | split | apply_assumption

theorem keeps_endRec {r : State} (x : Iss) {s : State} (h : Keeps r s) :
    Keeps r (State.endRec x s) := by
  unfold State.endRec
  with_reducible repeat' first | apply keeps_endIfQuiet | apply keeps_completed | apply_assumption

theorem keeps_flagWrite {r s : State} (rq : Rq) (op c : Nat) (k v : Nat) (h : Keeps r s) :
    ∀ t, State.flagWrite s rq op c k v = .next t → Keeps r t := by
  intro t e
  unfold State.flagWrite at e
  refine keeps_next ?_ e
  with_reducible repeat' first | intro _ | apply keeps_csAct | apply keeps_flagOp | apply_assumption

/-! Operations of Machine/Routing.lean. -/

theorem keeps_readBias {r s : State} (c : Nat) (d : Desc) (h : Keeps r s) :
    Keeps r (State.readBias s c d).2 := by
  unfold State.readBias
  with_reducible repeat' first | apply keeps_readMem | refine keeps_of_eq (by assumption) ?_ | split | apply_assumption

theorem keeps_routeWrites {r : State} (c : Nat) (d : Desc) {s : State} (l : List (Nat × List (BitVec 8))) (h : Keeps r s) :
    Keeps r (State.routeWrites c d s l).2 := by
  induction l generalizing s with
  | nil => exact h
  | cons p l ih =>
    obtain ⟨a, bs⟩ := p
    unfold State.routeWrites
    have hq := keeps_writeAll (.router c d.org) a bs h
    split
    · rename_i e
      rw [e] at hq
      exact ih hq
    · exact hq

theorem keeps_passOne {r : State} (c : Nat) (d : Desc) (bias : List (BitVec 32)) (key : Nat) (bad : Option Nat) (n k : Nat) {s : State}
    (h : Keeps r s) : Keeps r (State.passOne c d bias key bad n k s).2 := by
  induction n generalizing s k with
  | zero => exact h
  | succ n ih =>
    unfold State.passOne
    have hq := keeps_readMem (.router c d.org) (d.w 0 + k * d.pitch) (d.experts * d.size) h
    split
    · rename_i e
      rw [e] at hq
      exact hq
    · rename_i e
      rw [e] at hq
      exact hq
    · rename_i t e
      rw [e] at hq
      dsimp only
      split
      · exact hq
      · split
        · rename_i e2
          exact keeps_of_eq e2 (keeps_routeWrites _ _ _ hq)
        · rename_i e2
          exact keeps_of_eq e2 (keeps_routeWrites _ _ _ hq)
        · rename_i e2
          have hr := ih (k + 1) (keeps_of_eq e2 (keeps_routeWrites _ _ _ hq))
          split
          · rename_i e3
            rw [e3] at hr
            exact hr
          · exact hr

theorem keeps_passTwo {r : State} (c : Nat) (d : Desc) (starts : List Nat) {s : State} (l : List (Nat × Routed)) (filled : List Nat)
    (h : Keeps r s) : Keeps r (State.passTwo c d starts s l filled).2 := by
  induction l generalizing s filled with
  | nil => exact h
  | cons p l ih =>
    obtain ⟨k, x⟩ := p
    unfold State.passTwo
    have hq := keeps_readMem (.router c d.org) (d.scratchAt k) (4 * d.k) h
    split
    · rename_i e
      rw [e] at hq
      exact hq
    · rename_i e
      rw [e] at hq
      exact hq
    · rename_i e
      rw [e] at hq
      split
      · rename_i e2
        exact ih _ (keeps_of_eq e2 (keeps_routeWrites _ _ _ hq))
      · exact keeps_routeWrites _ _ _ hq

theorem keeps_routePasses {r s : State} (c : Nat) (d : Desc) (bad : Option Nat) (h : Keeps r s) :
    Keeps r (State.routePasses s c d bad).2 := by
  unfold State.routePasses
  with_reducible repeat' first | apply keeps_writeAll | apply keeps_readBias | apply keeps_draw | apply keeps_passOne | apply keeps_passTwo | simp only | refine keeps_of_eq (by assumption) ?_ | split | apply_assumption

theorem keeps_routeEvent {r s : State} (c e' : Nat) (outcome way addr : Nat) (h : Keeps r s) :
    Keeps r (State.routeEvent s c e' outcome way addr) := by
  unfold State.routeEvent
  with_reducible repeat' first | apply keeps_record | apply_assumption

theorem keeps_submitWay {r s : State} (c desc : Nat) (h : Keeps r s) :
    Keeps r (State.submitWay s c desc).2 := by
  unfold State.submitWay
  with_reducible repeat' first | apply keeps_readMem | refine keeps_of_eq (by assumption) ?_ | split | apply_assumption

theorem keeps_submitRefused {r s : State} (rq : Rq) (c desc e' : Nat) (h : Keeps r s) :
    Keeps r (State.submitRefused s rq c desc e') := by
  unfold State.submitRefused
  with_reducible repeat' first | apply keeps_submitWay | apply keeps_emit | apply keeps_routeEvent | apply_assumption

theorem keeps_submitJob {r s : State} (rq : Rq) (c desc : Nat) (h : Keeps r s) :
    Keeps r (State.submitJob s rq c desc) := by
  unfold State.submitJob
  with_reducible repeat' first | apply keeps_submitRefused | apply keeps_stick | apply keeps_wrap | simp only [keeps_mk_iff] | split | apply_assumption

theorem keeps_jobOver {r s : State} (c way : Nat) (result pairs : Nat) (h : Keeps r s) :
    Keeps r (State.jobOver s c way result pairs) := by
  unfold State.jobOver
  with_reducible repeat' first | apply keeps_wrap | apply keeps_put | simp only [keeps_mk_iff] | apply_assumption

theorem keeps_jobSignal {r s : State} (c : Nat) (d : Desc) (h : Keeps r s) :
    Keeps r (State.jobSignal s c d) := by
  unfold State.jobSignal
  with_reducible repeat' first | apply keeps_sendSignal | split | apply_assumption

theorem keeps_jobFailed {r s : State} (c : Nat) (d : Desc) (h : Keeps r s) :
    ∀ t, State.jobFailed s c d = some t → Keeps r t := by
  intro t e
  unfold State.jobFailed at e
  (repeat' split at e) <;> first | (cases e; done) | (refine keeps_some ?_ e; with_reducible repeat' first | apply keeps_jobOver | apply keeps_jobSignal | apply keeps_writeAll | apply keeps_stick | refine keeps_of_eq (by assumption) ?_ | apply_assumption; done)

theorem keeps_jobError {r s : State} (c : Nat) (d : Desc) (h : Keeps r s) :
    ∀ t, State.jobError s c d = some t → Keeps r t := by
  intro t e
  unfold State.jobError at e
  (repeat' split at e) <;> first | (refine keeps_jobFailed _ _ ?_ _ e; all_goals (with_reducible repeat' first | apply keeps_routeEvent | apply keeps_stick | apply_assumption); done)

theorem keeps_jobRefused {r s : State} (c desc : Nat) (d : Desc) (h : Keeps r s) :
    Keeps r (State.jobRefused s c desc d) := by
  unfold State.jobRefused
  with_reducible repeat' first | apply keeps_jobOver | apply keeps_jobSignal | apply keeps_routeEvent | apply keeps_stick | apply_assumption

theorem keeps_routerFence {r s : State} (c : Nat) (d : Desc) (h : Keeps r s) :
    ∀ t, State.routerFence s c d = some t → Keeps r t := by
  intro t e
  unfold State.routerFence at e
  obtain ⟨w, ew, rfl⟩ := Option.map_eq_some_iff.mp e
  exact keeps_stormTick _ (keeps_addDefect _ _ _ (keeps_put _ _ _ _
    (keeps_jobFailed _ _ (keeps_routeEvent _ _ _ _ _ (keeps_stick _ _ _ h)) _ ew)))

theorem keeps_routerMismatch {r s : State} (c : Nat) (d : Desc) (h : Keeps r s) :
    Keeps r (State.routerMismatch s c d) := by
  unfold State.routerMismatch
  with_reducible repeat' first | apply keeps_stormTick | apply keeps_routeEvent | apply keeps_stick | apply_assumption

theorem keeps_putJob {r s : State} (j : RouteJob) (h : Keeps r s) :
    Keeps r (State.putJob s j) := by
  unfold State.putJob
  with_reducible repeat' first | simp only [keeps_mk_iff] | apply_assumption

theorem keeps_runJob {r s : State} (c desc mism : Nat) (d : Desc) (bad : Option Nat) (h : Keeps r s) :
    ∀ t, State.runJob s c desc mism d bad = some t → Keeps r t := by
  intro t e
  unfold State.runJob at e
  have hq := keeps_routePasses c d bad h
  split at e
  · exact absurd e.symm (Option.some_ne_none _)
  · rename_i e2
    rw [e2] at hq
    exact keeps_jobError _ _ hq _ e
  · rename_i e2
    rw [e2] at hq
    split at e
    · exact keeps_some (keeps_putJob _ (keeps_routerMismatch _ _ hq)) e
    · exact keeps_routerFence _ _ hq _ e
  · rename_i e2
    rw [e2] at hq
    exact keeps_some (keeps_putJob _ hq) e

theorem keeps_takeJob {r s : State} (c desc : Nat) (h : Keeps r s) :
    Keeps r (State.takeJob s c desc) := by
  unfold State.takeJob
  with_reducible repeat' first | apply keeps_put | simp only [keeps_mk_iff] | apply_assumption

theorem keeps_startJob {r s : State} (c desc : Nat) (bad : Option Nat) (h : Keeps r s) :
    ∀ t, State.startJob s c desc bad = some t → Keeps r t := by
  intro t e
  unfold State.startJob at e
  dsimp only at e
  (repeat' split at e) <;> first | (cases e; done) | (refine keeps_some ?_ e; with_reducible repeat' first | apply keeps_takeJob | apply keeps_jobRefused | apply keeps_readMem | apply keeps_stick | refine keeps_of_eq (by assumption) ?_ | apply_assumption; done) | (refine keeps_runJob _ _ _ _ _ ?_ _ e; all_goals (with_reducible repeat' first | apply keeps_takeJob | apply keeps_jobRefused | apply keeps_readMem | apply keeps_stick | refine keeps_of_eq (by assumption) ?_ | apply_assumption); done)

theorem keeps_jobDone {r s : State} (j : RouteJob) (h : Keeps r s) :
    ∀ t, State.jobDone s j = some t → Keeps r t := by
  intro t e
  unfold State.jobDone at e
  dsimp only at e
  (repeat' split at e) <;> first | (cases e; done) | (refine keeps_some ?_ e; with_reducible repeat' first | apply keeps_routeWrites | apply keeps_jobOver | apply keeps_jobSignal | refine keeps_of_eq (by assumption) ?_ | apply_assumption; done) | (refine keeps_jobError _ _ ?_ _ e; all_goals (with_reducible repeat' first | apply keeps_routeWrites | apply keeps_jobOver | apply keeps_jobSignal | refine keeps_of_eq (by assumption) ?_ | apply_assumption); done)

theorem keeps_freeResp {r s : State} (id : Nat) (h : Keeps r s) :
    Keeps r (State.freeResp s id) := by
  unfold State.freeResp
  with_reducible repeat' first | apply keeps_sendAcked | simp only [keeps_mk_iff] | apply_assumption

theorem keeps_respError {r s : State} (r' : Resp) (addr : Nat) (h : Keeps r s) :
    Keeps r (State.respError s r' addr) := by
  unfold State.respError
  with_reducible repeat' first | apply keeps_coreFault | apply keeps_opFault | apply keeps_streamFault | split | apply_assumption

theorem keeps_respOk {r s : State} (r' : Resp) (h : Keeps r s) :
    Keeps r (State.respOk s r') := by
  unfold State.respOk
  with_reducible repeat' first | apply keeps_setOp | split | apply_assumption

theorem keeps_respIn {r s : State} (r' : Resp) (error addr : Nat) (h : Keeps r s) :
    Keeps r (State.respIn s r' error addr) := by
  unfold State.respIn
  with_reducible repeat' first | apply keeps_respOk | apply keeps_freeResp | apply keeps_respError | apply keeps_fenceCheck | apply keeps_feed | split | apply_assumption

theorem keeps_respTravel {r s : State} (n : Nat) (r' : Resp) (h : Keeps r s) :
    Keeps r (State.respTravel s n r').2 := by
  unfold State.respTravel
  with_reducible repeat' first | apply keeps_travel | split | apply_assumption

theorem keeps_respLost {r s : State} (n : Nat) (h : Keeps r s) :
    Keeps r (State.respLost s n) := by
  unfold State.respLost
  with_reducible repeat' first | apply keeps_putMsg | apply_assumption

/-! Operations of Machine/Network.lean. -/

theorem keeps_rqFault {r s : State} (rq : Rq) (op addr : Nat) (h : Keeps r s) :
    Keeps r (State.rqFault s rq op addr) := by
  unfold State.rqFault
  with_reducible repeat' first | intro _ | apply keeps_progFault | apply keeps_opFault | apply keeps_streamFault | refine keeps_jobError _ _ ?_ _ (by assumption) | apply keeps_getD | apply keeps_ite | split | apply_assumption

theorem keeps_retrain {r s : State} (i : Nat) (h : Keeps r s) :
    Keeps r (State.retrain s i) := by
  unfold State.retrain
  with_reducible repeat' first | intro _ | apply keeps_put | apply keeps_when | apply_assumption

theorem keeps_cutLink {r s : State} (i st : Nat) (h : Keeps r s) :
    Keeps r (State.cutLink s i st) := by
  unfold State.cutLink
  with_reducible repeat' first | apply keeps_strand | apply keeps_put | simp only [keeps_mk_iff] | apply_assumption

theorem keeps_removeLink {r s : State} (i : Nat) (h : Keeps r s) :
    Keeps r (State.removeLink s i) := by
  unfold State.removeLink
  with_reducible repeat' first | intro _ | apply keeps_stick | apply keeps_event | apply keeps_cutLink | apply keeps_when | apply_assumption

theorem keeps_retireLanes {r s : State} (i : Nat) (gs : List Nat) (h : Keeps r s) :
    Keeps r (State.retireLanes s i gs) := by
  unfold State.retireLanes
  with_reducible repeat' first | simp only [keeps_mk_iff] | apply_assumption

theorem keeps_retireGroup {r s : State} (i g : Nat) (h : Keeps r s) :
    Keeps r (State.retireGroup s i g) := by
  unfold State.retireGroup
  with_reducible repeat' first | apply keeps_retrain | apply keeps_event | apply keeps_stick | apply keeps_put | apply keeps_retireLanes | apply keeps_removeLink | apply keeps_ite | apply_assumption

theorem keeps_chargeGroups {r s : State} (i : Nat) (groups : List Nat) (h : Keeps r s) :
    Keeps r (State.chargeGroups s i groups) := by
  unfold State.chargeGroups
  with_reducible repeat' first | intro _ | apply keeps_retireGroup | simp only [keeps_mk_iff] | apply keeps_forEach | split | apply_assumption

theorem keeps_crcRetry {r s : State} (i flit : Nat) (groups : List Nat) (again : Bool) (h : Keeps r s) :
    Keeps r (State.crcRetry s i flit groups again) := by
  unfold State.crcRetry
  with_reducible repeat' first | apply keeps_eventSummed | apply keeps_sat | apply keeps_chargeGroups | apply keeps_retrain | simp only [keeps_mk_iff] | split | apply_assumption

theorem keeps_trained {r s : State} (i : Nat) (h : Keeps r s) :
    Keeps r (State.trained s i) := by
  unfold State.trained
  with_reducible repeat' first | apply keeps_event | apply keeps_put | simp only [keeps_mk_iff] | apply_assumption

theorem keeps_untrained {r s : State} (i : Nat) (h : Keeps r s) :
    Keeps r (State.untrained s i) := by
  unfold State.untrained
  with_reducible repeat' first | apply keeps_removeLink | simp only [keeps_mk_iff] | split | apply_assumption

theorem keeps_endLinks {r s : State} (r' : Nat) (h : Keeps r s) :
    Keeps r (State.endLinks s r') := by
  unfold State.endLinks
  with_reducible repeat' first | intro _ | apply keeps_cutLink | apply keeps_forEach | apply_assumption

theorem keeps_fenceRouter {r s : State} (r' : Nat) (h : Keeps r s) :
    Keeps r (State.fenceRouter s r') := by
  unfold State.fenceRouter
  with_reducible repeat' first | apply keeps_stick | apply keeps_event | apply keeps_fenceCluster | apply keeps_loseAt | apply keeps_endLinks | apply keeps_put | split | apply_assumption

theorem keeps_routerBeat {r s : State} (r' : Nat) (silent : Bool) (h : Keeps r s) :
    Keeps r (State.routerBeat s r' silent) := by
  unfold State.routerBeat
  with_reducible repeat' first | apply keeps_put | apply keeps_fenceRouter | apply keeps_ite | apply_assumption

theorem keeps_armSwitch {r s : State} (h : Keeps r s) :
    Keeps r (State.armSwitch s) := by
  unfold State.armSwitch
  with_reducible repeat' first | intro _ | apply keeps_put | apply keeps_stick | simp only [keeps_mk_iff] | apply keeps_when | split | apply_assumption

theorem keeps_switchTables {r s : State} (t' : Nat) (h : Keeps r s) :
    Keeps r (State.switchTables s t') := by
  unfold State.switchTables
  with_reducible repeat' first | apply keeps_put | apply keeps_wrap | apply keeps_event | apply keeps_rejoinAll | simp only [keeps_mk_iff] | apply_assumption

theorem keeps_armSweep {r s : State} (r' : Nat) (h : Keeps r s) :
    Keeps r (State.armSweep s r') := by
  unfold State.armSweep
  with_reducible repeat' first | simp only [keeps_mk_iff] | apply_assumption

theorem keeps_absorbLate {r s : State} (id : Nat) (rq : Rq) (h : Keeps r s) :
    Keeps r (State.absorbLate s id rq) := by
  unfold State.absorbLate
  with_reducible repeat' first | intro _ | apply keeps_put | simp only [keeps_mk_iff] | apply keeps_when | apply_assumption

theorem keeps_sweptEvent {r s : State} (router : Nat) (rq who : Rq) (data : List Nat) (h : Keeps r s) :
    Keeps r (State.sweptEvent s router rq who data) := by
  unfold State.sweptEvent
  with_reducible repeat' first | apply keeps_emit | apply keeps_eventRq | apply_assumption

theorem keeps_sweepOne {r s : State} (router : Nat) (r' : Resp) (h : Keeps r s) :
    Keeps r (State.sweepOne s router r') := by
  unfold State.sweepOne
  with_reducible repeat' first | apply keeps_respError | apply keeps_sweptEvent | apply keeps_absorbLate | apply keeps_freeResp | apply_assumption

theorem keeps_sweepRead {r s : State} (router : Nat) (x : Rq × Nat × Nat) (h : Keeps r s) :
    Keeps r (State.sweepRead s router x) := by
  unfold State.sweepRead
  with_reducible repeat' first | apply keeps_absorbLate | apply keeps_rqFault | apply keeps_sweptEvent | simp only [keeps_mk_iff] | apply_assumption

theorem keeps_forgetFlit {r s : State} (op : Nat) (h : Keeps r s) :
    Keeps r (State.forgetFlit s op) := by
  unfold State.forgetFlit
  with_reducible repeat' first | simp only [keeps_mk_iff] | apply_assumption

theorem keeps_setReply {r s : State} (id reply : Nat) (h : Keeps r s) :
    Keeps r (State.setReply s id reply) := by
  unfold State.setReply
  with_reducible repeat' first | simp only [keeps_mk_iff] | apply_assumption

theorem keeps_sweepFlits {r s : State} (router t' : Nat) (h : Keeps r s) :
    Keeps r (State.sweepFlits s router t') := by
  unfold State.sweepFlits
  with_reducible repeat' first | intro _ | apply keeps_setReply | apply keeps_eventRq | apply keeps_rqFault | apply keeps_forgetFlit | apply keeps_sweptEvent | simp only [keeps_mk_iff] | apply keeps_forEach | apply_assumption

theorem keeps_sweepNow {r s : State} (w : Sweep) (reads : List (Rq × Nat × Nat)) (h : Keeps r s) :
    Keeps r (State.sweepNow s w reads) := by
  unfold State.sweepNow
  with_reducible repeat' first | intro _ | apply keeps_sweepOne | apply keeps_sweepFlits | apply keeps_sweepRead | simp only [keeps_mk_iff] | apply keeps_forEach | apply_assumption

theorem keeps_routersOff {r s : State} (f : Nat) (h : Keeps r s) :
    Keeps r (State.routersOff s f) := by
  unfold State.routersOff
  with_reducible repeat' first | intro _ | apply keeps_loseAt | apply keeps_endLinks | apply keeps_put | apply keeps_forEach | apply_assumption

theorem keeps_cutTile {r s : State} (unit index : Nat) (rq : Rq) (op addr : Nat) (h : Keeps r s) :
    Keeps r (State.cutTile s unit index rq op addr) := by
  unfold State.cutTile
  with_reducible repeat' first | apply keeps_rqFault | apply keeps_refuse | apply_assumption

theorem keeps_holdFires {r s : State} (kind unit index : Nat) (h' : Holding) (h : Keeps r s) :
    Keeps r (State.holdFires s kind unit index h') := by
  unfold State.holdFires
  with_reducible repeat' first | apply keeps_letGo | apply keeps_stick | apply keeps_record | apply keeps_cutTile | apply keeps_emit | split | apply_assumption

theorem keeps_creditStall {r s : State} (r' port : Nat) (i other : Nat) (h : Keeps r s) :
    Keeps r (State.creditStall s r' port i other) := by
  unfold State.creditStall
  with_reducible repeat' first | apply keeps_stick | apply keeps_record | apply keeps_setOstler | apply keeps_removeLink | apply keeps_retrain | apply keeps_ite | apply_assumption

theorem keeps_ackFlit {r s : State} (op : Nat) (h : Keeps r s) :
    Keeps r (State.ackFlit s op) := by
  unfold State.ackFlit
  with_reducible repeat' first | apply keeps_setOp | split | apply_assumption

theorem keeps_reissueFlit {r s : State} (f : RedFlit) (h : Keeps r s) :
    Keeps r (State.reissueFlit s f) := by
  unfold State.reissueFlit
  with_reducible repeat' first | apply keeps_rqFault | apply keeps_emit | simp only [keeps_mk_iff] | split | apply_assumption

theorem keeps_replyFlit {r s : State} (f : RedFlit) (reply : Nat) (h : Keeps r s) :
    Keeps r (State.replyFlit s f reply) := by
  unfold State.replyFlit
  with_reducible repeat' first | apply keeps_setReply | apply keeps_ackFlit | apply keeps_reissueFlit | apply keeps_rqFault | split | apply_assumption

theorem keeps_redMismatch {r s : State} (rq : Rq) (unit : Nat) (again : Bool) (h : Keeps r s) :
    Keeps r (State.redMismatch s rq unit again) := by
  unfold State.redMismatch
  with_reducible repeat' first | apply keeps_stick | apply keeps_record | apply_assumption

theorem keeps_dropFlit {r s : State} (n : Nat) (h : Keeps r s) :
    Keeps r (State.dropFlit s n) := by
  unfold State.dropFlit
  with_reducible repeat' first | simp only [keeps_mk_iff] | apply_assumption

theorem keeps_redPerform {r s : State} (n : Nat) (f : RedFlit) (mismatch : Bool) (h : Keeps r s) :
    Keeps r (State.redPerform s n f mismatch) := by
  unfold State.redPerform
  with_reducible repeat' first | apply keeps_redMismatch | apply keeps_dropFlit | apply keeps_replyFlit | apply keeps_readMem | apply keeps_writeAll | refine keeps_of_eq (by assumption) ?_ | split | apply_assumption

theorem keeps_redMerge {r s : State} (n : Nat) (f : RedFlit) (e' : RedEntry) (mismatch : Bool) (h : Keeps r s) :
    Keeps r (State.redMerge s n f e' mismatch) := by
  unfold State.redMerge
  with_reducible repeat' first | intro _ | apply keeps_dropFlit | apply keeps_redMismatch | apply keeps_replyFlit | apply keeps_wrap | simp only [keeps_mk_iff] | apply keeps_forEach | split | apply_assumption

theorem keeps_redAllocate {r s : State} (r' n : Nat) (f : RedFlit) (h : Keeps r s) :
    Keeps r (State.redAllocate s r' n f) := by
  unfold State.redAllocate
  with_reducible repeat' first | apply keeps_dropFlit | simp only [keeps_mk_iff] | apply_assumption

theorem keeps_redAt {r s : State} (r' n : Nat) (f : RedFlit) (mismatch : Bool) (pass : State → State) (h : Keeps r s) (h_pass : ∀ a0, Keeps r a0 → Keeps r (pass a0)) :
    Keeps r (State.redAt s r' n f mismatch pass) := by
  unfold State.redAt
  with_reducible repeat' first | apply keeps_redMerge | apply keeps_redAllocate | simp only | split | apply_assumption

theorem keeps_rereadFlit {r s : State} (f : RedFlit) (h : Keeps r s) :
    ∀ p, State.rereadFlit s f = some p → Keeps r p.2 := by
  intro p e
  unfold State.rereadFlit at e
  split at e
  · obtain rfl := Option.some.inj e
    exact h
  · have hq := keeps_readMem f.rq f.src 64 h
    split at e
    · exact absurd e.symm (Option.some_ne_none _)
    · rename_i e2
      rw [e2] at hq
      obtain rfl := Option.some.inj e
      exact hq
    · rename_i e2
      rw [e2] at hq
      obtain rfl := Option.some.inj e
      exact hq

theorem keeps_redUnreachable {r s : State} (n : Nat) (f : RedFlit) (h : Keeps r s) :
    Keeps r (State.redUnreachable s n f) := by
  unfold State.redUnreachable
  with_reducible repeat' first | apply keeps_replyFlit | apply keeps_unreachable | apply keeps_dropFlit | apply_assumption

theorem keeps_redEnter {r s : State} (n : Nat) (f : RedFlit) (mismatch : Bool) (h : Keeps r s) :
    Keeps r (State.redEnter s n f mismatch) := by
  unfold State.redEnter
  dsimp only
  split
  · exact keeps_redUnreachable _ _ h
  · split
    · exact h
    · rename_i e
      exact keeps_rqFault _ _ _ (keeps_dropFlit _ (keeps_rereadFlit _ h _ e))
    · rename_i e
      have ht := keeps_rereadFlit _ h _ e
      refine keeps_redAt _ _ _ _ _ (keeps_mk _ _ _ _ _ _ _ _ _ _ _ _ _ _ _ _ _ ht) (fun t ht => ?_)
      split
      · exact keeps_redPerform _ _ _ ht
      · exact keeps_enterNet _ _ _ _ _ _ _ ht

theorem keeps_redMove {r s : State} (n : Nat) (f : RedFlit) (mismatch : Bool) (h : Keeps r s) :
    Keeps r (State.redMove s n f mismatch) := by
  unfold State.redMove
  with_reducible repeat' first | intro _ | apply keeps_oneHop | apply keeps_redUnreachable | apply keeps_redPerform | apply keeps_redAt | refine keeps_of_eq (by assumption) ?_ | split | apply_assumption

theorem keeps_redForward {r s : State} (e' : RedEntry) (h : Keeps r s) :
    Keeps r (State.redForward s e') := by
  unfold State.redForward
  with_reducible repeat' first | simp only [keeps_mk_iff] | apply_assumption

/-! Operations of Machine/Hbm.lean. -/

theorem keeps_badFrame {r s : State} (pa : Nat) (h : Keeps r s) :
    Keeps r (State.badFrame s pa) := by
  unfold State.badFrame
  with_reducible repeat' first | apply keeps_addDefect | simp only [keeps_mk_iff] | apply_assumption

theorem keeps_parityRetries {r s : State} (pa n : Nat) (h : Keeps r s) :
    Keeps r (State.parityRetries s pa n) := by
  unfold State.parityRetries
  with_reducible repeat' first | apply keeps_eventSummed | apply keeps_stick | apply keeps_sat | split | apply_assumption

theorem keeps_corrected {r s : State} (pa : Nat) (h : Keeps r s) :
    Keeps r (State.corrected s pa) := by
  unfold State.corrected
  with_reducible repeat' first | apply keeps_eventSummed | apply keeps_stick | apply keeps_sat | apply_assumption

theorem keeps_uncorrectable {r s : State} (rq : Rq) (pa : Nat) (retried : Bool) (h : Keeps r s) :
    Keeps r (State.uncorrectable s rq pa retried) := by
  unfold State.uncorrectable
  with_reducible repeat' first | apply keeps_stick | apply keeps_sat | apply keeps_record | apply_assumption

theorem keeps_hbmFail {r s : State} (rq : Rq) (op pa : Nat) (h : Keeps r s) :
    Keeps r (State.hbmFail s rq op pa) := by
  unfold State.hbmFail
  with_reducible repeat' first | apply keeps_rqFault | apply keeps_emit | apply keeps_badFrame | apply keeps_uncorrectable | apply_assumption

theorem keeps_readMeets {r s : State} (rq : Rq) (pa parity ecc : Nat) (h : Keeps r s) :
    Keeps r (State.readMeets s rq pa parity ecc) := by
  unfold State.readMeets
  with_reducible repeat' first | intro _ | apply keeps_uncorrectable | apply keeps_corrected | apply keeps_when | apply_assumption

theorem keeps_hbmRead {r s : State} (rq : Rq) (op pa : Nat) (parity ecc : Nat) (h : Keeps r s) :
    Keeps r (State.hbmRead s rq op pa parity ecc) := by
  unfold State.hbmRead
  with_reducible repeat' first | apply keeps_parityRetries | apply keeps_hbmFail | apply keeps_emit | apply keeps_readMeets | split | apply_assumption

theorem keeps_hbmWrite {r s : State} (rq : Rq) (op pa : Nat) (parity ecc : Nat) (bs : List (Option (BitVec 8))) (h : Keeps r s) :
    Keeps r (State.hbmWrite s rq op pa parity ecc bs) := by
  unfold State.hbmWrite
  with_reducible repeat' first | apply keeps_parityRetries | apply keeps_hbmFail | apply keeps_emit | apply keeps_storeBytes | apply keeps_readMeets | apply keeps_ite | apply_assumption

theorem keeps_physRefused {r s : State} (rq : Rq) (op pa : Nat) (h : Keeps r s) :
    Keeps r (State.physRefused s rq op pa) := by
  unfold State.physRefused
  with_reducible repeat' first | apply keeps_rqFault | apply keeps_transFault | apply_assumption

theorem keeps_armRate {r s : State} (k n : Nat) (h : Keeps r s) :
    Keeps r (State.armRate s k n) := by
  unfold State.armRate
  with_reducible repeat' first | simp only [keeps_mk_iff] | apply_assumption

theorem keeps_dropEntry {r s : State} (rq : Rq) (cache l v : Nat) (h : Keeps r s) :
    Keeps r (State.dropEntry s rq cache l v) := by
  unfold State.dropEntry
  with_reducible repeat' first | apply keeps_eventRq | apply keeps_tlbSetTo | apply keeps_ite | apply_assumption

theorem keeps_dropRecord {r s : State} (rq : Rq) (c i pos : Nat) (h : Keeps r s) :
    Keeps r (State.dropRecord s rq c i pos) := by
  unfold State.dropRecord
  with_reducible repeat' first | apply keeps_eventRq | simp only [keeps_mk_iff] | split | apply_assumption

theorem keeps_lostEntry {r s : State} (rq : Rq) (op va lost : Nat) (h : Keeps r s) :
    Keeps r (State.lostEntry s rq op va lost) := by
  unfold State.lostEntry
  with_reducible repeat' first | apply keeps_dropEntry | apply keeps_dropRecord | split | apply_assumption

theorem keeps_walkRow {r s : State} (rq : Rq) (op va : Nat) (wr ex : Bool) (parity ecc lost : Nat) (h : Keeps r s) :
    Keeps r (State.walkRow s rq op va wr ex parity ecc lost) := by
  unfold State.walkRow
  with_reducible repeat' first | intro _ | apply keeps_lostEntry | apply keeps_parityRetries | apply keeps_rqFault | apply keeps_transFault | apply keeps_badFrame | apply keeps_uncorrectable | apply keeps_frontGrant | apply keeps_readMeets | apply keeps_translate | simp only | apply keeps_when | refine keeps_of_eq (by assumption) ?_ | split | apply_assumption

theorem keeps_tlbInval {r s : State} (l first pages : Nat) (h : Keeps r s) :
    Keeps r (State.tlbInval s l first pages) := by
  unfold State.tlbInval
  with_reducible repeat' first | apply keeps_busyWrite | apply keeps_put | simp only [keeps_mk_iff] | split | apply_assumption

theorem keeps_dropTlb {r s : State} (l first pages : Nat) (h : Keeps r s) :
    Keeps r (State.dropTlb s l first pages) := by
  unfold State.dropTlb
  with_reducible repeat' first | simp only [keeps_mk_iff] | apply_assumption

theorem keeps_invalDone {r s : State} (l first pages : Nat) (h : Keeps r s) :
    Keeps r (State.invalDone s l first pages) := by
  unfold State.invalDone
  with_reducible repeat' first | apply keeps_dropTlb | apply keeps_put | simp only [keeps_mk_iff] | apply_assumption

theorem keeps_scrubShow {r s : State} (h : Keeps r s) :
    Keeps r (State.scrubShow s) := by
  unfold State.scrubShow
  with_reducible repeat' first | apply keeps_put | apply_assumption

theorem keeps_scrubSubmit {r s : State} (first frames : Nat) (h : Keeps r s) :
    Keeps r (State.scrubSubmit s first frames) := by
  unfold State.scrubSubmit
  with_reducible repeat' first | apply keeps_stick | apply keeps_scrubShow | simp only [keeps_mk_iff] | split | apply_assumption

theorem keeps_zeroFrames {r s : State} (first frames : Nat) (bad : List Nat) (h : Keeps r s) :
    Keeps r (State.zeroFrames s first frames bad) := by
  unfold State.zeroFrames
  exact keeps_mem _ (fun x => mwf_filter zeroB _ _ x) h

theorem keeps_scrubFail {r s : State} (pa : Nat) (h : Keeps r s) :
    Keeps r (State.scrubFail s pa) := by
  unfold State.scrubFail
  with_reducible repeat' first | apply keeps_badFrame | apply keeps_event | apply keeps_stick | apply_assumption

theorem keeps_scrubGrants {r s : State} (first frames : Nat) (h : Keeps r s) :
    Keeps r (State.scrubGrants s first frames) := by
  unfold State.scrubGrants
  with_reducible repeat' first | intro _ | simp only [keeps_mk_iff] | apply keeps_forEach | apply_assumption

theorem keeps_scrubRetried {r s : State} (pa retries : Nat) (h : Keeps r s) :
    Keeps r (State.scrubRetried s pa retries) := by
  unfold State.scrubRetried
  with_reducible repeat' first | intro _ | apply keeps_parityRetries | apply keeps_scrubFail | apply keeps_when | apply_assumption

theorem keeps_scrubDone {r s : State} (j : Nat × Nat) (rest : List (Nat × Nat)) (bad : List (Nat × Nat)) (h : Keeps r s) :
    Keeps r (State.scrubDone s j rest bad) := by
  unfold State.scrubDone
  with_reducible repeat' first | intro _ | apply keeps_zeroFrames | apply keeps_scrubGrants | apply keeps_scrubRetried | apply keeps_wrap | apply keeps_scrubShow | simp only [keeps_mk_iff] | apply keeps_forEach | apply_assumption

end Sys2Proof.Machine
end

