-- ==== Sys2Proof/Laws/KeepsDevice.lean ====
section
/-! SUPPORT. One lemma for each operation of time, power, resets and the start: what it keeps (Laws/Keeps.lean). -/

namespace Sys2Proof.Machine

/-! Operations of Machine/Time.lean. -/

theorem keeps_tmIgnore {r s : State} (h : Keeps r s) :
    Keeps r (State.tmIgnore s) := by
  unfold State.tmIgnore
  with_reducible repeat' first | apply keeps_busyWrite | apply_assumption

theorem keeps_discSelect {r s : State} (h : Keeps r s) :
    Keeps r (State.discSelect s) := by
  unfold State.discSelect
  with_reducible repeat' first | apply keeps_put | simp only [keeps_mk_iff] | apply_assumption

theorem keeps_setAdj {r s : State} (x : Int) (h : Keeps r s) :
    Keeps r (State.setAdj s x) := by
  unfold State.setAdj
  with_reducible repeat' first | apply keeps_put | apply_assumption

theorem keeps_trim {r s : State} (h : Keeps r s) :
    Keeps r (State.trim s) := by
  unfold State.trim
  with_reducible repeat' first | apply keeps_draw | apply keeps_setAdj | apply_assumption

theorem keeps_slewBack {r s : State} (h : Keeps r s) :
    Keeps r (State.slewBack s) := by
  unfold State.slewBack
  with_reducible repeat' first | apply keeps_setAdj | simp only [keeps_mk_iff] | apply_assumption

theorem keeps_stepNeeded {r s : State} (off : Int) (h : Keeps r s) :
    Keeps r (State.stepNeeded s off) := by
  unfold State.stepNeeded
  with_reducible repeat' first | apply keeps_put | apply keeps_event | apply keeps_slewBack | simp only [keeps_mk_iff] | split | apply_assumption

theorem keeps_goodSample {r s : State} (off : Int) (h : Keeps r s) :
    Keeps r (State.goodSample s off) := by
  unfold State.goodSample
  with_reducible repeat' first | intro _ | apply keeps_put | apply keeps_event | apply keeps_trim | simp only [keeps_mk_iff] | apply keeps_when | apply_assumption

theorem keeps_sample {r s : State} (off : Int) (h : Keeps r s) :
    Keeps r (State.sample s off) := by
  unfold State.sample
  with_reducible repeat' first | apply keeps_draw | apply keeps_put | apply keeps_stepNeeded | apply keeps_goodSample | simp only [keeps_mk_iff] | split | apply_assumption

theorem keeps_heard {r s : State} (who : List Nat) (h : Keeps r s) :
    Keeps r (State.heard s who) := by
  unfold State.heard
  with_reducible repeat' first | simp only [keeps_mk_iff] | split | apply_assumption

theorem keeps_syncTaken {r s : State} (t1 t2 : Nat) (h : Keeps r s) :
    Keeps r (State.syncTaken s t1 t2) := by
  unfold State.syncTaken
  with_reducible repeat' first | apply keeps_sample | simp only [keeps_mk_iff] | apply_assumption

theorem keeps_delayTaken {r s : State} (t4 : Nat) (h : Keeps r s) :
    Keeps r (State.delayTaken s t4) := by
  unfold State.delayTaken
  with_reducible repeat' first | simp only [keeps_mk_iff] | split | apply_assumption

theorem keeps_ptpFrame {r s : State} (kind : Nat) (who : List Nat) (time t' : Nat) (h : Keeps r s) :
    Keeps r (State.ptpFrame s kind who time t') := by
  unfold State.ptpFrame
  with_reducible repeat' first | intro _ | apply keeps_heard | apply keeps_syncTaken | apply keeps_delayTaken | simp only [keeps_mk_iff] | apply keeps_when | split | apply_assumption

theorem keeps_tickRejected {r s : State} (h : Keeps r s) :
    Keeps r (State.tickRejected s) := by
  unfold State.tickRejected
  with_reducible repeat' first | intro _ | apply keeps_sat | apply keeps_event | simp only [keeps_mk_iff] | apply keeps_when | apply_assumption

theorem keeps_tickEdge {r s : State} (frac : Nat) (h : Keeps r s) :
    Keeps r (State.tickEdge s frac) := by
  unfold State.tickEdge
  with_reducible repeat' first | intro _ | apply keeps_wrap | apply keeps_tickRejected | apply keeps_sample | apply keeps_when | apply keeps_ite | apply_assumption

theorem keeps_setCount {r s : State} (v : Nat) (h : Keeps r s) :
    Keeps r (State.setCount s v) := by
  unfold State.setCount
  with_reducible repeat' first | apply keeps_put | simp only [keeps_mk_iff] | apply_assumption

theorem keeps_stepForward {r s : State} (amount : Nat) (h : Keeps r s) :
    Keeps r (State.stepForward s amount) := by
  unfold State.stepForward
  with_reducible repeat' first | apply keeps_event | apply keeps_put | apply keeps_setCount | split | apply_assumption

theorem keeps_siteNowWrite {r s : State} (v : Nat) (h : Keeps r s) :
    Keeps r (State.siteNowWrite s v) := by
  unfold State.siteNowWrite
  with_reducible repeat' first | apply keeps_tmIgnore | apply keeps_event | apply keeps_setCount | simp only [keeps_mk_iff] | split | apply_assumption

theorem keeps_stepTableWrite {r s : State} (i w : Nat) (h : Keeps r s) :
    Keeps r (State.stepTableWrite s i w) := by
  unfold State.stepTableWrite
  with_reducible repeat' first | apply keeps_tmIgnore | apply keeps_writeRw | apply keeps_event | apply keeps_stick | split | apply_assumption

theorem keeps_startSwitch {r s : State} (target count : Nat) (h : Keeps r s) :
    Keeps r (State.startSwitch s target count) := by
  unfold State.startSwitch
  with_reducible repeat' first | intro _ | apply keeps_tmIgnore | apply keeps_put | apply keeps_cutRuns | apply keeps_stick | simp only [keeps_mk_iff] | apply keeps_when | split | apply_assumption

theorem keeps_easeDuty {r s : State} (r' : Nat) (h : Keeps r s) :
    Keeps r (State.easeDuty s r') := by
  unfold State.easeDuty
  with_reducible repeat' first | intro _ | simp only [keeps_mk_iff] | apply keeps_when | apply_assumption

theorem keeps_moveClock {r s : State} (r' : Nat) (h : Keeps r s) :
    Keeps r (State.moveClock s r') := by
  unfold State.moveClock
  with_reducible repeat' first | apply keeps_easeDuty | apply keeps_ceilShow | apply keeps_put | apply_assumption

theorem keeps_switchAtS {r s : State} (w : Switch) (late : List (Nat × Nat)) (h : Keeps r s) :
    Keeps r (State.switchAtS s w late) := by
  unfold State.switchAtS
  with_reducible repeat' first | intro _ | apply keeps_put | apply keeps_ceilShow | apply keeps_moveClock | simp only [keeps_mk_iff] | apply keeps_forEach | split | apply_assumption

theorem keeps_switchRegion {r s : State} (w : Switch) (p : Nat × Nat) (h : Keeps r s) :
    Keeps r (State.switchRegion s w p) := by
  unfold State.switchRegion
  with_reducible repeat' first | apply keeps_moveClock | simp only [keeps_mk_iff] | apply_assumption

theorem keeps_lateSwitch {r s : State} (w : Switch) (p : Nat × Nat) (h : Keeps r s) :
    Keeps r (State.lateSwitch s w p) := by
  unfold State.lateSwitch
  with_reducible repeat' first | apply keeps_event | apply keeps_stick | apply keeps_switchRegion | apply_assumption

theorem keeps_skippedActs {r s : State} (r' : Nat) (h : Keeps r s) :
    Keeps r (State.skippedActs s r') := by
  unfold State.skippedActs
  with_reducible repeat' first | intro _ | apply keeps_lateSwitch | apply keeps_waitMet | apply keeps_forEach | apply keeps_when | split | apply_assumption

theorem keeps_reloadRegion {r s : State} (r' : Nat) (h : Keeps r s) :
    Keeps r (State.reloadRegion s r') := by
  unfold State.reloadRegion
  with_reducible repeat' first | intro _ | apply keeps_skippedActs | apply keeps_event | simp only [keeps_mk_iff] | apply keeps_when | apply_assumption

theorem keeps_skewRegion {r s : State} (r' k : Nat) (h : Keeps r s) :
    Keeps r (State.skewRegion s r' k) := by
  unfold State.skewRegion
  with_reducible repeat' first | intro _ | simp only [keeps_mk_iff] | apply keeps_when | apply_assumption

/-! Operations of Machine/Power.lean. -/

theorem keeps_pwEvent {r s : State} (e' outcome : Nat) (way stream : Nat) (detail : List (BitVec 8)) (h : Keeps r s) :
    Keeps r (State.pwEvent s e' outcome way stream detail) := by
  unfold State.pwEvent
  with_reducible repeat' first | apply keeps_draw | apply keeps_record | apply_assumption

theorem keeps_overridePower {r s : State} (h : Keeps r s) :
    Keeps r (State.overridePower s) := by
  unfold State.overridePower
  with_reducible repeat' first | intro _ | apply keeps_stick | apply keeps_wrap | simp only [keeps_mk_iff] | apply keeps_when | apply_assumption

theorem keeps_overrideHeat {r s : State} (h : Keeps r s) :
    Keeps r (State.overrideHeat s) := by
  unfold State.overrideHeat
  with_reducible repeat' first | intro _ | apply keeps_stick | apply keeps_wrap | simp only [keeps_mk_iff] | apply keeps_when | apply_assumption

theorem keeps_overrideRegulator {r s : State} (h : Keeps r s) :
    Keeps r (State.overrideRegulator s) := by
  unfold State.overrideRegulator
  with_reducible repeat' first | intro _ | apply keeps_stick | apply keeps_wrap | simp only [keeps_mk_iff] | apply keeps_when | apply_assumption

theorem keeps_overrides {r s : State} (h : Keeps r s) :
    Keeps r (State.overrides s) := by
  unfold State.overrides
  with_reducible repeat' first | apply keeps_overrideRegulator | apply keeps_overrideHeat | apply keeps_overridePower | apply_assumption

theorem keeps_stopDevice {r s : State} (h : Keeps r s) :
    Keeps r (State.stopDevice s) := by
  unfold State.stopDevice
  with_reducible repeat' first | simp only [keeps_mk_iff] | apply_assumption

theorem keeps_stopFaulted {r s : State} (h : Keeps r s) :
    Keeps r (State.stopFaulted s) := by
  unfold State.stopFaulted
  with_reducible repeat' first | apply keeps_stopDevice | simp only [keeps_mk_iff] | apply_assumption

theorem keeps_limitDuty {r s : State} (c amps : Nat) (h : Keeps r s) :
    Keeps r (State.limitDuty s c amps) := by
  unfold State.limitDuty
  with_reducible repeat' first | intro _ | simp only [keeps_mk_iff] | apply keeps_when | apply_assumption

theorem keeps_coreDomain {r s : State} (d phase n : Nat) (h : Keeps r s) :
    Keeps r (State.coreDomain s d phase n) := by
  unfold State.coreDomain
  with_reducible repeat' first | apply keeps_event | apply keeps_limitDuty | apply keeps_setCeil | apply keeps_fenceCluster | split | apply_assumption

theorem keeps_ceilAll {r s : State} (h : Keeps r s) :
    Keeps r (State.ceilAll s) := by
  unfold State.ceilAll
  with_reducible repeat' first | intro _ | apply keeps_setCeil | apply keeps_forEach | apply_assumption

theorem keeps_holdHbm {r s : State} (h : Keeps r s) :
    Keeps r (State.holdHbm s) := by
  unfold State.holdHbm
  with_reducible repeat' first | intro _ | apply keeps_armRate | simp only [keeps_mk_iff] | apply keeps_forEach | apply_assumption

theorem keeps_sharedDomain {r s : State} (d n : Nat) (h : Keeps r s) :
    Keeps r (State.sharedDomain s d n) :=
  keeps_ite _ (keeps_event _ _ _ h) (keeps_ite _
    (keeps_when _ _ (keeps_ceilAll (keeps_event _ _ _ h)) fun _ => keeps_holdHbm) (keeps_stopFaulted (keeps_event _ _ _ h)))

theorem keeps_phaseFault {r s : State} (d phase : Nat) (h : Keeps r s) :
    Keeps r (State.phaseFault s d phase) := by
  unfold State.phaseFault
  with_reducible repeat' first | apply keeps_stick | apply keeps_putBit | apply keeps_addDefect | apply keeps_overrides | apply keeps_coreDomain | apply keeps_sharedDomain | split | apply_assumption

theorem keeps_measureDomain {r s : State} (d mv cur : Nat) (h : Keeps r s) :
    Keeps r (State.measureDomain s d mv cur) := by
  unfold State.measureDomain
  with_reducible repeat' first | apply keeps_put | simp only [keeps_mk_iff] | apply_assumption

theorem keeps_calibrate {r s : State} (d : Nat) (h : Keeps r s) :
    Keeps r (State.calibrate s d) := by
  unfold State.calibrate
  with_reducible repeat' first | apply keeps_draw | apply keeps_put | apply keeps_stick | apply keeps_event | simp only [keeps_mk_iff] | split | apply_assumption

theorem keeps_estimate {r s : State} (acts : List Nat) (leaks : List Nat) (board : Nat) (h : Keeps r s) :
    Keeps r (State.estimate s acts leaks board).2 := by
  unfold State.estimate
  with_reducible repeat' first | simp only [keeps_mk_iff] | apply_assumption

theorem keeps_takeCaps {r s : State} (h : Keeps r s) :
    Keeps r (State.takeCaps s) := by
  unfold State.takeCaps
  with_reducible repeat' first | simp only [keeps_mk_iff] | apply_assumption

theorem keeps_moveRates {r s : State} (hbm : Nat) (h : Keeps r s) :
    Keeps r (State.moveRates s hbm) := by
  unfold State.moveRates
  with_reducible repeat' first | intro _ | apply keeps_armRate | apply keeps_put | apply keeps_forEach | split | apply_assumption

theorem keeps_dutyTimes {r s : State} (duty p a : Nat) (h : Keeps r s) :
    Keeps r (State.dutyTimes s duty p a) := by
  unfold State.dutyTimes
  with_reducible repeat' first | simp only [keeps_mk_iff] | apply_assumption

theorem keeps_unreachableCheck {r s : State} (duty : Nat) (pause : Bool) (gate pace : Nat) (p a : Nat) (h : Keeps r s) :
    Keeps r (State.unreachableCheck s duty pause gate pace p a) := by
  unfold State.unreachableCheck
  with_reducible repeat' first | intro _ | apply keeps_pwEvent | apply keeps_stick | simp only [keeps_mk_iff] | apply keeps_when | apply_assumption

theorem keeps_openWindows {r s : State} (p : Nat) (h : Keeps r s) :
    Keeps r (State.openWindows s p) := by
  unfold State.openWindows
  with_reducible repeat' first | simp only [keeps_mk_iff] | apply_assumption

theorem keeps_history {r s : State} (p : Nat) (h : Keeps r s) :
    Keeps r (State.history s p) := by
  unfold State.history
  with_reducible repeat' first | apply keeps_openWindows | apply keeps_put | simp only [keeps_mk_iff] | apply_assumption

theorem keeps_setFloor {r s : State} (p a : Nat) (h : Keeps r s) :
    Keeps r (State.setFloor s p a) := by
  unfold State.setFloor
  with_reducible repeat' first | simp only [keeps_mk_iff] | apply_assumption

theorem keeps_limit {r s : State} (p demand duty : Nat) (pause : Bool) (gate pace hbm : Nat) (h : Keeps r s) :
    Keeps r (State.limit s p demand duty pause gate pace hbm) := by
  unfold State.limit
  with_reducible repeat' first | apply keeps_setFloor | apply keeps_put | apply keeps_overrides | apply keeps_unreachableCheck | apply keeps_dutyTimes | apply keeps_moveRates | simp only [keeps_mk_iff] | split | apply_assumption

theorem keeps_capWrite {r s : State} (which v : Nat) (h : Keeps r s) :
    Keeps r (State.capWrite s which v) := by
  unfold State.capWrite
  with_reducible repeat' first | intro _ | apply keeps_put | apply keeps_pwEvent | apply keeps_stick | apply keeps_when | apply_assumption

theorem keeps_showNotices {r s : State} (h : Keeps r s) :
    Keeps r (State.showNotices s) := by
  unfold State.showNotices
  with_reducible repeat' first | apply keeps_put | simp only [keeps_mk_iff] | apply_assumption

theorem keeps_noticeRefused {r s : State} (x : Iss) (event : Bool) (h : Keeps r s) :
    Keeps r (State.noticeRefused s x event) := by
  unfold State.noticeRefused
  with_reducible repeat' first | intro _ | apply keeps_stick | apply keeps_pwEvent | apply keeps_when | apply_assumption

theorem keeps_holdNotice {r s : State} (x : Iss) (start stop : Nat) (slope rise : Nat) (h : Keeps r s) :
    Keeps r (State.holdNotice s x start stop slope rise) := by
  unfold State.holdNotice
  with_reducible repeat' first | intro _ | apply keeps_showNotices | apply keeps_pwEvent | simp only [keeps_mk_iff] | apply keeps_when | apply_assumption

theorem keeps_deliverNotice {r s : State} (x : Iss) (h : Keeps r s) :
    Keeps r (State.deliverNotice s x) := by
  unfold State.deliverNotice
  with_reducible repeat' first | apply keeps_noticeRefused | apply keeps_holdNotice | apply keeps_ite | apply_assumption

theorem keeps_applySched {r s : State} (i : Nat) (h : Keeps r s) :
    Keeps r (State.applySched s i) := by
  unfold State.applySched
  with_reducible repeat' first | intro _ | apply keeps_put | apply keeps_pwEvent | apply keeps_stick | apply keeps_when | apply_assumption

theorem keeps_binReading {r s : State} (i : Nat) (t' : Int) (h : Keeps r s) :
    Keeps r (State.binReading s i t') := by
  unfold State.binReading
  with_reducible repeat' first | apply keeps_put | simp only [keeps_mk_iff] | apply_assumption

theorem keeps_ignoreSensor {r s : State} (i : Nat) (b : Bool) (h : Keeps r s) :
    Keeps r (State.ignoreSensor s i b) := by
  unfold State.ignoreSensor
  with_reducible repeat' first | intro _ | apply keeps_put | apply keeps_event | apply keeps_when | apply_assumption

theorem keeps_twinCheck {r s : State} (bad : List Nat) (c : Nat) (h : Keeps r s) :
    Keeps r (State.twinCheck s bad c) := by
  unfold State.twinCheck
  with_reducible repeat' first | apply keeps_ignoreSensor | apply keeps_draw | apply keeps_ite | apply_assumption

theorem keeps_setThermal {r s : State} (c n : Nat) (h : Keeps r s) :
    Keeps r (State.setThermal s c n) := by
  unfold State.setThermal
  with_reducible repeat' first | apply keeps_event | apply keeps_setCeil | apply_assumption

theorem keeps_discardSteps {r s : State} (c : Nat) (h : Keeps r s) :
    Keeps r (State.discardSteps s c) := by
  unfold State.discardSteps
  with_reducible repeat' first | intro _ | apply keeps_rewindPath | simp only [keeps_mk_iff] | apply keeps_forEach | apply_assumption

theorem keeps_heatStop {r s : State} (c how : Nat) (h : Keeps r s) :
    Keeps r (State.heatStop s c how) := by
  unfold State.heatStop
  with_reducible repeat' first | intro _ | apply keeps_discardSteps | apply keeps_event | apply keeps_stick | simp only [keeps_mk_iff] | apply keeps_when | apply_assumption

theorem keeps_heatRestart {r s : State} (c : Nat) (h : Keeps r s) :
    Keeps r (State.heatRestart s c) := by
  unfold State.heatRestart
  with_reducible repeat' first | intro _ | apply keeps_setThermal | apply keeps_feed | simp only [keeps_mk_iff] | apply keeps_forEach | apply_assumption

theorem keeps_heatCluster {r s : State} (c : Nat) (h : Keeps r s) :
    Keeps r (State.heatCluster s c) := by
  unfold State.heatCluster
  with_reducible repeat' first | intro _ | apply keeps_setThermal | apply keeps_heatStop | apply keeps_heatRestart | apply keeps_when | apply keeps_ite | apply_assumption

theorem keeps_restoreRouter {r s : State} (r' : Nat) (h : Keeps r s) :
    Keeps r (State.restoreRouter s r') := by
  unfold State.restoreRouter
  with_reducible repeat' first | intro _ | apply keeps_put | apply keeps_forEach | apply keeps_ite | apply_assumption

theorem keeps_restoreField {r s : State} (f : Nat) (h : Keeps r s) :
    Keeps r (State.restoreField s f) := by
  unfold State.restoreField
  with_reducible repeat' first | intro _ | apply keeps_event | apply keeps_restoreRouter | simp only [keeps_mk_iff] | apply keeps_forEach | apply_assumption

theorem keeps_heatField {r s : State} (f : Nat) (h : Keeps r s) :
    Keeps r (State.heatField s f) := by
  unfold State.heatField
  with_reducible repeat' first | apply keeps_restoreField | simp only [keeps_mk_iff] | split | apply_assumption

theorem keeps_thermtrip {r s : State} (i : Nat) (h : Keeps r s) :
    Keeps r (State.thermtrip s i) := by
  unfold State.thermtrip
  with_reducible repeat' first | apply keeps_stopDevice | apply keeps_event | simp only [keeps_mk_iff] | apply_assumption

theorem keeps_readSensor {r s : State} (i t' : Nat) (h : Keeps r s) :
    Keeps r (State.readSensor s i t') := by
  unfold State.readSensor
  with_reducible repeat' first | apply keeps_binReading | apply keeps_put | apply_assumption

theorem keeps_scan {r s : State} (temps : List Nat) (bad : List Nat) (h : Keeps r s) :
    Keeps r (State.scan s temps bad) := by
  unfold State.scan
  with_reducible repeat' first | intro _ | apply keeps_readSensor | apply keeps_twinCheck | apply keeps_ignoreSensor | apply keeps_heatCluster | apply keeps_heatField | apply keeps_thermtrip | simp only | apply keeps_forEach | split | apply_assumption

/-! Operations of Machine/Conns.lean. -/

theorem keeps_putConn {r s : State} (x : Conn) (h : Keeps r s) :
    Keeps r (State.putConn s x) := by
  unfold State.putConn
  with_reducible repeat' first | simp only [keeps_mk_iff] | apply_assumption

theorem keeps_connEvent {r s : State} (x : Conn) (e' outcome : Nat) (way tag : Nat) (detail : List (BitVec 8)) (h : Keeps r s) :
    Keeps r (State.connEvent s x e' outcome way tag detail) := by
  unfold State.connEvent
  with_reducible repeat' first | apply keeps_record | apply_assumption

theorem keeps_ckEvent {r s : State} (l e' outcome : Nat) (detail : List (BitVec 8)) (h : Keeps r s) :
    Keeps r (State.ckEvent s l e' outcome detail) := by
  unfold State.ckEvent
  with_reducible repeat' first | apply keeps_record | apply_assumption

theorem keeps_ckCfgCommit {r s : State} (l : Nat) (h : Keeps r s) :
    Keeps r (State.ckCfgCommit s l) := by
  unfold State.ckCfgCommit
  with_reducible repeat' first | intro _ | apply keeps_takeSh | apply keeps_forEach | apply_assumption

theorem keeps_drainFail {r s : State} (l : Nat) (h : Keeps r s) :
    Keeps r (State.drainFail s l) := by
  unfold State.drainFail
  with_reducible repeat' first | apply keeps_stick | apply keeps_put | apply keeps_ckCfgCommit | apply keeps_ckEvent | simp only [keeps_mk_iff] | split | apply_assumption

theorem keeps_connError {r s : State} (l c why : Nat) (h : Keeps r s) :
    Keeps r (State.connError s l c why) := by
  unfold State.connError
  with_reducible repeat' first | apply keeps_put | apply keeps_connEvent | apply keeps_putConn | apply keeps_drainFail | apply keeps_ite | split | apply_assumption

theorem keeps_resetConns {r s : State} (l : Nat) (h : Keeps r s) :
    Keeps r (State.resetConns s l) := by
  unfold State.resetConns
  with_reducible repeat' first | intro _ | apply keeps_connError | apply keeps_drainFail | apply keeps_put | apply keeps_ckCfgCommit | apply keeps_ckEvent | apply keeps_stick | simp only [keeps_mk_iff] | apply keeps_forEach | split | apply_assumption

theorem keeps_invoke {r s : State} (k : Nat) (h : Keeps r s) : ∀ n t, s.invoke k = some (n, t) → Keeps r t := by
  intro n t e
  unfold State.invoke at e
  dsimp only at e
  split at e
  · cases e
  · split at e
    · cases e; exact keeps_record _ (keeps_put _ _ _ _ (keeps_put _ _ _ _ h))
    · cases e; exact keeps_put _ _ _ _ h

theorem keeps_sendPacket {r s : State} (x : Conn) (op : Nat) (header : List Nat) (payload : List (BitVec 8))
    (h : Keeps r s) : Keeps r (State.sendPacket s x op header payload) := by
  unfold State.sendPacket
  split
  · exact keeps_connError _ _ _ h
  · rename_i e
    exact keeps_emit _ _ _ _ (keeps_frameGrant _ _ _ _ _ (keeps_invoke _ h _ _ e))

theorem keeps_sendMessage {r s : State} (l c op : Nat) (header : List Nat) (bs : List (BitVec 8)) (h : Keeps r s) :
    Keeps r (State.sendMessage s l c op header bs) := by
  unfold State.sendMessage
  with_reducible repeat' first | intro _ | apply keeps_sendPacket | apply keeps_foldl2 | split | apply_assumption

/-! Operations of Machine/Resets.lean. -/

theorem keeps_showCoreBusy {r s : State} (c : Nat) (h : Keeps r s) :
    Keeps r (State.showCoreBusy s c) := by
  unfold State.showCoreBusy
  with_reducible repeat' first | apply keeps_put | apply_assumption

theorem keeps_dropQueues {r s : State} (c l : Nat) (h : Keeps r s) :
    Keeps r (State.dropQueues s c l) := by
  unfold State.dropQueues
  with_reducible repeat' first | simp only [keeps_mk_iff] | apply_assumption

theorem keeps_coreReset {r s : State} (u : Nat) (h : Keeps r s) :
    Keeps r (State.coreReset s u) := by
  unfold State.coreReset
  with_reducible repeat' first | apply keeps_showCoreBusy | apply keeps_cutRuns | apply keeps_clearSlot | apply keeps_put | apply keeps_dropQueues | apply keeps_strandCore | simp only [keeps_mk_iff] | split | apply_assumption

theorem keeps_fencesDue {r s : State} (p : Nat → Bool) (h : Keeps r s) :
    Keeps r (State.fencesDue s p) := by
  unfold State.fencesDue
  with_reducible repeat' first | intro _ | apply keeps_fenceCore | apply keeps_fenceCluster | simp only [keeps_mk_iff] | apply keeps_forEach | split | apply_assumption

theorem keeps_resetStream {r s : State} (c id : Nat) (h : Keeps r s) :
    Keeps r (State.resetStream s c id) := by
  unfold State.resetStream
  with_reducible repeat' first | apply keeps_freeSlot | apply keeps_withdraw | apply keeps_put | simp only [keeps_mk_iff] | apply_assumption

theorem keeps_resetFaulted {r s : State} (c id : Nat) (h : Keeps r s) :
    Keeps r (State.resetFaulted s c id) := by
  unfold State.resetFaulted
  with_reducible repeat' first | apply keeps_freeSlot | apply keeps_dropEnding | simp only [keeps_mk_iff] | apply_assumption

theorem keeps_resetStreams {r s : State} (c : Nat) (h : Keeps r s) :
    Keeps r (State.resetStreams s c) := by
  unfold State.resetStreams
  with_reducible repeat' first | intro _ | apply keeps_resetFaulted | apply keeps_resetStream | apply keeps_forEach | apply_assumption

theorem keeps_cutTiles {r s : State} (c : Nat) (h : Keeps r s) :
    Keeps r (State.cutTiles s c) := by
  unfold State.cutTiles
  with_reducible repeat' first | intro _ | apply keeps_cutTile | apply keeps_letGo | apply keeps_forEach | apply_assumption

theorem keeps_clusterReset {r s : State} (c : Nat) (scrub : Bool) (h : Keeps r s) :
    Keeps r (State.clusterReset s c scrub) := by
  unfold State.clusterReset
  with_reducible repeat' first | apply keeps_cutRuns | apply keeps_cutTiles | apply keeps_resetStreams | apply keeps_put | apply keeps_showCoreBusy | simp only [keeps_mk_iff] | apply_assumption

theorem keeps_clusterResetReq {r s : State} (c : Nat) (scrub : Bool) (h : Keeps r s) :
    Keeps r (State.clusterResetReq s c scrub) := by
  unfold State.clusterResetReq
  with_reducible repeat' first | apply keeps_put | apply keeps_clusterReset | simp only [keeps_mk_iff] | split | apply_assumption

theorem keeps_resetRouterUnit {r s : State} (c : Nat) (h : Keeps r s) :
    Keeps r (State.resetRouterUnit s c) := by
  unfold State.resetRouterUnit
  with_reducible repeat' first | apply keeps_absorb | apply keeps_put | apply keeps_setReg | simp only [keeps_mk_iff] | apply_assumption

theorem keeps_powerAll {r s : State} (c : Nat) (h : Keeps r s) :
    Keeps r (State.powerAll s c) := by
  unfold State.powerAll
  with_reducible repeat' first | intro _ | apply keeps_setPart | simp only [keeps_mk_iff] | apply keeps_forEach | apply_assumption

theorem keeps_scrubCluster {r s : State} (c : Nat) (h : Keeps r s) :
    Keeps r (State.scrubCluster s c) := by
  unfold State.scrubCluster
  with_reducible repeat' first | apply keeps_powerAll | apply keeps_cleanRange | apply keeps_clearRange | simp only [keeps_mk_iff] | apply_assumption

theorem keeps_clusterClear {r s : State} (c : Nat) (scrub : Bool) (h : Keeps r s) :
    Keeps r (State.clusterClear s c scrub) := by
  unfold State.clusterClear
  with_reducible repeat' first | intro _ | apply keeps_clearSlot | apply keeps_wipeSync | apply keeps_resetRouterUnit | apply keeps_resetSeq | apply keeps_put | apply keeps_cleanRange | apply keeps_scrubCluster | apply keeps_forEach | split | apply_assumption

theorem keeps_resetNotify {r s : State} (c : Nat) (h : Keeps r s) :
    Keeps r (State.resetNotify s c) := by
  unfold State.resetNotify
  with_reducible repeat' first | intro _ | apply keeps_notify | simp only [keeps_mk_iff] | apply keeps_forEach | apply_assumption

theorem keeps_resumeTakeovers {r s : State} (c : Nat) (h : Keeps r s) :
    Keeps r (State.resumeTakeovers s c) := by
  unfold State.resumeTakeovers
  with_reducible repeat' first | intro _ | apply keeps_startTakeover | simp only [keeps_mk_iff] | apply keeps_forEach | apply_assumption

theorem keeps_clusterResetEnd {r s : State} (c : Nat) (h : Keeps r s) :
    Keeps r (State.clusterResetEnd s c) := by
  unfold State.clusterResetEnd
  with_reducible repeat' first | apply keeps_clusterClear | apply keeps_put | apply keeps_event | apply keeps_resetNotify | apply keeps_resumeTakeovers | apply keeps_fencesDue | simp only [keeps_mk_iff] | apply_assumption

theorem keeps_lodgingReset {r s : State} (l : Nat) (scrub : Bool) (h : Keeps r s) :
    Keeps r (State.lodgingReset s l scrub) := by
  unfold State.lodgingReset
  with_reducible repeat' first | intro _ | apply keeps_cutRuns | apply keeps_showCoreBusy | apply keeps_put | apply keeps_resetConns | apply keeps_putBit | simp only [keeps_mk_iff] | apply keeps_forEach | apply_assumption

theorem keeps_lodgingResetReq {r s : State} (l : Nat) (scrub : Bool) (h : Keeps r s) :
    Keeps r (State.lodgingResetReq s l scrub) := by
  unfold State.lodgingResetReq
  with_reducible repeat' first | apply keeps_lodgingReset | simp only [keeps_mk_iff] | split | apply_assumption

theorem keeps_setPhase {r s : State} (l n : Nat) (h : Keeps r s) :
    Keeps r (State.setPhase s l n) := by
  unfold State.setPhase
  with_reducible repeat' first | simp only [keeps_mk_iff] | apply_assumption

theorem keeps_unpark {r s : State} (l : Nat) (h : Keeps r s) :
    Keeps r (State.unpark s l) := by
  unfold State.unpark
  with_reducible repeat' first | intro _ | apply keeps_setOstler | apply keeps_forEach | apply_assumption

theorem keeps_sweepAbsorb {r s : State} (r' : Resp) (h : Keeps r s) :
    Keeps r (State.sweepAbsorb s r') := by
  unfold State.sweepAbsorb
  with_reducible repeat' first | apply keeps_emit | apply keeps_freeResp | apply keeps_put | simp only [keeps_mk_iff] | split | apply_assumption

theorem keeps_sweepLodging {r s : State} (l : Nat) (h : Keeps r s) :
    Keeps r (State.sweepLodging s l) := by
  unfold State.sweepLodging
  with_reducible repeat' first | intro _ | apply keeps_put | apply keeps_sweepAbsorb | apply keeps_forgetFlit | apply keeps_emit | apply keeps_eventL | apply keeps_forEach | apply keeps_ite | apply_assumption

theorem keeps_stopEntry {r s : State} (id : Nat) (h : Keeps r s) :
    Keeps r (State.stopEntry s id) := by
  unfold State.stopEntry
  with_reducible repeat' first | apply keeps_freeSlot | apply keeps_withdraw | apply keeps_put | simp only [keeps_mk_iff] | split | apply_assumption

theorem keeps_clearBarrier {r s : State} (b : Nat) (h : Keeps r s) :
    Keeps r (State.clearBarrier s b) := by
  unfold State.clearBarrier
  with_reducible repeat' first | apply keeps_put | simp only [keeps_mk_iff] | apply_assumption

theorem keeps_lodgingResetEnd {r s : State} (l : Nat) (scrub : Bool) (h : Keeps r s) :
    Keeps r (State.lodgingResetEnd s l scrub) := by
  unfold State.lodgingResetEnd
  with_reducible repeat' first | intro _ | apply keeps_resetFaulted | apply keeps_stopEntry | apply keeps_clusterClear | apply keeps_cutTiles | apply keeps_clearBarrier | apply keeps_dropTlb | apply keeps_wrap | apply keeps_putBit | apply keeps_put | apply keeps_resetNotify | apply keeps_eventL | apply keeps_resumeTakeovers | apply keeps_fencesDue | simp only [keeps_mk_iff] | apply keeps_forEach | split | apply_assumption

/-! Operations of Machine/Messages.lean. -/

theorem keeps_putSession {r s : State} (x : Session) (h : Keeps r s) :
    Keeps r (State.putSession s x) := by
  unfold State.putSession
  with_reducible repeat' first | simp only [keeps_mk_iff] | apply_assumption

theorem keeps_reply {r s : State} (n type : Nat) (status event reason : Nat) (body : List Nat) (h : Keeps r s) :
    Keeps r (State.reply s n type status event reason body) := by
  unfold State.reply
  with_reducible repeat' first | apply keeps_emit | apply keeps_putSession | simp only | split | apply_assumption

theorem keeps_done {r s : State} (n type : Nat) (body : List Nat) (h : Keeps r s) :
    Keeps r (State.done s n type body) := by
  unfold State.done
  with_reducible repeat' first | apply keeps_reply | apply_assumption

theorem keeps_refused {r s : State} (n type : Nat) (event reason : Nat) (h : Keeps r s) :
    Keeps r (State.refused s n type event reason) := by
  unfold State.refused
  with_reducible repeat' first | apply keeps_reply | apply_assumption

theorem keeps_endSession {r s : State} (n why : Nat) (h : Keeps r s) :
    Keeps r (State.endSession s n why) := by
  unfold State.endSession
  with_reducible repeat' first | apply keeps_record | simp only [keeps_mk_iff] | split | apply_assumption

theorem keeps_authDrop {r s : State} (h : Keeps r s) :
    Keeps r (State.authDrop s) := by
  unfold State.authDrop
  with_reducible repeat' first | apply keeps_stick | apply keeps_event | simp only [keeps_mk_iff] | split | apply_assumption

theorem keeps_roleRefused {r s : State} (x : Session) (type : Nat) (h : Keeps r s) :
    Keeps r (State.roleRefused s x type) := by
  unfold State.roleRefused
  with_reducible repeat' first | apply keeps_refused | apply keeps_record | apply_assumption

theorem keeps_message {r s : State} (h' : MsgHdr) (type : Nat) (r' : Role) (l : Option Nat) (act : Session → State → State) (h : Keeps r s) (h_act : ∀ a0 a1, Keeps r a1 → Keeps r (act a0 a1)) :
    Keeps r (State.message s h' type r' l act) := by
  unfold State.message
  with_reducible repeat' first | apply keeps_stick | apply keeps_authDrop | apply keeps_putSession | apply keeps_emit | apply keeps_roleRefused | apply keeps_ite | split | apply_assumption

/-! Operations of Machine/Images.lean. -/

theorem keeps_offer {r s : State} (dst source : Nat) (staged : Bool) (version size : Nat) (list : Bool) (h : Keeps r s) :
    Keeps r (State.offer s dst source staged version size list) := by
  unfold State.offer
  with_reducible repeat' first | apply keeps_emit | simp only [keeps_mk_iff] | split | apply_assumption

theorem keeps_chunk {r s : State} (dst offset : Nat) (bs : List (BitVec 8)) (t' : Transfer) (h : Keeps r s) :
    Keeps r (State.chunk s dst offset bs t') := by
  unfold State.chunk
  with_reducible repeat' first | apply keeps_emit | simp only [keeps_mk_iff] | split | apply_assumption

theorem keeps_listPart {r s : State} (p : HostList) (t' : Transfer) (h : Keeps r s) :
    Keeps r (State.listPart s p t') := by
  unfold State.listPart
  with_reducible repeat' first | apply keeps_event | apply keeps_stick | simp only [keeps_mk_iff] | split | apply_assumption

theorem keeps_settleMode {r s : State} (image : List (BitVec 8)) (h' : Option HostList) (h : Keeps r s) :
    Keeps r (State.settleMode s image h') := by
  unfold State.settleMode
  with_reducible repeat' first | apply keeps_put | apply keeps_event | apply keeps_stick | simp only [keeps_mk_iff] | split | apply_assumption

theorem keeps_imageRefused {r s : State} (dst why : Nat) (h : Keeps r s) :
    Keeps r (State.imageRefused s dst why) := by
  unfold State.imageRefused
  with_reducible repeat' first | apply keeps_emit | apply keeps_event | apply keeps_stick | simp only [keeps_mk_iff] | apply_assumption

theorem keeps_bootEnd {r s : State} (dst : Nat) (t' : Transfer) (h : Keeps r s) :
    Keeps r (State.bootEnd s dst t') := by
  unfold State.bootEnd
  with_reducible repeat' first | apply keeps_emit | apply keeps_settleMode | apply keeps_imageRefused | simp only | split | apply_assumption

theorem keeps_stageEnd {r s : State} (dst : Nat) (t' : Transfer) (h : Keeps r s) :
    Keeps r (State.stageEnd s dst t') := by
  unfold State.stageEnd
  with_reducible repeat' first | apply keeps_emit | apply keeps_event | apply keeps_stick | simp only [keeps_mk_iff] | split | apply_assumption

theorem keeps_outcomeSet {r s : State} (v : Nat) (h : Keeps r s) :
    Keeps r (State.outcomeSet s v) := by
  unfold State.outcomeSet
  with_reducible repeat' first | apply keeps_put | apply_assumption

theorem keeps_afterReset {r s : State} (h : Keeps r s) : Keeps r (State.afterReset s) := by
  unfold State.afterReset
  dsimp only
  have h0 : ∀ b pins, Keeps r { pending := s.pending, regs := s.regs.filter (fun p => keptRow (p.1 / 2 ^ 32)), otp := s.otp, boot := b, pins := pins, out := s.out, fresh := s.fresh } :=
    fun b pins => ⟨h.pending, fun _ => rfl, fun x => mwf_filter regReset _ _ (h.regs x), h.gens, h.owners, h.minVersions⟩
  split
  · exact keeps_ledgerAdvance _ (keeps_put _ _ _ _ (keeps_put _ _ _ _ (keeps_mk _ _ _ _ _ _ _ _ _ _ _ _ _ _ _ _ _
      (keeps_put _ _ _ _ (h0 _ _)))))
  · exact keeps_put _ _ _ _ (keeps_put _ _ _ _ (keeps_mk _ _ _ _ _ _ _ _ _ _ _ _ _ _ _ _ _ (keeps_put _ _ _ _ (h0 _ _))))

theorem keeps_deviceReset {r s : State} (cause : Nat) (h : Keeps r s) :
    Keeps r (State.deviceReset s cause) := by
  unfold State.deviceReset
  with_reducible repeat' first | intro _ | apply keeps_outcomeSet | apply keeps_event | apply keeps_endSession | apply keeps_afterReset | apply keeps_forEach | split | apply_assumption

/-! Operations of Machine/Placement.lean. -/

theorem keeps_foundAtStart {r s : State} (w : Nat) (h : Keeps r s) :
    Keeps r (State.foundAtStart s w) := by
  unfold State.foundAtStart
  with_reducible repeat' first | apply keeps_listDefect | simp only [keeps_mk_iff] | apply_assumption

theorem keeps_topologyDiff {r s : State} (u : List Nat) (links : List Nat) (routers : List Nat) (h : Keeps r s) :
    Keeps r (State.topologyDiff s u links routers) := by
  unfold State.topologyDiff
  with_reducible repeat' first | intro _ | apply keeps_foundAtStart | apply keeps_event | apply keeps_stick | apply keeps_forEach | apply keeps_ite | apply_assumption

theorem keeps_fillLanes {r s : State} (i n : Nat) (h : Keeps r s) :
    Keeps r (State.fillLanes s i n) := by
  unfold State.fillLanes
  with_reducible repeat' first | apply keeps_put | apply keeps_ite | apply_assumption

theorem keeps_fillTopology {r s : State} (u : List Nat) (links : List Nat) (routers : List Nat) (h : Keeps r s) :
    Keeps r (State.fillTopology s u links routers) := by
  unfold State.fillTopology
  with_reducible repeat' first | intro _ | apply keeps_fillLanes | apply keeps_put | apply keeps_endLinks | simp only [keeps_mk_iff] | apply keeps_forEach | split | apply_assumption

theorem keeps_setSizes {r s : State} (x : Nat) (z : List Nat) (h : Keeps r s) :
    Keeps r (State.setSizes s x z) := by
  unfold State.setSizes
  with_reducible repeat' first | apply keeps_put | apply_assumption

theorem keeps_slotOut {r s : State} (x : Nat) (h : Keeps r s) :
    Keeps r (State.slotOut s x) := by
  unfold State.slotOut
  with_reducible repeat' first | apply keeps_put | apply keeps_putBit | apply_assumption

theorem keeps_placeRow {r s : State} (u : List Nat) (c r' : Nat) (h : Keeps r s) :
    Keeps r (State.placeRow s u c r') := by
  unfold State.placeRow
  with_reducible repeat' first | intro _ | apply keeps_slotOut | apply keeps_setPresent | apply keeps_setMap | apply keeps_setSpare | apply keeps_setSizes | apply keeps_listDefect | apply keeps_event | simp only | apply keeps_forEach | split | apply_assumption

theorem keeps_placeCm {r s : State} (u : List Nat) (c : Nat) (h : Keeps r s) :
    Keeps r (State.placeCm s u c) := by
  unfold State.placeCm
  with_reducible repeat' first | intro _ | apply keeps_put | apply keeps_forEach | apply_assumption

theorem keeps_placeCluster {r s : State} (u : List Nat) (c : Nat) (h : Keeps r s) :
    Keeps r (State.placeCluster s u c) := by
  unfold State.placeCluster
  with_reducible repeat' first | intro _ | apply keeps_placeRow | apply keeps_placeCm | apply keeps_put | simp only [keeps_mk_iff] | apply keeps_forEach | split | apply_assumption

theorem keeps_placeSums {r s : State} (h : Keeps r s) :
    Keeps r (State.placeSums s) := by
  unfold State.placeSums
  with_reducible repeat' first | apply keeps_put | apply_assumption

theorem keeps_placePhase {r s : State} (d phase : Nat) (h : Keeps r s) :
    Keeps r (State.placePhase s d phase) := by
  unfold State.placePhase
  with_reducible repeat' first | apply keeps_putBit | apply keeps_setCeil | apply keeps_stopFaulted | apply keeps_ceilAll | simp only [keeps_mk_iff] | split | apply_assumption

theorem keeps_placeSensors {r s : State} (u : List Nat) (h : Keeps r s) :
    Keeps r (State.placeSensors s u) := by
  unfold State.placeSensors
  with_reducible repeat' first | intro _ | apply keeps_put | apply keeps_forEach | apply_assumption

theorem keeps_mergeDefects {r s : State} (h : Keeps r s) :
    Keeps r (State.mergeDefects s) := by
  unfold State.mergeDefects
  with_reducible repeat' first | intro _ | apply keeps_placeCluster | apply keeps_placePhase | apply keeps_placeSums | apply keeps_placeSensors | simp only [keeps_mk_iff] | apply keeps_forEach | apply_assumption

/-! Operations of Machine/Boot.lean. -/

theorem keeps_setFails {r s : State} (k n : Nat) (h : Keeps r s) :
    Keeps r (State.setFails s k n) := by
  unfold State.setFails
  with_reducible repeat' first | apply keeps_put | apply_assumption

theorem keeps_driveFault {r s : State} (h : Keeps r s) :
    Keeps r (State.driveFault s) := by
  unfold State.driveFault
  with_reducible repeat' first | simp only [keeps_mk_iff] | apply_assumption

theorem keeps_journalEntry {r s : State} (k : Nat) (h : Keeps r s) :
    Keeps r (State.journalEntry s k) := by
  unfold State.journalEntry
  with_reducible repeat' first | apply keeps_setReg | simp only [keeps_mk_iff] | apply_assumption

theorem keeps_stopForHost {r s : State} (h : Keeps r s) :
    Keeps r (State.stopForHost s) := by
  unfold State.stopForHost
  with_reducible repeat' first | apply keeps_event | apply keeps_driveFault | apply keeps_put | apply keeps_outcomeSet | apply_assumption

theorem keeps_beginStep {r s : State} (k : Nat) (h : Keeps r s) :
    Keeps r (State.beginStep s k) := by
  unfold State.beginStep
  with_reducible repeat' first | apply keeps_put | apply keeps_journalEntry | apply keeps_stopForHost | simp only [keeps_mk_iff] | split | apply_assumption

theorem keeps_countFailure {r s : State} (h : Keeps r s) :
    Keeps r (State.countFailure s) := by
  unfold State.countFailure
  with_reducible repeat' first | apply keeps_setFails | simp only [keeps_mk_iff] | split | apply_assumption

theorem keeps_startSequence {r s : State} (h : Keeps r s) :
    Keeps r (State.startSequence s) := by
  unfold State.startSequence
  with_reducible repeat' first | apply keeps_put | apply keeps_wrap | apply keeps_countFailure | apply keeps_beginStep | apply keeps_driveFault | simp only [keeps_mk_iff] | apply_assumption

theorem keeps_takeCommit {r s : State} (h : Keeps r s) :
    Keeps r (State.takeCommit s) := by
  unfold State.takeCommit
  with_reducible repeat' first | apply keeps_settleMode | apply keeps_event | apply keeps_stick | simp only [keeps_mk_iff] | split | apply_assumption

theorem keeps_testFindings {r s : State} (found : List Nat) (h : Keeps r s) :
    Keeps r (State.testFindings s found) := by
  unfold State.testFindings
  with_reducible repeat' first | intro _ | apply keeps_foundAtStart | apply keeps_event | apply keeps_forEach | apply_assumption

theorem keeps_leaveOut {r s : State} (units : List Nat) (h : Keeps r s) :
    Keeps r (State.leaveOut s units) := by
  unfold State.leaveOut
  with_reducible repeat' first | simp only [keeps_mk_iff] | apply_assumption

theorem keeps_alternative {r s : State} (k p : Nat) (r' : StepReport) (h : Keeps r s) :
    Keeps r (State.alternative s k p r') := by
  unfold State.alternative
  with_reducible repeat' first | intro _ | apply keeps_leaveOut | apply keeps_put | apply keeps_forEach | split | apply_assumption

theorem keeps_readOtp {r s : State} (h : Keeps r s) :
    Keeps r (State.readOtp s) := by
  unfold State.readOtp
  with_reducible repeat' first | apply keeps_put | apply keeps_stick | apply keeps_ite | apply_assumption

theorem keeps_dressTimes {r s : State} (h : Keeps r s) :
    Keeps r (State.dressTimes s) := by
  unfold State.dressTimes
  with_reducible repeat' first | simp only [keeps_mk_iff] | apply_assumption

theorem keeps_becomeReady {r s : State} (h : Keeps r s) : Keeps r (State.becomeReady s) := by
  have h0 : ∀ core ms boot, Keeps r { s with mem := [], core := core, ms := ms, boot := boot } :=
    fun _ _ _ => ⟨h.pending, fun _ => rfl, h.regs, h.gens, h.owners, h.minVersions⟩
  unfold State.becomeReady
  exact keeps_event _ _ _ (keeps_dressTimes (keeps_put _ _ _ _ (keeps_put _ _ _ _ (keeps_put _ _ _ _ (h0 _ _ _)))))

theorem keeps_stepEffect {r s : State} (k : Nat) (r' : StepReport) (h : Keeps r s) :
    Keeps r (State.stepEffect s k r') := by
  unfold State.stepEffect
  with_reducible repeat' first | intro _ | apply keeps_put | apply keeps_fillTopology | apply keeps_topologyDiff | apply keeps_testFindings | apply keeps_foundAtStart | apply keeps_mergeDefects | apply keeps_event | apply keeps_stick | apply keeps_becomeReady | apply keeps_forEach | split | apply_assumption

theorem keeps_stepDone {r s : State} (k : Nat) (r' : StepReport) (h : Keeps r s) :
    Keeps r (State.stepDone s k r') := by
  unfold State.stepDone
  with_reducible repeat' first | apply keeps_put | apply keeps_event | apply keeps_stick | apply keeps_alternative | apply keeps_stepEffect | apply keeps_takeCommit | apply keeps_beginStep | split | apply_assumption

theorem keeps_stepFail {r s : State} (unit : Nat) (h : Keeps r s) :
    Keeps r (State.stepFail s unit) := by
  unfold State.stepFail
  with_reducible repeat' first | apply keeps_put | apply keeps_outcomeSet | apply_assumption

theorem keeps_verifyStep {r s : State} (r' : StepReport) (h : Keeps r s) :
    Keeps r (State.verifyStep s r') := by
  unfold State.verifyStep
  with_reducible repeat' first | apply keeps_stepDone | apply keeps_imageRefused | apply keeps_outcomeSet | apply keeps_beginStep | simp only [keeps_mk_iff] | split | apply_assumption

theorem keeps_stepEnd {r s : State} (k : Nat) (r' : StepReport) (h : Keeps r s) :
    Keeps r (State.stepEnd s k r') := by
  unfold State.stepEnd
  with_reducible repeat' first | apply keeps_put | apply keeps_stepFail | apply keeps_verifyStep | apply keeps_readOtp | apply keeps_stopForHost | apply keeps_stepDone | apply keeps_event | apply keeps_ite | split | apply_assumption

theorem keeps_bootOffer {r s : State} (source version size : Nat) (list : Bool) (h : Keeps r s) :
    Keeps r (State.bootOffer s source version size list) := by
  unfold State.bootOffer
  with_reducible repeat' first | apply keeps_offer | apply keeps_ite | apply_assumption

theorem keeps_stageOffer {r s : State} (n version size : Nat) (list : Bool) (h : Keeps r s) :
    Keeps r (State.stageOffer s n version size list) := by
  unfold State.stageOffer
  with_reducible repeat' first | apply keeps_offer | simp only [keeps_mk_iff] | split | apply_assumption

theorem keeps_inTransfer {r s : State} (t' : Option Transfer) (f : Transfer → State → State) (h : Keeps r s) (h_f : ∀ a0 a1, Keeps r a1 → Keeps r (f a0 a1)) :
    Keeps r (State.inTransfer s t' f) := by
  unfold State.inTransfer
  with_reducible repeat' first | split | apply_assumption

theorem keeps_listMessage {r s : State} (p : HostList) (t' : Transfer) (h : Keeps r s) :
    Keeps r (State.listMessage s p t') := by
  unfold State.listMessage
  with_reducible repeat' first | apply keeps_listPart | split | apply_assumption

theorem keeps_instructed {r s : State} (what : Nat) (h : Keeps r s) :
    Keeps r (State.instructed s what) := by
  unfold State.instructed
  with_reducible repeat' first | apply keeps_driveFault | apply keeps_put | apply keeps_beginStep | simp only [keeps_mk_iff] | split | apply_assumption

theorem keeps_burnInto {r : State} (cut : Bool) (n fails : Nat) (l : List Nat) {s : State} (h : Keeps r s) :
    Keeps r (State.burnInto cut n fails l s) := by
  induction n generalizing s fails with
  | zero => exact keeps_event _ _ _ (keeps_stick _ _ _ h)
  | succ n ih =>
    unfold State.burnInto
    dsimp only
    split
    · exact keeps_event _ _ _ (keeps_stick _ _ _ h)
    · have h0 : ∀ x, Keeps r { s with otp := { s.otp with gens := s.otp.gens ++ [x] } } := fun x =>
        ⟨h.pending, h.mem, h.regs, h.gens.trans (List.prefix_append _ _), h.owners, h.minVersions⟩
      split
      · exact ih _ (keeps_wrap _ _ _ _ (keeps_put _ _ _ _ (h0 _)))
      · split
        · exact keeps_put _ _ _ _ (h0 _)
        · exact keeps_event _ _ _ (keeps_wrap _ _ _ _ (keeps_put _ _ _ _ (h0 _)))

theorem keeps_burn {r s : State} (fails : Nat) (cut : Bool) (h : Keeps r s) :
    Keeps r (State.burn s fails cut) := by
  unfold State.burn
  with_reducible repeat' first | apply keeps_burnInto | split | apply_assumption

end Sys2Proof.Machine
end

