-- ==== Sys2Proof/Laws/KeepsHosts.lean ====
section
/-! SUPPORT. One lemma for each operation of lodgings, checkpoints, control space, Ethernet, management and the pins: what it keeps (Laws/Keeps.lean). -/

namespace Sys2Proof.Machine

/-! Operations of Machine/Frames.lean. -/

theorem keeps_convertBand {r s : State} (b : Nat) (h : Keeps r s) :
    Keeps r (State.convertBand s b) := by
  unfold State.convertBand
  with_reducible repeat' first | apply keeps_putBit | apply_assumption

theorem keeps_convertFor {r s : State} (w : FrameWish) (want n : Nat) (h : Keeps r s) :
    ∀ l t, s.convertFor w want n = some (l, t) → Keeps r t := by
  induction n generalizing s with
  | zero => intro l t e; cases e
  | succ n ih =>
    intro l t e
    unfold State.convertFor at e
    dsimp only at e
    split at e
    · cases e; exact h
    · split at e
      · cases e
      · rw [Option.map_eq_some_iff] at e
        obtain ⟨p, e1, e2⟩ := e
        cases e2
        exact ih (keeps_convertBand _ h) _ _ e1

theorem keeps_grantFrames {r s : State} (l : Nat) (fs : List Nat) (h : Keeps r s) :
    Keeps r (State.grantFrames s l fs) := by
  unfold State.grantFrames
  with_reducible repeat' first | simp only [keeps_mk_iff] | apply_assumption

theorem keeps_pumpScrubGo {r : State} (n : Nat) {s : State} (h : Keeps r s) : Keeps r (State.pumpScrubGo n s) := by
  induction n generalizing s with
  | zero => exact h
  | succ n ih =>
    unfold State.pumpScrubGo
    split
    · exact h
    · split
      · exact h
      · exact ih (keeps_scrubSubmit _ _ (keeps_mk _ _ _ _ _ _ _ _ _ _ _ _ _ _ _ _ _ h))

theorem keeps_pumpScrub {r s : State} (h : Keeps r s) :
    Keeps r (State.pumpScrub s) := by
  unfold State.pumpScrub
  with_reducible repeat' first | apply keeps_pumpScrubGo | apply_assumption

theorem keeps_queueScrubs {r s : State} (l : List (Nat × Nat)) (h : Keeps r s) :
    Keeps r (State.queueScrubs s l) := by
  unfold State.queueScrubs
  with_reducible repeat' first | apply keeps_pumpScrub | simp only [keeps_mk_iff] | apply_assumption

theorem keeps_pumpInval {r s : State} (h : Keeps r s) :
    Keeps r (State.pumpInval s) := by
  unfold State.pumpInval
  with_reducible repeat' first | apply keeps_tlbInval | simp only [keeps_mk_iff] | split | apply_assumption

theorem keeps_queueInval {r s : State} (v : Inval) (h : Keeps r s) :
    Keeps r (State.queueInval s v) := by
  unfold State.queueInval
  with_reducible repeat' first | apply keeps_pumpInval | simp only [keeps_mk_iff] | apply_assumption

theorem keeps_clearPages {r s : State} (l : Nat) (ps : List Nat) (h : Keeps r s) :
    Keeps r (State.clearPages s l ps) := by
  unfold State.clearPages
  with_reducible repeat' first | intro _ | apply keeps_physWrite | apply keeps_forEach | apply_assumption

theorem keeps_releaseFrames {r s : State} (l : Nat) (fs : List Nat) (session : Option (Nat × Nat)) (h : Keeps r s) :
    Keeps r (State.releaseFrames s l fs session) := by
  unfold State.releaseFrames
  with_reducible repeat' first | apply keeps_clearPages | apply keeps_queueInval | simp only [keeps_mk_iff] | apply_assumption

theorem keeps_afterInval {r s : State} (h : Keeps r s) :
    Keeps r (State.afterInval s).1 := by
  unfold State.afterInval
  with_reducible repeat' first | apply keeps_queueScrubs | simp only [keeps_mk_iff] | split | apply_assumption

theorem keeps_freeScrubbed {r s : State} (j : Nat × Nat) (h : Keeps r s) :
    Keeps r (State.freeScrubbed s j) := by
  unfold State.freeScrubbed
  with_reducible repeat' first | simp only [keeps_mk_iff] | apply_assumption

/-! Operations of Machine/Lodging.lean. -/

theorem keeps_serialMessage {r s : State} (h' : MsgHdr) (type : Nat) (r' : Role) (l : Option Nat) (act : Session → State → State) (h : Keeps r s) (h_act : ∀ a0 a1, Keeps r a1 → Keeps r (act a0 a1)) :
    Keeps r (State.serialMessage s h' type r' l act) := by
  unfold State.serialMessage
  with_reducible repeat' first | apply keeps_message | apply keeps_ite | apply_assumption

theorem keeps_malformed {r s : State} (n type : Nat) (h : Keeps r s) :
    Keeps r (State.malformed s n type) := by
  unfold State.malformed
  with_reducible repeat' first | apply keeps_reply | apply_assumption

theorem keeps_grantUnits {r s : State} (q : LodgingReq) (fs : List Nat) (h : Keeps r s) :
    Keeps r (State.grantUnits s q fs) := by
  unfold State.grantUnits
  with_reducible repeat' first | intro _ | apply keeps_put | apply keeps_grantFrames | apply keeps_forEach | apply_assumption

theorem keeps_ckptDefaults {r s : State} (l : Nat) (h : Keeps r s) :
    Keeps r (State.ckptDefaults s l) := by
  unfold State.ckptDefaults
  with_reducible repeat' first | intro _ | apply keeps_setReg | apply keeps_put | simp only [keeps_mk_iff] | apply keeps_forEach | apply_assumption

theorem keeps_openGrant {r s : State} (n : Nat) (q : LodgingReq) (h : Keeps r s) :
    Keeps r (State.openGrant s n q) := by
  unfold State.openGrant
  with_reducible repeat' first | apply keeps_put | apply keeps_grantUnits | apply keeps_draw | apply keeps_ckptDefaults | apply keeps_done | apply keeps_record | simp only [keeps_mk_iff] | apply_assumption

theorem keeps_changedEvent {r s : State} (l old : Nat) (h : Keeps r s) :
    Keeps r (State.changedEvent s l old) := by
  unfold State.changedEvent
  with_reducible repeat' first | apply keeps_eventL | apply_assumption

theorem keeps_addGrant {r s : State} (n : Nat) (q : LodgingReq) (h : Keeps r s) :
    Keeps r (State.addGrant s n q) := by
  unfold State.addGrant
  with_reducible repeat' first | apply keeps_grantUnits | apply keeps_put | apply keeps_done | apply keeps_changedEvent | apply_assumption

/-! Operations of Machine/Ostler.lean. -/

theorem keeps_grant {r s : State} (a : Act) (h : Keeps r s) :
    Keeps r (State.grant s a) := by
  unfold State.grant
  with_reducible repeat' first | apply keeps_openGrant | apply keeps_addGrant | split | apply_assumption

/-! Operations of Machine/Lodging.lean. -/

theorem keeps_beginGrant {r s : State} (n kind : Nat) (q : LodgingReq) (ok : Bool) (mode : Nat) (h : Keeps r s) :
    Keeps r (State.beginGrant s n kind q ok mode) := by
  unfold State.beginGrant
  split
  · exact keeps_refused _ _ _ _ (keeps_record _ h)
  · rename_i bands t e
    have ht : Keeps r t := by
      split at e
      · exact keeps_convertFor _ _ _ h _ _ e
      · cases e
    dsimp only
    split
    · exact keeps_grant _ ht
    · exact keeps_queueScrubs _ (keeps_mk _ _ _ _ _ _ _ _ _ _ _ _ _ _ _ _ _ ht)

theorem keeps_beginLeave {r s : State} (n kind : Nat) (q : LodgingReq) (h : Keeps r s) :
    Keeps r (State.beginLeave s n kind q) := by
  unfold State.beginLeave
  with_reducible repeat' first | intro _ | apply keeps_put | apply keeps_lodgingResetReq | simp only [keeps_mk_iff] | apply keeps_forEach | apply_assumption

theorem keeps_disown {r s : State} (c : Nat) (h : Keeps r s) :
    Keeps r (State.disown s c) := by
  unfold State.disown
  with_reducible repeat' first | apply keeps_put | apply_assumption

theorem keeps_eraseSlot {r s : State} (l k : Nat) (h : Keeps r s) :
    Keeps r (State.eraseSlot s l k) := by
  unfold State.eraseSlot
  with_reducible repeat' first | apply keeps_eventL | apply keeps_put | simp only [keeps_mk_iff] | split | apply_assumption

theorem keeps_dropConns {r s : State} (l : Nat) (h : Keeps r s) :
    Keeps r (State.dropConns s l) := by
  unfold State.dropConns
  with_reducible repeat' first | intro _ | apply keeps_setReg | simp only [keeps_mk_iff] | apply keeps_forEach | apply_assumption

theorem keeps_closeRanges {r s : State} (l : Nat) (h : Keeps r s) :
    Keeps r (State.closeRanges s l) := by
  unfold State.closeRanges
  have h1 := keeps_regs (s.regs.filter (fun p => !(streamRow (p.1 / 2 ^ 32) && s.inRange l (p.1 % 2 ^ 20))))
    (fun x => mwf_filter regReset _ _ x) h
  repeat' first | with_reducible assumption | intro _ | with_reducible apply keeps_put | with_reducible apply keeps_setReg | with_reducible apply keeps_queueInval | with_reducible apply keeps_clearPages | with_reducible apply keeps_dropConns | with_reducible apply keeps_forEach | with_reducible apply keeps_eraseSlot | simp only [keeps_mk_iff]

theorem keeps_closeEnd {r s : State} (n l : Nat) (h : Keeps r s) :
    Keeps r (State.closeEnd s n l) := by
  unfold State.closeEnd
  with_reducible repeat' first | intro _ | apply keeps_disown | apply keeps_closeRanges | apply keeps_put | apply keeps_done | apply keeps_eventL | apply keeps_endSession | apply keeps_forEach | apply_assumption

theorem keeps_removeEnd {r s : State} (n : Nat) (q : LodgingReq) (h : Keeps r s) :
    Keeps r (State.removeEnd s n q) := by
  unfold State.removeEnd
  with_reducible repeat' first | intro _ | apply keeps_disown | apply keeps_done | apply keeps_changedEvent | apply keeps_put | apply keeps_forEach | apply_assumption

theorem keeps_endAct {r s : State} (a : Act) (h : Keeps r s) :
    Keeps r (State.endAct s a) := by
  unfold State.endAct
  with_reducible repeat' first | simp only [keeps_mk_iff] | apply_assumption

theorem keeps_afterLodgingReset {r s : State} (l : Nat) (h : Keeps r s) :
    Keeps r (State.afterLodgingReset s l) := by
  unfold State.afterLodgingReset
  with_reducible repeat' first | intro _ | apply keeps_closeEnd | apply keeps_endAct | apply keeps_clusterResetReq | apply keeps_done | simp only [keeps_mk_iff] | apply keeps_forEach | split | apply_assumption

theorem keeps_afterClusterReset {r s : State} (h : Keeps r s) :
    Keeps r (State.afterClusterReset s) := by
  unfold State.afterClusterReset
  with_reducible repeat' first | intro _ | apply keeps_removeEnd | apply keeps_endAct | apply keeps_forEach | apply_assumption

theorem keeps_afterScrub {r s : State} (j : Nat × Nat) (h : Keeps r s) :
    Keeps r (State.afterScrub s j) := by
  unfold State.afterScrub
  with_reducible repeat' first | intro _ | apply keeps_grant | apply keeps_endAct | simp only [keeps_mk_iff] | apply keeps_forEach | split | apply_assumption

theorem keeps_pageMap {r s : State} (n l : Nat) (es : List PageEntry) (h : Keeps r s) :
    Keeps r (State.pageMap s n l es) := by
  unfold State.pageMap
  with_reducible repeat' first | intro _ | apply keeps_physWrite | apply keeps_queueInval | apply keeps_forEach | apply_assumption

theorem keeps_keyInstall {r s : State} (n l : Nat) (k id : Nat) (dir wrapped : Nat) (h : Keeps r s) :
    Keeps r (State.keyInstall s n l k id dir wrapped) := by
  unfold State.keyInstall
  with_reducible repeat' first | apply keeps_put | apply keeps_done | apply keeps_eventL | apply keeps_refused | apply keeps_stick | simp only [keeps_mk_iff] | split | apply_assumption

theorem keeps_drawKey {r s : State} (x : Session) (modulus : Option (List (BitVec 8))) (h : Keeps r s) :
    Keeps r (State.drawKey s x modulus).2 := by
  unfold State.drawKey
  with_reducible repeat' first | apply keeps_draw | simp only [keeps_mk_iff] | split | apply_assumption

theorem keeps_attest {r s : State} (x : Session) (nonce : Nat) (modulus : Option (List (BitVec 8))) (h : Keeps r s) :
    Keeps r (State.attest s x nonce modulus) := by
  unfold State.attest
  with_reducible repeat' first | apply keeps_drawKey | apply keeps_done | apply keeps_record | apply_assumption

/-! Operations of Machine/Ckpt.lean. -/

theorem keeps_setCkPhase {r s : State} (l n : Nat) (h : Keeps r s) :
    Keeps r (State.setCkPhase s l n) := by
  unfold State.setCkPhase
  with_reducible repeat' first | simp only [keeps_mk_iff] | apply_assumption

theorem keeps_captureDue {r s : State} (l d : Nat) (h : Keeps r s) :
    Keeps r (State.captureDue s l d) := by
  unfold State.captureDue
  with_reducible repeat' first | apply keeps_put | apply keeps_setCkPhase | apply keeps_ckEvent | apply keeps_stick | simp only [keeps_mk_iff] | split | apply_assumption

theorem keeps_releaseHeld {r s : State} (l : Nat) (h : Keeps r s) :
    Keeps r (State.releaseHeld s l) := by
  unfold State.releaseHeld
  with_reducible repeat' first | intro _ | apply keeps_ahead | apply keeps_trace | apply keeps_put | simp only [keeps_mk_iff] | apply keeps_forEach | split | apply_assumption

theorem keeps_abandonCapture {r s : State} (l : Nat) (h : Keeps r s) :
    Keeps r (State.abandonCapture s l) := by
  unfold State.abandonCapture
  with_reducible repeat' first | apply keeps_put | apply keeps_setCkPhase | apply keeps_ckCfgCommit | apply keeps_ckEvent | apply keeps_stick | apply keeps_releaseHeld | apply_assumption

theorem keeps_capture {r s : State} (l : Nat) (h : Keeps r s) : ∀ t, s.capture l = .next t → Keeps r t := by
  intro t e
  unfold State.capture at e
  dsimp only at e
  split at e
  · cases e; exact h
  · rename_i e2
    refine keeps_next (keeps_abandonCapture _ (keeps_of_eq e2 (keeps_writeAll _ _ _ h))) e
  · rename_i e2
    exact keeps_next (keeps_put _ _ _ _ (keeps_put _ _ _ _ (keeps_setCkPhase _ _ (keeps_of_eq e2 (keeps_writeAll _ _ _ h))))) e

theorem keeps_putDrain {r s : State} (d : Drain) (h : Keeps r s) :
    Keeps r (State.putDrain s d) := by
  unfold State.putDrain
  with_reducible repeat' first | simp only [keeps_mk_iff] | apply_assumption

theorem keeps_drainWire {r s : State} (d : Drain) (psn : Nat) (h : Keeps r s) :
    Keeps r (State.drainWire s d psn) := by
  unfold State.drainWire
  with_reducible repeat' first | apply keeps_sendMessage | apply_assumption

theorem keeps_drainSend {r s : State} (d : Drain) (h : Keeps r s) :
    Keeps r (State.drainSend s d) := by
  unfold State.drainSend
  with_reducible repeat' first | apply keeps_drainFail | apply keeps_drainWire | apply keeps_putDrain | apply keeps_putConn | split | apply_assumption

theorem keeps_unreserve {r s : State} (l c : Nat) (h : Keeps r s) :
    Keeps r (State.unreserve s l c) := by
  unfold State.unreserve
  with_reducible repeat' first | apply keeps_put | split | apply_assumption

theorem keeps_drainNext {r s : State} (d : Drain) (h : Keeps r s) : ∀ t, s.drainNext d = some t → Keeps r t := by
  intro t e
  unfold State.drainNext at e
  dsimp only at e
  split at e
  · split at e
    · split at e
      · cases e
      · rename_i e2
        exact keeps_some (keeps_drainFail _ (keeps_unreserve _ _ (keeps_of_eq e2 (keeps_writeAll _ _ _ h)))) e
      · rename_i e2
        exact keeps_some (keeps_drainSend _ (keeps_of_eq e2 (keeps_writeAll _ _ _ h))) e
    · split at e
      · cases e
      · rename_i e2
        exact keeps_some (keeps_drainFail _ (keeps_unreserve _ _ (keeps_of_eq e2 (keeps_readMem _ _ _ h)))) e
      · rename_i e2
        exact keeps_some (keeps_drainSend _ (keeps_of_eq e2 (keeps_readMem _ _ _ h))) e
  · exact keeps_some (keeps_drainSend _ h) e
  · exact keeps_some (keeps_ckCfgCommit _ (keeps_ckEvent _ _ _ _ (keeps_unreserve _ _ (keeps_put _ _ _ _ (keeps_setCkPhase _ _
      (keeps_mk _ _ _ _ _ _ _ _ _ _ _ _ _ _ _ _ _ h)))))) e

theorem keeps_drainBegin {r s : State} (l n : Nat) (h : Keeps r s) : ∀ t, s.drainBegin l n = some t → Keeps r t := by
  intro t e
  unfold State.drainBegin at e
  dsimp only at e
  have h1 := keeps_put fET_CKPT_STATUS_DRAINING 0 l 1 (keeps_setCkPhase l 3 h)
  split at e
  · exact absurd e.symm (Option.some_ne_none _)
  · split at e
    · exact keeps_drainNext _ (keeps_put _ _ _ _ (keeps_mk _ _ _ _ _ _ _ _ _ _ _ _ _ _ _ _ _ h1)) _ e
    · exact keeps_some (keeps_drainFail _ h1) e

theorem keeps_taken {r s : State} (l : Nat) (h : Keeps r s) :
    ∀ t, State.taken s l = some t → Keeps r t := by
  intro t e
  unfold State.taken at e
  (repeat' split at e) <;> first | (refine keeps_drainBegin _ _ ?_ _ e; all_goals (with_reducible repeat' first | apply keeps_releaseHeld | apply keeps_put | apply keeps_ckEvent | apply_assumption); done)

theorem keeps_readImage {r s : State} (l : Nat) (h : Keeps r s) :
    Keeps r (State.readImage s l).2 := by
  unfold State.readImage
  with_reducible repeat' first | apply keeps_readMem | simp only | refine keeps_of_eq (by assumption) ?_ | split | apply_assumption

theorem keeps_resumeRefuse {r s : State} (l r' : Nat) (h : Keeps r s) :
    Keeps r (State.resumeRefuse s l r') := by
  unfold State.resumeRefuse
  with_reducible repeat' first | apply keeps_ckEvent | apply keeps_put | apply_assumption

theorem keeps_resumeStart {r s : State} (l base : Nat) (h : Keeps r s) :
    ∀ t, s.resumeStart l base = some t → Keeps r t := by
  intro t e
  unfold State.resumeStart at e
  dsimp only at e
  have h1 := keeps_put fET_RESUME0_BASE 0 l (65536 * (base / 65536)) h
  split at e
  · exact keeps_some h e
  · split at e
    · cases e
    · rename_i e2
      exact keeps_some (keeps_resumeRefuse _ _ (keeps_of_eq e2 (keeps_readImage _ h1))) e
    · rename_i e2
      have h2 := keeps_of_eq e2 (keeps_readImage _ h1)
      split at e
      · exact keeps_some (keeps_put _ _ _ _ (keeps_put _ _ _ _ h2)) e
      · exact keeps_some (keeps_resumeRefuse _ _ h2) e

theorem keeps_restoreCluster {r s : State} (c o : Nat) (img : List (BitVec 8)) (h : Keeps r s) :
    Keeps r (State.restoreCluster s c o img) := by
  unfold State.restoreCluster
  with_reducible repeat' first | intro _ | apply keeps_setReg | apply keeps_put | simp only [keeps_mk_iff] | apply keeps_forEach | apply_assumption

theorem keeps_restoreEntry {r s : State} (id o delta : Nat) (img : List (BitVec 8)) (h : Keeps r s) :
    Keeps r (State.restoreEntry s id o delta img) := by
  unfold State.restoreEntry
  with_reducible repeat' first | intro _ | apply keeps_entryWrite | apply keeps_put | apply keeps_forEach | apply keeps_ite | apply_assumption

theorem keeps_restoreBarrier {r s : State} (b w : Nat) (h : Keeps r s) :
    Keeps r (State.restoreBarrier s b w) := by
  unfold State.restoreBarrier
  with_reducible repeat' first | apply keeps_put | apply_assumption

theorem keeps_restore {r s : State} (l : Nat) (img : List (BitVec 8)) (h : Keeps r s) :
    Keeps r (State.restore s l img) := by
  unfold State.restore
  with_reducible repeat' first | intro _ | apply keeps_restoreCluster | apply keeps_restoreBarrier | apply keeps_restoreEntry | apply keeps_put | apply keeps_ckEvent | apply keeps_forEach | apply_assumption

/-! Operations of Machine/CtrlSpace.lean. -/

theorem keeps_csCrossed {r s : State} (rq : Rq) (a : Nat) (h : Keeps r s) :
    Keeps r (State.csCrossed s rq a) := by
  unfold State.csCrossed
  with_reducible repeat' first | apply keeps_crossed | split | apply_assumption

theorem keeps_regPlain {r s : State} (r' u i : Nat) (w : Word) (h : Keeps r s) :
    Keeps r (State.regPlain s r' u i w) := by
  unfold State.regPlain
  with_reducible repeat' first | intro _ | apply keeps_put | apply keeps_writeAcc | apply keeps_holdSh | apply keeps_foldl | split | apply_assumption

theorem keeps_commitSh {r s : State} (r' u i : Nat) (h : Keeps r s) :
    Keeps r (State.commitSh s r' u i) := by
  unfold State.commitSh
  with_reducible repeat' first | apply keeps_loadSeed | apply keeps_takeSh | apply keeps_discSelect | apply keeps_ledgerAdvance | apply keeps_dropSh | simp only [keeps_mk_iff] | split | apply_assumption

theorem keeps_coWrite {r s : State} (r' u i : Nat) (w : Word) (h : Keeps r s) :
    Keeps r (State.coWrite s r' u i w) := by
  unfold State.coWrite
  with_reducible repeat' first | intro _ | apply keeps_clearCounts | apply keeps_powerRequest | apply keeps_commitSh | apply keeps_regPlain | simp only [keeps_mk_iff] | apply keeps_forEach | split | apply_assumption

theorem keeps_clWrite {r s : State} (rq : Rq) (r' c i : Nat) (w : Word) (h : Keeps r s) :
    Keeps r (State.clWrite s rq r' c i w) := by
  unfold State.clWrite
  with_reducible repeat' first | intro _ | apply keeps_semWrite | apply keeps_powerRequest | apply keeps_flagOp | apply keeps_submitJob | apply keeps_coreReset | apply keeps_clusterResetReq | apply keeps_regPlain | apply keeps_forEach | apply keeps_ite | apply_assumption

theorem keeps_sqWrite {r s : State} (r' c i : Nat) (w : Word) (h : Keeps r s) :
    Keeps r (State.sqWrite s r' c i w) := by
  unfold State.sqWrite
  with_reducible repeat' first | apply keeps_busyWrite | apply keeps_holdSh | apply keeps_regPlain | apply keeps_ite | apply_assumption

theorem keeps_glWrite {r s : State} (rq : Rq) (r' i : Nat) (w : Word) (h : Keeps r s) :
    Keeps r (State.glWrite s rq r' i w) := by
  unfold State.glWrite
  with_reducible repeat' first | apply keeps_put | apply keeps_entryWrite | apply keeps_busyWrite | apply keeps_stopAct | apply keeps_tlbInval | apply keeps_scrubSubmit | apply keeps_lodgingResetReq | apply keeps_regPlain | apply keeps_ite | apply_assumption

theorem keeps_nwWrite {r s : State} (r' i : Nat) (w : Word) (h : Keeps r s) :
    Keeps r (State.nwWrite s r' i w) := by
  unfold State.nwWrite
  with_reducible repeat' first | apply keeps_busyWrite | apply keeps_armSwitch | apply keeps_retrain | apply keeps_removeLink | apply keeps_armSweep | apply keeps_holdSh | apply keeps_regPlain | apply keeps_ite | apply_assumption

theorem keeps_hbWrite {r s : State} (r' k i : Nat) (w : Word) (h : Keeps r s) :
    Keeps r (State.hbWrite s r' k i w) := by
  unfold State.hbWrite
  with_reducible repeat' first | apply keeps_busyWrite | apply keeps_regPlain | apply keeps_armRate | apply keeps_ite | apply_assumption

theorem keeps_mgWrite {r s : State} (r' i : Nat) (w : Word) (h : Keeps r s) :
    Keeps r (State.mgWrite s r' i w) := by
  unfold State.mgWrite
  with_reducible repeat' first | apply keeps_mirrorSet | apply keeps_deviceReset | apply keeps_burn | apply keeps_put | apply keeps_regPlain | split | apply_assumption

theorem keeps_tmWrite {r s : State} (r' i : Nat) (w : Word) (h : Keeps r s) :
    Keeps r (State.tmWrite s r' i w) := by
  unfold State.tmWrite
  with_reducible repeat' first | apply keeps_siteNowWrite | apply keeps_stepForward | apply keeps_stepTableWrite | apply keeps_startSwitch | apply keeps_tmIgnore | apply keeps_put | apply keeps_regPlain | split | apply_assumption

theorem keeps_pwWrite {r s : State} (r' i : Nat) (w : Word) (h : Keeps r s) :
    Keeps r (State.pwWrite s r' i w) := by
  unfold State.pwWrite
  with_reducible repeat' first | apply keeps_capWrite | apply keeps_busyWrite | apply keeps_regPlain | apply keeps_ite | apply_assumption

theorem keeps_postTail {r s : State} (x : Conn) (tail : Nat) (h : Keeps r s) :
    Keeps r (State.postTail s x tail) := by
  unfold State.postTail
  with_reducible repeat' first | apply keeps_connEvent | apply keeps_putConn | apply keeps_put | apply keeps_ite | apply_assumption

theorem keeps_freeRx {r s : State} (x : Conn) (rx : Nat) (h : Keeps r s) :
    Keeps r (State.freeRx s x rx) := by
  unfold State.freeRx
  with_reducible repeat' first | apply keeps_putConn | apply keeps_put | apply keeps_ite | apply_assumption

theorem keeps_connPost {r s : State} (l c : Nat) (w : Word) (h : Keeps r s) :
    Keeps r (State.connPost s l c w) := by
  unfold State.connPost
  with_reducible repeat' first | apply keeps_regPlain | apply keeps_freeRx | apply keeps_postTail | simp only | split | apply_assumption

theorem keeps_etWrite {r s : State} (r' i : Nat) (w : Word) (h : Keeps r s) :
    ∀ t, State.etWrite s r' i w = some t → Keeps r t := by
  intro t e
  unfold State.etWrite at e
  (repeat' split at e) <;> first | (refine keeps_some ?_ e; with_reducible repeat' first | apply keeps_regPlain | apply keeps_busyWrite | apply keeps_put | apply keeps_connPost | apply_assumption; done) | (refine keeps_resumeStart _ _ ?_ _ e; all_goals (with_reducible repeat' first | apply keeps_regPlain | apply keeps_busyWrite | apply keeps_put | apply keeps_connPost | apply_assumption); done)

theorem keeps_regWrite {r s : State} (rq : Rq) (r' u i : Nat) (w : Word) (h : Keeps r s) :
    ∀ t, State.regWrite s rq r' u i w = some t → Keeps r t := by
  intro t e
  unfold State.regWrite at e
  (repeat' split at e) <;> first | (refine keeps_some ?_ e; with_reducible repeat' first | apply keeps_coWrite | apply keeps_clWrite | apply keeps_sqWrite | apply keeps_glWrite | apply keeps_nwWrite | apply keeps_hbWrite | apply keeps_mgWrite | apply keeps_tmWrite | apply keeps_pwWrite | apply keeps_regPlain | apply_assumption; done) | (refine keeps_etWrite _ _ _ ?_ _ e; all_goals (with_reducible repeat' first | apply keeps_coWrite | apply keeps_clWrite | apply keeps_sqWrite | apply keeps_glWrite | apply keeps_nwWrite | apply keeps_hbWrite | apply keeps_mgWrite | apply keeps_tmWrite | apply keeps_pwWrite | apply keeps_regPlain | apply_assumption); done)

theorem keeps_csWrite {r s : State} (rq : Rq) (a : Nat) (w : Word) (h : Keeps r s) :
    Keeps r (State.csWrite s rq a w).2 := by
  unfold State.csWrite
  with_reducible repeat' first | apply keeps_emit | apply keeps_unreachable | apply keeps_csCrossed | apply keeps_csRefuse | apply keeps_stick | refine keeps_regWrite _ _ _ _ _ ?_ _ (by assumption) | simp only | split | apply_assumption

theorem keeps_csRead {r s : State} (rq : Rq) (a : Nat) (h : Keeps r s) :
    Keeps r (State.csRead s rq a).2 := by
  unfold State.csRead
  with_reducible repeat' first | apply keeps_emit | apply keeps_unreachable | apply keeps_csCrossed | apply keeps_csRefuse | simp only | split | apply_assumption

theorem keeps_csNarrow {r s : State} (rq : Rq) (a : Nat) (h : Keeps r s) :
    Keeps r (State.csNarrow s rq a) := by
  unfold State.csNarrow
  with_reducible repeat' first | apply keeps_emit | apply_assumption

/-! Operations of Machine/LoadStore.lean. -/

theorem keeps_lsHold {r s : State} (u : Nat) (addrs : List Nat) (h : Keeps r s) :
    Keeps r (State.lsHold s u addrs) := by
  unfold State.lsHold
  with_reducible repeat' first | intro _ | apply keeps_awaitAck | apply keeps_forEach | apply_assumption

theorem keeps_lsGot {A : Type} {r s : State} (u a : Nat) (g : Got A × State) (f : A → State → State)
    (h : Keeps r s) (hg : Keeps r g.2) (h_f : ∀ x t, Keeps r t → Keeps r (f x t)) : Keeps r (s.lsGot u a g f) := by
  unfold State.lsGot
  split
  · exact h
  · exact keeps_progFault _ _ _ hg
  · exact h_f _ _ hg

theorem keeps_lsRead {r s : State} (u a sz : Nat) (h : Keeps r s) :
    Keeps r (State.lsRead s u a sz).2 := by
  unfold State.lsRead
  with_reducible repeat' first | apply keeps_csRead | apply keeps_readMem | refine keeps_of_eq (by assumption) ?_ | split | apply_assumption

theorem keeps_ldBody {r s : State} (u : Nat) (x : Payload) (h : Keeps r s) :
    Keeps r (State.ldBody s u x) := by
  unfold State.ldBody
  with_reducible repeat' first | intro _ | apply keeps_progFault | apply keeps_lsGot | apply keeps_lsRead | apply keeps_retire | simp only | split | apply_assumption

theorem keeps_lsWrite {r s : State} (u a sz : Nat) (w : Word) (h : Keeps r s) :
    Keeps r (State.lsWrite s u a sz w).2 := by
  unfold State.lsWrite
  with_reducible repeat' first | apply keeps_csWrite | apply keeps_writeAll | split | apply_assumption

theorem keeps_stBody {r s : State} (u : Nat) (x : Payload) (h : Keeps r s) :
    Keeps r (State.stBody s u x) := by
  unfold State.stBody
  with_reducible repeat' first | intro _ | apply keeps_progFault | apply keeps_lsGot | apply keeps_lsWrite | apply keeps_advance | apply keeps_lsHold | simp only | split | apply_assumption

theorem keeps_vldGo {r : State} (u rd a : Nat) {s : State} (l : List (Nat × Nat)) (h : Keeps r s) :
    Keeps r (State.vldGo u rd a s l).2 := by
  induction l generalizing s with
  | nil => exact h
  | cons p l ih =>
    obtain ⟨k, n⟩ := p
    unfold State.vldGo
    have hq := keeps_readMem (.core u) (a + 4 * k) (4 * n) h
    split
    · rename_i e
      rw [e] at hq
      exact hq
    · rename_i e
      rw [e] at hq
      exact hq
    · rename_i e
      rw [e] at hq
      exact ih (keeps_forEach _ _ (fun j t ht => keeps_setLane _ _ _ _ ht) _ hq)

theorem keeps_vldBody {r s : State} (u : Nat) (x : Payload) (h : Keeps r s) :
    Keeps r (State.vldBody s u x) := by
  unfold State.vldBody
  with_reducible repeat' first | apply keeps_progFault | apply keeps_vldGo | apply keeps_advance | simp only [keeps_mk_iff] | refine keeps_of_eq (by assumption) ?_ | split | apply_assumption

theorem keeps_probeGo {r : State} (rq : Rq) (k : Nat) {s : State} (a : Nat) (bs : List (Option (BitVec 8))) (h : Keeps r s) :
    Keeps r (State.probeGo rq k s a bs).2 := by
  induction k generalizing s a bs with
  | zero => exact h
  | succ k ih =>
    unfold State.probeGo
    split
    · exact h
    · dsimp only
      split
      · exact ih _ _ h
      · have hq := keeps_request rq a (pieceLen a bs.length) false true false h
        split
        · rename_i e
          rw [e] at hq
          exact ih _ _ hq
        · rename_i e
          rw [e] at hq
          exact hq
        · rename_i e
          rw [e] at hq
          exact hq

theorem keeps_writeWhole {r s : State} (rq : Rq) (a : Nat) (bs : List (Option (BitVec 8))) (h : Keeps r s) :
    Keeps r (State.writeWhole s rq a bs).2 := by
  unfold State.writeWhole
  with_reducible repeat' first | apply keeps_probeGo | apply keeps_writeMem | split | apply_assumption

theorem keeps_vstBody {r s : State} (u : Nat) (x : Payload) (h : Keeps r s) :
    Keeps r (State.vstBody s u x) := by
  unfold State.vstBody
  with_reducible repeat' first | intro _ | apply keeps_progFault | apply keeps_lsGot | apply keeps_writeWhole | apply keeps_advance | apply keeps_lsHold | apply keeps_ite | split | apply_assumption

theorem keeps_takeDesc {r s : State} (u rd a : Nat) (bs : List (BitVec 8)) (h : Keeps r s) :
    Keeps r (State.takeDesc s u rd a bs) := by
  unfold State.takeDesc
  with_reducible repeat' first | apply keeps_progFault | apply keeps_advance | apply keeps_setD | apply keeps_ite | apply_assumption

theorem keeps_lddBody {r s : State} (u : Nat) (x : Payload) (h : Keeps r s) :
    Keeps r (State.lddBody s u x) := by
  unfold State.lddBody
  with_reducible repeat' first | intro _ | apply keeps_progFault | apply keeps_lsGot | apply keeps_readMem | apply keeps_takeDesc | apply keeps_ite | split | apply_assumption

theorem keeps_stdBody {r s : State} (u : Nat) (x : Payload) (h : Keeps r s) :
    Keeps r (State.stdBody s u x) := by
  unfold State.stdBody
  with_reducible repeat' first | intro _ | apply keeps_progFault | apply keeps_lsGot | apply keeps_writeAll | apply keeps_advance | apply keeps_lsHold | apply keeps_ite | split | apply_assumption

/-! Operations of Machine/Ethernet.lean. -/

theorem keeps_openEvent {r s : State} (l port outcome : Nat) (h : Keeps r s) :
    Keeps r (State.openEvent s l port outcome) := by
  unfold State.openEvent
  with_reducible repeat' first | apply keeps_record | apply_assumption

theorem keeps_connOpen {r s : State} (n l : Nat) (q : ConnReq) (h : Keeps r s) :
    Keeps r (State.connOpen s n l q) := by
  unfold State.connOpen
  with_reducible repeat' first | apply keeps_put | apply keeps_setReg | apply keeps_done | apply keeps_openEvent | simp only [keeps_mk_iff] | apply_assumption

theorem keeps_connClose {r s : State} (l c : Nat) (h : Keeps r s) :
    Keeps r (State.connClose s l c) := by
  unfold State.connClose
  with_reducible repeat' first | intro _ | apply keeps_drainFail | apply keeps_setReg | simp only [keeps_mk_iff] | apply keeps_when | apply_assumption

theorem keeps_frameDrop {r s : State} (port : Nat) (h : Keeps r s) :
    Keeps r (State.frameDrop s port) := by
  unfold State.frameDrop
  with_reducible repeat' first | apply keeps_sat | apply_assumption

theorem keeps_neighbor {r s : State} (port sub : Nat) (own asked kind : Nat) (h : Keeps r s) :
    Keeps r (State.neighbor s port sub own asked kind) := by
  unfold State.neighbor
  with_reducible repeat' first | apply keeps_emit | apply keeps_mgmtFrame | apply keeps_frameDrop | split | apply_assumption

theorem keeps_pauseFrame {r s : State} (port sub prio : Nat) (on : Bool) (h : Keeps r s) :
    Keeps r (State.pauseFrame s port sub prio on) := by
  unfold State.pauseFrame
  with_reducible repeat' first | apply keeps_frameDrop | simp only [keeps_mk_iff] | split | apply_assumption

theorem keeps_linkChange {r s : State} (port sub : Nat) (up : Bool) (h : Keeps r s) :
    Keeps r (State.linkChange s port sub up) := by
  unfold State.linkChange
  with_reducible repeat' first | intro _ | apply keeps_putBit | apply keeps_stick | apply keeps_event | apply keeps_when | apply_assumption

theorem keeps_pktDrop {r s : State} (x : Conn) (tagOk : Bool) (h : Keeps r s) :
    Keeps r (State.pktDrop s x tagOk) := by
  unfold State.pktDrop
  with_reducible repeat' first | intro _ | apply keeps_frameDrop | apply keeps_stick | apply keeps_connEvent | apply keeps_putConn | apply keeps_when | apply keeps_ite | apply_assumption

theorem keeps_cnpBack {r s : State} (x : Conn) (h : Keeps r s) :
    Keeps r (State.cnpBack s x) := by
  unfold State.cnpBack
  with_reducible repeat' first | apply keeps_sendPacket | apply keeps_putConn | split | apply_assumption

theorem keeps_recv {r s : State} (p : Pkt) (f : Conn → State → State) (h : Keeps r s) (h_f : ∀ a0 a1, Keeps r a1 → Keeps r (f a0 a1)) :
    Keeps r (State.recv s p f) := by
  unfold State.recv
  with_reducible repeat' first | apply keeps_pktDrop | apply keeps_cnpBack | simp only | split | apply_assumption

theorem keeps_nakPkt {r s : State} (x : Conn) (p : Pkt) (syndrome region addr : Nat) (h : Keeps r s) :
    Keeps r (State.nakPkt s x p syndrome region addr) := by
  unfold State.nakPkt
  with_reducible repeat' first | apply keeps_connEvent | apply keeps_putConn | apply keeps_sendPacket | apply_assumption

theorem keeps_rnrPkt {r s : State} (x : Conn) (p : Pkt) (h : Keeps r s) :
    Keeps r (State.rnrPkt s x p) := by
  unfold State.rnrPkt
  with_reducible repeat' first | apply keeps_sendPacket | apply_assumption

theorem keeps_inOrder {r s : State} (x : Conn) (p : Pkt) (f : Conn → State → State) (h : Keeps r s) (h_f : ∀ a0 a1, Keeps r a1 → Keeps r (f a0 a1)) :
    Keeps r (State.inOrder s x p f) := by
  unfold State.inOrder
  with_reducible repeat' first | apply keeps_putConn | apply keeps_sendPacket | apply keeps_ite | apply_assumption

theorem keeps_windowRefused {r s : State} (rq : Rq) (a n : Nat) (wr : Bool) (h : Keeps r s) :
    Keeps r (State.windowRefused s rq a n wr) := by
  unfold State.windowRefused
  with_reducible repeat' first | apply keeps_secRefused | apply keeps_rangeRefused | split | apply_assumption

theorem keeps_csWriteAll {r : State} (rq : Rq) {s : State} (a : Nat) (l : List Word) (h : Keeps r s) :
    Keeps r (State.csWriteAll rq s a l).2 := by
  induction l generalizing s a with
  | nil => exact h
  | cons w l ih =>
    unfold State.csWriteAll
    have hq := keeps_csWrite rq a w h
    split
    · rename_i e
      rw [e] at hq
      exact ih _ hq
    · exact hq

theorem keeps_csReadAll {r : State} (rq : Rq) {s : State} (a n : Nat) (h : Keeps r s) :
    Keeps r (State.csReadAll rq s a n).2 := by
  induction n generalizing s a with
  | zero => exact h
  | succ n ih =>
    unfold State.csReadAll
    have hq := keeps_csRead rq a h
    split
    · rename_i e
      rw [e] at hq
      exact hq
    · rename_i e
      rw [e] at hq
      exact hq
    · rename_i t e
      rw [e] at hq
      have hr := ih (s := t) (a + 8) hq
      split
      · rename_i e2
        rw [e2] at hr
        exact hr
      · exact hr

theorem keeps_regionWrite {r s : State} (rq : Rq) (region a : Nat) (bs : List (BitVec 8)) (h : Keeps r s) :
    Keeps r (State.regionWrite s rq region a bs).2 := by
  unfold State.regionWrite
  with_reducible repeat' first | apply keeps_writeAll | apply keeps_csWriteAll | split | apply_assumption

theorem keeps_regionRead {r s : State} (rq : Rq) (region a n : Nat) (h : Keeps r s) :
    Keeps r (State.regionRead s rq region a n).2 := by
  unfold State.regionRead
  with_reducible repeat' first | apply keeps_readMem | apply keeps_csReadAll | split | apply_assumption

theorem keeps_complete {r s : State} (x : Conn) (imm len : Nat) (op buf : Nat) (h : Keeps r s) :
    Keeps r (State.complete s x imm len op buf).2 := by
  unfold State.complete
  with_reducible repeat' first | apply keeps_writeAll | apply keeps_putConn | apply keeps_raiseFlag | simp only | refine keeps_of_eq (by assumption) ?_ | split | apply_assumption

theorem keeps_pktDone {r s : State} (x : Conn) (p : Pkt) (m : Incoming) (h : Keeps r s) :
    Keeps r (State.pktDone s x p m) := by
  unfold State.pktDone
  with_reducible repeat' first | apply keeps_putConn | apply keeps_sendPacket | split | apply_assumption

theorem keeps_pktSkip {r s : State} (x : Conn) (h : Keeps r s) :
    Keeps r (State.pktSkip s x) := by
  unfold State.pktSkip
  with_reducible repeat' first | apply keeps_putConn | apply_assumption

theorem keeps_writePkt {r s : State} (x : Conn) (p : Pkt) (imm : Option Nat) (h : Keeps r s) :
    Keeps r (State.writePkt s x p imm) := by
  unfold State.writePkt
  with_reducible repeat' first | apply keeps_pktSkip | apply keeps_nakPkt | apply keeps_windowRefused | apply keeps_rnrPkt | apply keeps_regionWrite | apply keeps_pktDone | apply keeps_complete | simp only | refine keeps_of_eq (by assumption) ?_ | split | apply_assumption

theorem keeps_readServe {r s : State} (x : Conn) (p : Pkt) (again : Bool) (h : Keeps r s) :
    Keeps r (State.readServe s x p again) := by
  unfold State.readServe
  with_reducible repeat' first | apply keeps_nakPkt | apply keeps_windowRefused | apply keeps_regionRead | apply keeps_putConn | apply keeps_sendMessage | simp only | refine keeps_of_eq (by assumption) ?_ | split | apply_assumption

theorem keeps_readPkt {r s : State} (x : Conn) (p : Pkt) (h : Keeps r s) :
    Keeps r (State.readPkt s x p) := by
  unfold State.readPkt
  with_reducible repeat' first | intro _ | apply keeps_readServe | apply keeps_inOrder | split | apply_assumption

theorem keeps_sendPkt {r s : State} (x : Conn) (p : Pkt) (imm : Option Nat) (h : Keeps r s) :
    Keeps r (State.sendPkt s x p imm) := by
  unfold State.sendPkt
  with_reducible repeat' first | apply keeps_pktSkip | apply keeps_rnrPkt | apply keeps_nakPkt | apply keeps_writeAll | apply keeps_pktDone | apply keeps_complete | apply keeps_ite | refine keeps_of_eq (by assumption) ?_ | split | apply_assumption

/-! Operations of Machine/Requester.lean. -/

theorem keeps_workEnd {r s : State} (x : Conn) (k : Work) (h : Keeps r s) :
    Keeps r (State.workEnd s x k) := by
  unfold State.workEnd
  with_reducible repeat' first | intro _ | apply keeps_put | apply keeps_sendSignal | apply keeps_when | apply_assumption

theorem keeps_finish {r s : State} (x : Conn) (l : List Work) (h : Keeps r s) :
    Keeps r (State.finish s x l) := by
  induction l generalizing s with
  | nil => exact keeps_putConn _ h
  | cons k l ih =>
    unfold State.finish
    split
    · exact ih (keeps_workEnd _ _ h)
    · exact keeps_putConn _ h

theorem keeps_workSend {r s : State} (x : Conn) (k : Work) (h : Keeps r s) :
    ∀ t, State.workSend s x k = some t → Keeps r t := by
  intro t e
  unfold State.workSend at e
  (repeat' split at e) <;> first | (cases e; done) | (refine keeps_some ?_ e; with_reducible repeat' first | apply keeps_sendMessage | apply keeps_readMem | apply keeps_finish | apply keeps_connEvent | refine keeps_of_eq (by assumption) ?_ | apply_assumption; done)

theorem keeps_workRefuse {r s : State} (x : Conn) (k : Work) (e' : Nat) (h : Keeps r s) :
    Keeps r (State.workRefuse s x k e') := by
  unfold State.workRefuse
  with_reducible repeat' first | apply keeps_connEvent | apply keeps_finish | apply_assumption

theorem keeps_workStart {r s : State} (x : Conn) (k : Work) (h : Keeps r s) :
    ∀ t, State.workStart s x k = some t → Keeps r t := by
  intro t e
  unfold State.workStart at e
  (repeat' split at e) <;> first | (refine keeps_workSend _ _ ?_ _ e; all_goals (with_reducible repeat' first | apply keeps_putConn | apply_assumption); done)

theorem keeps_frameStall {r s : State} (x : Conn) (k : Work) (h : Keeps r s) :
    Keeps r (State.frameStall s x k) := by
  unfold State.frameStall
  with_reducible repeat' first | apply keeps_hold | apply keeps_frameGrant | apply keeps_ite | apply_assumption

theorem keeps_workNext {r s : State} (x : Conn) (stall : Bool) (h : Keeps r s) :
    Keeps r (State.workNext s x stall) := by
  unfold State.workNext
  with_reducible repeat' first | intro _ | apply keeps_readMem | apply keeps_workRefuse | apply keeps_frameStall | refine keeps_workStart _ _ ?_ _ (by assumption) | simp only | apply keeps_getD | refine keeps_of_eq (by assumption) ?_ | split | apply_assumption

theorem keeps_ackPackets {r s : State} (x : Conn) (n : Nat) (h : Keeps r s) :
    Keeps r (State.ackPackets s x n) := by
  unfold State.ackPackets
  with_reducible repeat' first | apply keeps_finish | split | apply_assumption

theorem keeps_resendGo {r : State} (l c : Nat) (w : List Work) {s : State} (h : Keeps r s) :
    ∀ t, State.resendGo l c w s = some t → Keeps r t := by
  induction w generalizing s with
  | nil => intro t e; cases e; exact h
  | cons k w ih =>
    intro t e
    unfold State.resendGo at e
    split at e
    · cases e; exact h
    · split at e
      · exact ih h _ e
      · split at e
        · cases e
        · rename_i e2
          exact ih (keeps_workSend _ _ h _ e2) _ e

theorem keeps_resend {r s : State} (x : Conn) (h : Keeps r s) :
    ∀ t, State.resend s x = some t → Keeps r t := by
  intro t e
  unfold State.resend at e
  (repeat' split at e) <;> first | (refine keeps_some ?_ e; with_reducible repeat' first | apply keeps_drainWire | apply_assumption; done) | (refine keeps_resendGo _ _ _ ?_ _ e; all_goals (with_reducible repeat' first | apply keeps_drainWire | apply_assumption); done)

theorem keeps_retry {r s : State} (x : Conn) (rnr : Bool) (h : Keeps r s) :
    ∀ t, State.retry s x rnr = some t → Keeps r t := by
  intro t e
  unfold State.retry at e
  (repeat' split at e) <;> first | (refine keeps_some ?_ e; with_reducible repeat' first | apply keeps_connError | apply keeps_putConn | apply_assumption; done) | (refine keeps_resend _ ?_ _ e; all_goals (with_reducible repeat' first | apply keeps_connError | apply keeps_putConn | apply_assumption); done)

theorem keeps_ackRecv {r s : State} (x : Conn) (psn : Nat) (h : Keeps r s) :
    Keeps r (State.ackRecv s x psn) := by
  unfold State.ackRecv
  with_reducible repeat' first | intro _ | apply keeps_ackPackets | refine keeps_drainNext _ ?_ _ (by assumption) | apply keeps_getD | apply keeps_ite | split | apply_assumption

theorem keeps_nakRecv {r s : State} (x : Conn) (psn syndrome : Nat) (h : Keeps r s) :
    Keeps r (State.nakRecv s x psn syndrome) := by
  unfold State.nakRecv
  with_reducible repeat' first | intro _ | apply keeps_connError | apply keeps_ackPackets | refine keeps_retry _ _ ?_ _ (by assumption) | simp only | apply keeps_getD | split | apply_assumption

theorem keeps_readResponse {r s : State} (x : Conn) (p : Pkt) (h : Keeps r s) :
    Keeps r (State.readResponse s x p) := by
  unfold State.readResponse
  with_reducible repeat' first | apply keeps_writeAll | apply keeps_connEvent | apply keeps_finish | apply keeps_ite | refine keeps_of_eq (by assumption) ?_ | split | apply_assumption

/-! Operations of Machine/Manage.lean. -/

theorem keeps_attachRefused {r s : State} (role l : Nat) (event unit : Nat) (detail : List (BitVec 8)) (h : Keeps r s) :
    Keeps r (State.attachRefused s role l event unit detail) := by
  unfold State.attachRefused
  with_reducible repeat' first | apply keeps_stick | apply keeps_emit | apply keeps_record | apply_assumption

theorem keeps_attach {r s : State} (role l key : Nat) (vs : List Nat) (h : Keeps r s) :
    Keeps r (State.attach s role l key vs) := by
  unfold State.attach
  with_reducible repeat' first | intro _ | apply keeps_endSession | apply keeps_draw | apply keeps_emit | simp only [keeps_mk_iff] | apply keeps_forEach | apply_assumption

theorem keeps_attachAct {r s : State} (mgmt : Bool) (role l key : Nat) (theirs : List (List Nat)) (h : Keeps r s) :
    Keeps r (State.attachAct s mgmt role l key theirs) := by
  unfold State.attachAct
  with_reducible repeat' first | intro _ | apply keeps_stick | apply keeps_attach | apply keeps_attachRefused | simp only | apply keeps_when | split | apply_assumption

theorem keeps_freeRead {r s : State} (q : Nat) (h : Keeps r s) :
    Keeps r (State.freeRead s q) := by
  unfold State.freeRead
  with_reducible repeat' first | apply keeps_ledgerAdvance | split | apply_assumption

theorem keeps_ledgerRead {r s : State} (x : Session) (w : Nat) (free : Bool) (h : Keeps r s) :
    Keeps r (State.ledgerRead s x w free) := by
  unfold State.ledgerRead
  with_reducible repeat' first | apply keeps_freeRead | apply keeps_done | split | apply_assumption

theorem keeps_pushAgain {r s : State} (p : Push) (h : Keeps r s) :
    Keeps r (State.pushAgain s p) := by
  unfold State.pushAgain
  with_reducible repeat' first | apply keeps_emit | apply keeps_record | apply keeps_stick | simp only [keeps_mk_iff] | split | apply_assumption

theorem keeps_pushAcked {r s : State} (x : Session) (written : Nat) (h : Keeps r s) :
    Keeps r (State.pushAcked s x written) := by
  unfold State.pushAcked
  with_reducible repeat' first | apply keeps_putSession | simp only [keeps_mk_iff] | apply_assumption

theorem keeps_otpBurn {r s : State} (n fails : Nat) (cut : Bool) (h : Keeps r s) :
    Keeps r (State.otpBurn s n fails cut) := by
  unfold State.otpBurn
  with_reducible repeat' first | apply keeps_burn | apply keeps_refused | apply keeps_done | apply keeps_ite | apply_assumption

theorem keeps_powerSet {r s : State} (n : Nat) (ws : List (Nat × Nat × Word)) (h : Keeps r s) :
    Keeps r (State.powerSet s n ws) := by
  unfold State.powerSet
  with_reducible repeat' first | intro _ | apply keeps_done | apply keeps_pwWrite | apply keeps_forEach | apply_assumption

theorem keeps_siteSet {r s : State} (n : Nat) (ws : List (Nat × Nat × Word)) (h : Keeps r s) :
    Keeps r (State.siteSet s n ws) := by
  unfold State.siteSet
  with_reducible repeat' first | intro _ | apply keeps_done | apply keeps_tmWrite | apply keeps_forEach | apply_assumption

theorem keeps_leaseGrant {r s : State} (n c : Nat) (mask start length : Nat) (h : Keeps r s) :
    Keeps r (State.leaseGrant s n c mask start length) := by
  unfold State.leaseGrant
  with_reducible repeat' first | apply keeps_leaseRuns | simp only [keeps_mk_iff] | apply_assumption

theorem keeps_leaseEnd {r s : State} (x : Lease) (h : Keeps r s) :
    Keeps r (State.leaseEnd s x) := by
  unfold State.leaseEnd
  with_reducible repeat' first | apply keeps_done | apply keeps_record | simp only [keeps_mk_iff] | apply_assumption

theorem keeps_commitNow {r s : State} (g : Staged) (intact : Bool) (h : Keeps r s) :
    Keeps r (State.commitNow s g intact) := by
  unfold State.commitNow
  with_reducible repeat' first | apply keeps_event | apply keeps_draw | apply keeps_deviceReset | simp only [keeps_mk_iff] | apply_assumption

theorem keeps_stopController {r s : State} (h : Keeps r s) :
    Keeps r (State.stopController s) := by
  unfold State.stopController
  with_reducible repeat' first | apply keeps_record | apply keeps_driveFault | apply keeps_stick | simp only [keeps_mk_iff] | apply_assumption

theorem keeps_mismatch {r s : State} (h : Keeps r s) :
    Keeps r (State.mismatch s) := by
  unfold State.mismatch
  with_reducible repeat' first | apply keeps_stopController | apply keeps_record | apply keeps_stick | simp only [keeps_mk_iff] | split | apply_assumption

/-! Operations of Machine/Pins.lean. -/

theorem keeps_standbyUp {r s : State} (straps : Nat) (resetN : Bool) (h : Keeps r s) :
    Keeps r (State.standbyUp s straps resetN) := by
  unfold State.standbyUp
  with_reducible repeat' first | apply keeps_put | simp only [keeps_mk_iff] | apply_assumption

theorem keeps_standbyLost {r s : State} (h : Keeps r s) : Keeps r (State.standbyLost s) :=
  ⟨h.pending, fun _ => rfl, fun _ => rfl, h.gens, h.owners, h.minVersions⟩

theorem keeps_railsGood {r s : State} (h : Keeps r s) :
    Keeps r (State.railsGood s) := by
  unfold State.railsGood
  with_reducible repeat' first | simp only [keeps_mk_iff] | split | apply_assumption

theorem keeps_railsLost {r s : State} (h : Keeps r s) :
    Keeps r (State.railsLost s) := by
  unfold State.railsLost
  with_reducible repeat' first | apply keeps_pwEvent | apply keeps_deviceReset | simp only [keeps_mk_iff] | split | apply_assumption

theorem keeps_resetHeld {r s : State} (h : Keeps r s) :
    Keeps r (State.resetHeld s) := by
  unfold State.resetHeld
  with_reducible repeat' first | apply keeps_deviceReset | simp only [keeps_mk_iff] | split | apply_assumption

theorem keeps_resetReleased {r s : State} (straps : Nat) (h : Keeps r s) :
    Keeps r (State.resetReleased s straps) := by
  unfold State.resetReleased
  with_reducible repeat' first | simp only [keeps_mk_iff] | apply_assumption

theorem keeps_smbusRefresh {r s : State} (h : Keeps r s) :
    Keeps r (State.smbusRefresh s) := by
  unfold State.smbusRefresh
  with_reducible repeat' first | simp only [keeps_mk_iff] | apply_assumption

theorem keeps_smbusAnswer {r s : State} (cmd : Nat) (bs : List Nat) (h : Keeps r s) :
    Keeps r (State.smbusAnswer s cmd bs) := by
  unfold State.smbusAnswer
  with_reducible repeat' first | apply keeps_emit | apply_assumption

theorem keeps_smbusDo {r s : State} (hung : Bool) (f : State → State) (h : Keeps r s) (h_f : ∀ a0, Keeps r a0 → Keeps r (f a0)) :
    ∀ t, State.smbusDo s hung f = .next t → Keeps r t := by
  intro t e
  unfold State.smbusDo at e
  refine keeps_guard _ _ ?_ ?_ _ e
  all_goals (with_reducible repeat' first | intro _ | simp only [keeps_mk_iff] | split | apply_assumption)

theorem keeps_loadIr {r s : State} (code : Nat) (guarded : Bool) (h : Keeps r s) :
    Keeps r (State.loadIr s code guarded) := by
  unfold State.loadIr
  with_reducible repeat' first | simp only [keeps_mk_iff] | apply_assumption

theorem keeps_scanCells {r s : State} (cells : Nat) (h : Keeps r s) :
    Keeps r (State.scanCells s cells) := by
  unfold State.scanCells
  with_reducible repeat' first | apply keeps_emit | simp only [keeps_mk_iff] | apply_assumption

theorem keeps_imageLoad {r s : State} (f : State → State) (h : Keeps r s) (h_f : ∀ a0, Keeps r a0 → Keeps r (f a0)) :
    ∀ t, State.imageLoad s f = .next t → Keeps r t := by
  intro t e
  unfold State.imageLoad at e
  refine keeps_guard _ _ ?_ ?_ _ e
  all_goals (with_reducible repeat' first | intro _ | apply keeps_emit | apply keeps_loadIr | apply_assumption)

theorem keeps_setLoad {r s : State} (v : Nat) (h : Keeps r s) :
    Keeps r (State.setLoad s v) := by
  unfold State.setLoad
  with_reducible repeat' first | simp only [keeps_mk_iff] | apply_assumption

theorem keeps_loadBytes {r s : State} (w : Nat) (t' : Transfer) (h : Keeps r s) :
    Keeps r (State.loadBytes s w t') := by
  unfold State.loadBytes
  with_reducible repeat' first | apply keeps_setLoad | simp only [keeps_mk_iff] | apply_assumption

theorem keeps_tick {r s : State} (h : Keeps r s) :
    Keeps r (State.tick s) := by
  unfold State.tick
  with_reducible repeat' first | apply keeps_wrap | apply keeps_smbusRefresh | apply keeps_ite | apply_assumption

end Sys2Proof.Machine
end

