-- ==== Sys2Proof/Laws/State.lean ====
section
/-! SUPPORT. What each plain update of the state leaves alone, field by field, so that no proof unfolds a record update. -/

namespace Sys2Proof.Machine

@[simp] theorem State.setReg_pending (s : State) (r u i : Nat) (w : BitVec 64) :
    (s.setReg r u i w).pending = s.pending := rfl
@[simp] theorem State.setReg_sh (s : State) (r u i : Nat) (w : BitVec 64) :
    (s.setReg r u i w).sh = s.sh := rfl
@[simp] theorem State.setReg_mem (s : State) (r u i : Nat) (w : BitVec 64) :
    (s.setReg r u i w).mem = s.mem := rfl
@[simp] theorem State.setReg_core (s : State) (r u i : Nat) (w : BitVec 64) :
    (s.setReg r u i w).core = s.core := rfl
@[simp] theorem State.setReg_ms (s : State) (r u i : Nat) (w : BitVec 64) :
    (s.setReg r u i w).ms = s.ms := rfl
@[simp] theorem State.setReg_sq (s : State) (r u i : Nat) (w : BitVec 64) :
    (s.setReg r u i w).sq = s.sq := rfl
@[simp] theorem State.setReg_net (s : State) (r u i : Nat) (w : BitVec 64) :
    (s.setReg r u i w).net = s.net := rfl
@[simp] theorem State.setReg_hbm (s : State) (r u i : Nat) (w : BitVec 64) :
    (s.setReg r u i w).hbm = s.hbm := rfl
@[simp] theorem State.setReg_integ (s : State) (r u i : Nat) (w : BitVec 64) :
    (s.setReg r u i w).integ = s.integ := rfl
@[simp] theorem State.setReg_tm (s : State) (r u i : Nat) (w : BitVec 64) :
    (s.setReg r u i w).tm = s.tm := rfl
@[simp] theorem State.setReg_pw (s : State) (r u i : Nat) (w : BitVec 64) :
    (s.setReg r u i w).pw = s.pw := rfl
@[simp] theorem State.setReg_mg (s : State) (r u i : Nat) (w : BitVec 64) :
    (s.setReg r u i w).mg = s.mg := rfl
@[simp] theorem State.setReg_otp (s : State) (r u i : Nat) (w : BitVec 64) :
    (s.setReg r u i w).otp = s.otp := rfl
@[simp] theorem State.setReg_boot (s : State) (r u i : Nat) (w : BitVec 64) :
    (s.setReg r u i w).boot = s.boot := rfl
@[simp] theorem State.setReg_rst (s : State) (r u i : Nat) (w : BitVec 64) :
    (s.setReg r u i w).rst = s.rst := rfl
@[simp] theorem State.setReg_ck (s : State) (r u i : Nat) (w : BitVec 64) :
    (s.setReg r u i w).ck = s.ck := rfl
@[simp] theorem State.setReg_rt (s : State) (r u i : Nat) (w : BitVec 64) :
    (s.setReg r u i w).rt = s.rt := rfl
@[simp] theorem State.setReg_pins (s : State) (r u i : Nat) (w : BitVec 64) :
    (s.setReg r u i w).pins = s.pins := rfl
@[simp] theorem State.setReg_out (s : State) (r u i : Nat) (w : BitVec 64) :
    (s.setReg r u i w).out = s.out := rfl
@[simp] theorem State.setReg_fresh (s : State) (r u i : Nat) (w : BitVec 64) :
    (s.setReg r u i w).fresh = s.fresh := rfl

@[simp] theorem State.put_pending (s : State) (f : Fld) (u i v : Nat) :
    (s.put f u i v).pending = s.pending := rfl
@[simp] theorem State.put_sh (s : State) (f : Fld) (u i v : Nat) :
    (s.put f u i v).sh = s.sh := rfl
@[simp] theorem State.put_mem (s : State) (f : Fld) (u i v : Nat) :
    (s.put f u i v).mem = s.mem := rfl
@[simp] theorem State.put_core (s : State) (f : Fld) (u i v : Nat) :
    (s.put f u i v).core = s.core := rfl
@[simp] theorem State.put_ms (s : State) (f : Fld) (u i v : Nat) :
    (s.put f u i v).ms = s.ms := rfl
@[simp] theorem State.put_sq (s : State) (f : Fld) (u i v : Nat) :
    (s.put f u i v).sq = s.sq := rfl
@[simp] theorem State.put_net (s : State) (f : Fld) (u i v : Nat) :
    (s.put f u i v).net = s.net := rfl
@[simp] theorem State.put_hbm (s : State) (f : Fld) (u i v : Nat) :
    (s.put f u i v).hbm = s.hbm := rfl
@[simp] theorem State.put_integ (s : State) (f : Fld) (u i v : Nat) :
    (s.put f u i v).integ = s.integ := rfl
@[simp] theorem State.put_tm (s : State) (f : Fld) (u i v : Nat) :
    (s.put f u i v).tm = s.tm := rfl
@[simp] theorem State.put_pw (s : State) (f : Fld) (u i v : Nat) :
    (s.put f u i v).pw = s.pw := rfl
@[simp] theorem State.put_mg (s : State) (f : Fld) (u i v : Nat) :
    (s.put f u i v).mg = s.mg := rfl
@[simp] theorem State.put_otp (s : State) (f : Fld) (u i v : Nat) :
    (s.put f u i v).otp = s.otp := rfl
@[simp] theorem State.put_boot (s : State) (f : Fld) (u i v : Nat) :
    (s.put f u i v).boot = s.boot := rfl
@[simp] theorem State.put_rst (s : State) (f : Fld) (u i v : Nat) :
    (s.put f u i v).rst = s.rst := rfl
@[simp] theorem State.put_ck (s : State) (f : Fld) (u i v : Nat) :
    (s.put f u i v).ck = s.ck := rfl
@[simp] theorem State.put_rt (s : State) (f : Fld) (u i v : Nat) :
    (s.put f u i v).rt = s.rt := rfl
@[simp] theorem State.put_pins (s : State) (f : Fld) (u i v : Nat) :
    (s.put f u i v).pins = s.pins := rfl
@[simp] theorem State.put_out (s : State) (f : Fld) (u i v : Nat) :
    (s.put f u i v).out = s.out := rfl
@[simp] theorem State.put_fresh (s : State) (f : Fld) (u i v : Nat) :
    (s.put f u i v).fresh = s.fresh := rfl

@[simp] theorem State.stick_pending (s : State) (f : Fld) (u i : Nat) :
    (s.stick f u i).pending = s.pending := rfl
@[simp] theorem State.stick_sh (s : State) (f : Fld) (u i : Nat) :
    (s.stick f u i).sh = s.sh := rfl
@[simp] theorem State.stick_mem (s : State) (f : Fld) (u i : Nat) :
    (s.stick f u i).mem = s.mem := rfl
@[simp] theorem State.stick_core (s : State) (f : Fld) (u i : Nat) :
    (s.stick f u i).core = s.core := rfl
@[simp] theorem State.stick_ms (s : State) (f : Fld) (u i : Nat) :
    (s.stick f u i).ms = s.ms := rfl
@[simp] theorem State.stick_sq (s : State) (f : Fld) (u i : Nat) :
    (s.stick f u i).sq = s.sq := rfl
@[simp] theorem State.stick_net (s : State) (f : Fld) (u i : Nat) :
    (s.stick f u i).net = s.net := rfl
@[simp] theorem State.stick_hbm (s : State) (f : Fld) (u i : Nat) :
    (s.stick f u i).hbm = s.hbm := rfl
@[simp] theorem State.stick_integ (s : State) (f : Fld) (u i : Nat) :
    (s.stick f u i).integ = s.integ := rfl
@[simp] theorem State.stick_tm (s : State) (f : Fld) (u i : Nat) :
    (s.stick f u i).tm = s.tm := rfl
@[simp] theorem State.stick_pw (s : State) (f : Fld) (u i : Nat) :
    (s.stick f u i).pw = s.pw := rfl
@[simp] theorem State.stick_mg (s : State) (f : Fld) (u i : Nat) :
    (s.stick f u i).mg = s.mg := rfl
@[simp] theorem State.stick_otp (s : State) (f : Fld) (u i : Nat) :
    (s.stick f u i).otp = s.otp := rfl
@[simp] theorem State.stick_boot (s : State) (f : Fld) (u i : Nat) :
    (s.stick f u i).boot = s.boot := rfl
@[simp] theorem State.stick_rst (s : State) (f : Fld) (u i : Nat) :
    (s.stick f u i).rst = s.rst := rfl
@[simp] theorem State.stick_ck (s : State) (f : Fld) (u i : Nat) :
    (s.stick f u i).ck = s.ck := rfl
@[simp] theorem State.stick_rt (s : State) (f : Fld) (u i : Nat) :
    (s.stick f u i).rt = s.rt := rfl
@[simp] theorem State.stick_pins (s : State) (f : Fld) (u i : Nat) :
    (s.stick f u i).pins = s.pins := rfl
@[simp] theorem State.stick_out (s : State) (f : Fld) (u i : Nat) :
    (s.stick f u i).out = s.out := rfl
@[simp] theorem State.stick_fresh (s : State) (f : Fld) (u i : Nat) :
    (s.stick f u i).fresh = s.fresh := rfl

@[simp] theorem State.sat_pending (s : State) (f : Fld) (u i n : Nat) :
    (s.sat f u i n).pending = s.pending := rfl
@[simp] theorem State.sat_sh (s : State) (f : Fld) (u i n : Nat) :
    (s.sat f u i n).sh = s.sh := rfl
@[simp] theorem State.sat_mem (s : State) (f : Fld) (u i n : Nat) :
    (s.sat f u i n).mem = s.mem := rfl
@[simp] theorem State.sat_core (s : State) (f : Fld) (u i n : Nat) :
    (s.sat f u i n).core = s.core := rfl
@[simp] theorem State.sat_ms (s : State) (f : Fld) (u i n : Nat) :
    (s.sat f u i n).ms = s.ms := rfl
@[simp] theorem State.sat_sq (s : State) (f : Fld) (u i n : Nat) :
    (s.sat f u i n).sq = s.sq := rfl
@[simp] theorem State.sat_net (s : State) (f : Fld) (u i n : Nat) :
    (s.sat f u i n).net = s.net := rfl
@[simp] theorem State.sat_hbm (s : State) (f : Fld) (u i n : Nat) :
    (s.sat f u i n).hbm = s.hbm := rfl
@[simp] theorem State.sat_integ (s : State) (f : Fld) (u i n : Nat) :
    (s.sat f u i n).integ = s.integ := rfl
@[simp] theorem State.sat_tm (s : State) (f : Fld) (u i n : Nat) :
    (s.sat f u i n).tm = s.tm := rfl
@[simp] theorem State.sat_pw (s : State) (f : Fld) (u i n : Nat) :
    (s.sat f u i n).pw = s.pw := rfl
@[simp] theorem State.sat_mg (s : State) (f : Fld) (u i n : Nat) :
    (s.sat f u i n).mg = s.mg := rfl
@[simp] theorem State.sat_otp (s : State) (f : Fld) (u i n : Nat) :
    (s.sat f u i n).otp = s.otp := rfl
@[simp] theorem State.sat_boot (s : State) (f : Fld) (u i n : Nat) :
    (s.sat f u i n).boot = s.boot := rfl
@[simp] theorem State.sat_rst (s : State) (f : Fld) (u i n : Nat) :
    (s.sat f u i n).rst = s.rst := rfl
@[simp] theorem State.sat_ck (s : State) (f : Fld) (u i n : Nat) :
    (s.sat f u i n).ck = s.ck := rfl
@[simp] theorem State.sat_rt (s : State) (f : Fld) (u i n : Nat) :
    (s.sat f u i n).rt = s.rt := rfl
@[simp] theorem State.sat_pins (s : State) (f : Fld) (u i n : Nat) :
    (s.sat f u i n).pins = s.pins := rfl
@[simp] theorem State.sat_out (s : State) (f : Fld) (u i n : Nat) :
    (s.sat f u i n).out = s.out := rfl
@[simp] theorem State.sat_fresh (s : State) (f : Fld) (u i n : Nat) :
    (s.sat f u i n).fresh = s.fresh := rfl

@[simp] theorem State.wrap_pending (s : State) (f : Fld) (u i n : Nat) :
    (s.wrap f u i n).pending = s.pending := rfl
@[simp] theorem State.wrap_sh (s : State) (f : Fld) (u i n : Nat) :
    (s.wrap f u i n).sh = s.sh := rfl
@[simp] theorem State.wrap_mem (s : State) (f : Fld) (u i n : Nat) :
    (s.wrap f u i n).mem = s.mem := rfl
@[simp] theorem State.wrap_core (s : State) (f : Fld) (u i n : Nat) :
    (s.wrap f u i n).core = s.core := rfl
@[simp] theorem State.wrap_ms (s : State) (f : Fld) (u i n : Nat) :
    (s.wrap f u i n).ms = s.ms := rfl
@[simp] theorem State.wrap_sq (s : State) (f : Fld) (u i n : Nat) :
    (s.wrap f u i n).sq = s.sq := rfl
@[simp] theorem State.wrap_net (s : State) (f : Fld) (u i n : Nat) :
    (s.wrap f u i n).net = s.net := rfl
@[simp] theorem State.wrap_hbm (s : State) (f : Fld) (u i n : Nat) :
    (s.wrap f u i n).hbm = s.hbm := rfl
@[simp] theorem State.wrap_integ (s : State) (f : Fld) (u i n : Nat) :
    (s.wrap f u i n).integ = s.integ := rfl
@[simp] theorem State.wrap_tm (s : State) (f : Fld) (u i n : Nat) :
    (s.wrap f u i n).tm = s.tm := rfl
@[simp] theorem State.wrap_pw (s : State) (f : Fld) (u i n : Nat) :
    (s.wrap f u i n).pw = s.pw := rfl
@[simp] theorem State.wrap_mg (s : State) (f : Fld) (u i n : Nat) :
    (s.wrap f u i n).mg = s.mg := rfl
@[simp] theorem State.wrap_otp (s : State) (f : Fld) (u i n : Nat) :
    (s.wrap f u i n).otp = s.otp := rfl
@[simp] theorem State.wrap_boot (s : State) (f : Fld) (u i n : Nat) :
    (s.wrap f u i n).boot = s.boot := rfl
@[simp] theorem State.wrap_rst (s : State) (f : Fld) (u i n : Nat) :
    (s.wrap f u i n).rst = s.rst := rfl
@[simp] theorem State.wrap_ck (s : State) (f : Fld) (u i n : Nat) :
    (s.wrap f u i n).ck = s.ck := rfl
@[simp] theorem State.wrap_rt (s : State) (f : Fld) (u i n : Nat) :
    (s.wrap f u i n).rt = s.rt := rfl
@[simp] theorem State.wrap_pins (s : State) (f : Fld) (u i n : Nat) :
    (s.wrap f u i n).pins = s.pins := rfl
@[simp] theorem State.wrap_out (s : State) (f : Fld) (u i n : Nat) :
    (s.wrap f u i n).out = s.out := rfl
@[simp] theorem State.wrap_fresh (s : State) (f : Fld) (u i n : Nat) :
    (s.wrap f u i n).fresh = s.fresh := rfl

@[simp] theorem State.putBit_pending (s : State) (f : Fld) (u i b : Nat) (v : Bool) :
    (s.putBit f u i b v).pending = s.pending := rfl
@[simp] theorem State.putBit_sh (s : State) (f : Fld) (u i b : Nat) (v : Bool) :
    (s.putBit f u i b v).sh = s.sh := rfl
@[simp] theorem State.putBit_mem (s : State) (f : Fld) (u i b : Nat) (v : Bool) :
    (s.putBit f u i b v).mem = s.mem := rfl
@[simp] theorem State.putBit_core (s : State) (f : Fld) (u i b : Nat) (v : Bool) :
    (s.putBit f u i b v).core = s.core := rfl
@[simp] theorem State.putBit_ms (s : State) (f : Fld) (u i b : Nat) (v : Bool) :
    (s.putBit f u i b v).ms = s.ms := rfl
@[simp] theorem State.putBit_sq (s : State) (f : Fld) (u i b : Nat) (v : Bool) :
    (s.putBit f u i b v).sq = s.sq := rfl
@[simp] theorem State.putBit_net (s : State) (f : Fld) (u i b : Nat) (v : Bool) :
    (s.putBit f u i b v).net = s.net := rfl
@[simp] theorem State.putBit_hbm (s : State) (f : Fld) (u i b : Nat) (v : Bool) :
    (s.putBit f u i b v).hbm = s.hbm := rfl
@[simp] theorem State.putBit_integ (s : State) (f : Fld) (u i b : Nat) (v : Bool) :
    (s.putBit f u i b v).integ = s.integ := rfl
@[simp] theorem State.putBit_tm (s : State) (f : Fld) (u i b : Nat) (v : Bool) :
    (s.putBit f u i b v).tm = s.tm := rfl
@[simp] theorem State.putBit_pw (s : State) (f : Fld) (u i b : Nat) (v : Bool) :
    (s.putBit f u i b v).pw = s.pw := rfl
@[simp] theorem State.putBit_mg (s : State) (f : Fld) (u i b : Nat) (v : Bool) :
    (s.putBit f u i b v).mg = s.mg := rfl
@[simp] theorem State.putBit_otp (s : State) (f : Fld) (u i b : Nat) (v : Bool) :
    (s.putBit f u i b v).otp = s.otp := rfl
@[simp] theorem State.putBit_boot (s : State) (f : Fld) (u i b : Nat) (v : Bool) :
    (s.putBit f u i b v).boot = s.boot := rfl
@[simp] theorem State.putBit_rst (s : State) (f : Fld) (u i b : Nat) (v : Bool) :
    (s.putBit f u i b v).rst = s.rst := rfl
@[simp] theorem State.putBit_ck (s : State) (f : Fld) (u i b : Nat) (v : Bool) :
    (s.putBit f u i b v).ck = s.ck := rfl
@[simp] theorem State.putBit_rt (s : State) (f : Fld) (u i b : Nat) (v : Bool) :
    (s.putBit f u i b v).rt = s.rt := rfl
@[simp] theorem State.putBit_pins (s : State) (f : Fld) (u i b : Nat) (v : Bool) :
    (s.putBit f u i b v).pins = s.pins := rfl
@[simp] theorem State.putBit_out (s : State) (f : Fld) (u i b : Nat) (v : Bool) :
    (s.putBit f u i b v).out = s.out := rfl
@[simp] theorem State.putBit_fresh (s : State) (f : Fld) (u i b : Nat) (v : Bool) :
    (s.putBit f u i b v).fresh = s.fresh := rfl

@[simp] theorem State.emit_pending (s : State) (k : OutKind) (dst code : Nat) (data : List Nat) :
    (s.emit k dst code data).pending = s.pending := rfl
@[simp] theorem State.emit_regs (s : State) (k : OutKind) (dst code : Nat) (data : List Nat) :
    (s.emit k dst code data).regs = s.regs := rfl
@[simp] theorem State.emit_sh (s : State) (k : OutKind) (dst code : Nat) (data : List Nat) :
    (s.emit k dst code data).sh = s.sh := rfl
@[simp] theorem State.emit_mem (s : State) (k : OutKind) (dst code : Nat) (data : List Nat) :
    (s.emit k dst code data).mem = s.mem := rfl
@[simp] theorem State.emit_core (s : State) (k : OutKind) (dst code : Nat) (data : List Nat) :
    (s.emit k dst code data).core = s.core := rfl
@[simp] theorem State.emit_ms (s : State) (k : OutKind) (dst code : Nat) (data : List Nat) :
    (s.emit k dst code data).ms = s.ms := rfl
@[simp] theorem State.emit_sq (s : State) (k : OutKind) (dst code : Nat) (data : List Nat) :
    (s.emit k dst code data).sq = s.sq := rfl
@[simp] theorem State.emit_net (s : State) (k : OutKind) (dst code : Nat) (data : List Nat) :
    (s.emit k dst code data).net = s.net := rfl
@[simp] theorem State.emit_hbm (s : State) (k : OutKind) (dst code : Nat) (data : List Nat) :
    (s.emit k dst code data).hbm = s.hbm := rfl
@[simp] theorem State.emit_integ (s : State) (k : OutKind) (dst code : Nat) (data : List Nat) :
    (s.emit k dst code data).integ = s.integ := rfl
@[simp] theorem State.emit_tm (s : State) (k : OutKind) (dst code : Nat) (data : List Nat) :
    (s.emit k dst code data).tm = s.tm := rfl
@[simp] theorem State.emit_pw (s : State) (k : OutKind) (dst code : Nat) (data : List Nat) :
    (s.emit k dst code data).pw = s.pw := rfl
@[simp] theorem State.emit_mg (s : State) (k : OutKind) (dst code : Nat) (data : List Nat) :
    (s.emit k dst code data).mg = s.mg := rfl
@[simp] theorem State.emit_otp (s : State) (k : OutKind) (dst code : Nat) (data : List Nat) :
    (s.emit k dst code data).otp = s.otp := rfl
@[simp] theorem State.emit_boot (s : State) (k : OutKind) (dst code : Nat) (data : List Nat) :
    (s.emit k dst code data).boot = s.boot := rfl
@[simp] theorem State.emit_rst (s : State) (k : OutKind) (dst code : Nat) (data : List Nat) :
    (s.emit k dst code data).rst = s.rst := rfl
@[simp] theorem State.emit_ck (s : State) (k : OutKind) (dst code : Nat) (data : List Nat) :
    (s.emit k dst code data).ck = s.ck := rfl
@[simp] theorem State.emit_rt (s : State) (k : OutKind) (dst code : Nat) (data : List Nat) :
    (s.emit k dst code data).rt = s.rt := rfl
@[simp] theorem State.emit_pins (s : State) (k : OutKind) (dst code : Nat) (data : List Nat) :
    (s.emit k dst code data).pins = s.pins := rfl
@[simp] theorem State.emit_fresh (s : State) (k : OutKind) (dst code : Nat) (data : List Nat) :
    (s.emit k dst code data).fresh = s.fresh := rfl

@[simp] theorem State.wr_pending (s : State) (a : Nat) (b : BitVec 8) :
    (s.wr a b).pending = s.pending := rfl
@[simp] theorem State.wr_sh (s : State) (a : Nat) (b : BitVec 8) :
    (s.wr a b).sh = s.sh := rfl
@[simp] theorem State.wr_core (s : State) (a : Nat) (b : BitVec 8) :
    (s.wr a b).core = s.core := rfl
@[simp] theorem State.wr_ms (s : State) (a : Nat) (b : BitVec 8) :
    (s.wr a b).ms = s.ms := rfl
@[simp] theorem State.wr_sq (s : State) (a : Nat) (b : BitVec 8) :
    (s.wr a b).sq = s.sq := rfl
@[simp] theorem State.wr_net (s : State) (a : Nat) (b : BitVec 8) :
    (s.wr a b).net = s.net := rfl
@[simp] theorem State.wr_hbm (s : State) (a : Nat) (b : BitVec 8) :
    (s.wr a b).hbm = s.hbm := rfl
@[simp] theorem State.wr_integ (s : State) (a : Nat) (b : BitVec 8) :
    (s.wr a b).integ = s.integ := rfl
@[simp] theorem State.wr_tm (s : State) (a : Nat) (b : BitVec 8) :
    (s.wr a b).tm = s.tm := rfl
@[simp] theorem State.wr_pw (s : State) (a : Nat) (b : BitVec 8) :
    (s.wr a b).pw = s.pw := rfl
@[simp] theorem State.wr_mg (s : State) (a : Nat) (b : BitVec 8) :
    (s.wr a b).mg = s.mg := rfl
@[simp] theorem State.wr_otp (s : State) (a : Nat) (b : BitVec 8) :
    (s.wr a b).otp = s.otp := rfl
@[simp] theorem State.wr_boot (s : State) (a : Nat) (b : BitVec 8) :
    (s.wr a b).boot = s.boot := rfl
@[simp] theorem State.wr_rst (s : State) (a : Nat) (b : BitVec 8) :
    (s.wr a b).rst = s.rst := rfl
@[simp] theorem State.wr_ck (s : State) (a : Nat) (b : BitVec 8) :
    (s.wr a b).ck = s.ck := rfl
@[simp] theorem State.wr_rt (s : State) (a : Nat) (b : BitVec 8) :
    (s.wr a b).rt = s.rt := rfl
@[simp] theorem State.wr_pins (s : State) (a : Nat) (b : BitVec 8) :
    (s.wr a b).pins = s.pins := rfl
@[simp] theorem State.wr_out (s : State) (a : Nat) (b : BitVec 8) :
    (s.wr a b).out = s.out := rfl
@[simp] theorem State.wr_fresh (s : State) (a : Nat) (b : BitVec 8) :
    (s.wr a b).fresh = s.fresh := rfl

@[simp] theorem State.setWait_pending (s : State) (k : Nat) (w : Option SlotWait) :
    (s.setWait k w).pending = s.pending := rfl
@[simp] theorem State.setWait_regs (s : State) (k : Nat) (w : Option SlotWait) :
    (s.setWait k w).regs = s.regs := rfl
@[simp] theorem State.setWait_sh (s : State) (k : Nat) (w : Option SlotWait) :
    (s.setWait k w).sh = s.sh := rfl
@[simp] theorem State.setWait_mem (s : State) (k : Nat) (w : Option SlotWait) :
    (s.setWait k w).mem = s.mem := rfl
@[simp] theorem State.setWait_core (s : State) (k : Nat) (w : Option SlotWait) :
    (s.setWait k w).core = s.core := rfl
@[simp] theorem State.setWait_ms (s : State) (k : Nat) (w : Option SlotWait) :
    (s.setWait k w).ms = s.ms := rfl
@[simp] theorem State.setWait_net (s : State) (k : Nat) (w : Option SlotWait) :
    (s.setWait k w).net = s.net := rfl
@[simp] theorem State.setWait_hbm (s : State) (k : Nat) (w : Option SlotWait) :
    (s.setWait k w).hbm = s.hbm := rfl
@[simp] theorem State.setWait_integ (s : State) (k : Nat) (w : Option SlotWait) :
    (s.setWait k w).integ = s.integ := rfl
@[simp] theorem State.setWait_tm (s : State) (k : Nat) (w : Option SlotWait) :
    (s.setWait k w).tm = s.tm := rfl
@[simp] theorem State.setWait_pw (s : State) (k : Nat) (w : Option SlotWait) :
    (s.setWait k w).pw = s.pw := rfl
@[simp] theorem State.setWait_mg (s : State) (k : Nat) (w : Option SlotWait) :
    (s.setWait k w).mg = s.mg := rfl
@[simp] theorem State.setWait_otp (s : State) (k : Nat) (w : Option SlotWait) :
    (s.setWait k w).otp = s.otp := rfl
@[simp] theorem State.setWait_boot (s : State) (k : Nat) (w : Option SlotWait) :
    (s.setWait k w).boot = s.boot := rfl
@[simp] theorem State.setWait_rst (s : State) (k : Nat) (w : Option SlotWait) :
    (s.setWait k w).rst = s.rst := rfl
@[simp] theorem State.setWait_ck (s : State) (k : Nat) (w : Option SlotWait) :
    (s.setWait k w).ck = s.ck := rfl
@[simp] theorem State.setWait_rt (s : State) (k : Nat) (w : Option SlotWait) :
    (s.setWait k w).rt = s.rt := rfl
@[simp] theorem State.setWait_pins (s : State) (k : Nat) (w : Option SlotWait) :
    (s.setWait k w).pins = s.pins := rfl
@[simp] theorem State.setWait_out (s : State) (k : Nat) (w : Option SlotWait) :
    (s.setWait k w).out = s.out := rfl
@[simp] theorem State.setWait_fresh (s : State) (k : Nat) (w : Option SlotWait) :
    (s.setWait k w).fresh = s.fresh := rfl

@[simp] theorem State.dropSh_pending (s : State) (k : Nat) :
    (s.dropSh k).pending = s.pending := rfl
@[simp] theorem State.dropSh_regs (s : State) (k : Nat) :
    (s.dropSh k).regs = s.regs := rfl
@[simp] theorem State.dropSh_mem (s : State) (k : Nat) :
    (s.dropSh k).mem = s.mem := rfl
@[simp] theorem State.dropSh_core (s : State) (k : Nat) :
    (s.dropSh k).core = s.core := rfl
@[simp] theorem State.dropSh_ms (s : State) (k : Nat) :
    (s.dropSh k).ms = s.ms := rfl
@[simp] theorem State.dropSh_sq (s : State) (k : Nat) :
    (s.dropSh k).sq = s.sq := rfl
@[simp] theorem State.dropSh_net (s : State) (k : Nat) :
    (s.dropSh k).net = s.net := rfl
@[simp] theorem State.dropSh_hbm (s : State) (k : Nat) :
    (s.dropSh k).hbm = s.hbm := rfl
@[simp] theorem State.dropSh_integ (s : State) (k : Nat) :
    (s.dropSh k).integ = s.integ := rfl
@[simp] theorem State.dropSh_tm (s : State) (k : Nat) :
    (s.dropSh k).tm = s.tm := rfl
@[simp] theorem State.dropSh_pw (s : State) (k : Nat) :
    (s.dropSh k).pw = s.pw := rfl
@[simp] theorem State.dropSh_mg (s : State) (k : Nat) :
    (s.dropSh k).mg = s.mg := rfl
@[simp] theorem State.dropSh_otp (s : State) (k : Nat) :
    (s.dropSh k).otp = s.otp := rfl
@[simp] theorem State.dropSh_boot (s : State) (k : Nat) :
    (s.dropSh k).boot = s.boot := rfl
@[simp] theorem State.dropSh_rst (s : State) (k : Nat) :
    (s.dropSh k).rst = s.rst := rfl
@[simp] theorem State.dropSh_ck (s : State) (k : Nat) :
    (s.dropSh k).ck = s.ck := rfl
@[simp] theorem State.dropSh_rt (s : State) (k : Nat) :
    (s.dropSh k).rt = s.rt := rfl
@[simp] theorem State.dropSh_pins (s : State) (k : Nat) :
    (s.dropSh k).pins = s.pins := rfl
@[simp] theorem State.dropSh_out (s : State) (k : Nat) :
    (s.dropSh k).out = s.out := rfl
@[simp] theorem State.dropSh_fresh (s : State) (k : Nat) :
    (s.dropSh k).fresh = s.fresh := rfl

@[simp] theorem State.holdSh_pending (s : State) (k : Nat) (w : BitVec 64) :
    (s.holdSh k w).pending = s.pending := rfl
@[simp] theorem State.holdSh_regs (s : State) (k : Nat) (w : BitVec 64) :
    (s.holdSh k w).regs = s.regs := rfl
@[simp] theorem State.holdSh_mem (s : State) (k : Nat) (w : BitVec 64) :
    (s.holdSh k w).mem = s.mem := rfl
@[simp] theorem State.holdSh_core (s : State) (k : Nat) (w : BitVec 64) :
    (s.holdSh k w).core = s.core := rfl
@[simp] theorem State.holdSh_ms (s : State) (k : Nat) (w : BitVec 64) :
    (s.holdSh k w).ms = s.ms := rfl
@[simp] theorem State.holdSh_sq (s : State) (k : Nat) (w : BitVec 64) :
    (s.holdSh k w).sq = s.sq := rfl
@[simp] theorem State.holdSh_net (s : State) (k : Nat) (w : BitVec 64) :
    (s.holdSh k w).net = s.net := rfl
@[simp] theorem State.holdSh_hbm (s : State) (k : Nat) (w : BitVec 64) :
    (s.holdSh k w).hbm = s.hbm := rfl
@[simp] theorem State.holdSh_integ (s : State) (k : Nat) (w : BitVec 64) :
    (s.holdSh k w).integ = s.integ := rfl
@[simp] theorem State.holdSh_tm (s : State) (k : Nat) (w : BitVec 64) :
    (s.holdSh k w).tm = s.tm := rfl
@[simp] theorem State.holdSh_pw (s : State) (k : Nat) (w : BitVec 64) :
    (s.holdSh k w).pw = s.pw := rfl
@[simp] theorem State.holdSh_mg (s : State) (k : Nat) (w : BitVec 64) :
    (s.holdSh k w).mg = s.mg := rfl
@[simp] theorem State.holdSh_otp (s : State) (k : Nat) (w : BitVec 64) :
    (s.holdSh k w).otp = s.otp := rfl
@[simp] theorem State.holdSh_boot (s : State) (k : Nat) (w : BitVec 64) :
    (s.holdSh k w).boot = s.boot := rfl
@[simp] theorem State.holdSh_rst (s : State) (k : Nat) (w : BitVec 64) :
    (s.holdSh k w).rst = s.rst := rfl
@[simp] theorem State.holdSh_ck (s : State) (k : Nat) (w : BitVec 64) :
    (s.holdSh k w).ck = s.ck := rfl
@[simp] theorem State.holdSh_rt (s : State) (k : Nat) (w : BitVec 64) :
    (s.holdSh k w).rt = s.rt := rfl
@[simp] theorem State.holdSh_pins (s : State) (k : Nat) (w : BitVec 64) :
    (s.holdSh k w).pins = s.pins := rfl
@[simp] theorem State.holdSh_out (s : State) (k : Nat) (w : BitVec 64) :
    (s.holdSh k w).out = s.out := rfl
@[simp] theorem State.holdSh_fresh (s : State) (k : Nat) (w : BitVec 64) :
    (s.holdSh k w).fresh = s.fresh := rfl

@[simp] theorem State.emit_out (s : State) (k : OutKind) (dst code : Nat) (data : List Nat) :
    (s.emit k dst code data).out = s.out ++ [⟨k, dst, code, data⟩] := rfl

@[simp] theorem State.emit_reg (s : State) (k : OutKind) (dst code : Nat) (data : List Nat) (r u i : Nat) :
    (s.emit k dst code data).reg r u i = s.reg r u i := rfl

@[simp] theorem State.emit_fld (s : State) (k : OutKind) (dst code : Nat) (data : List Nat) (f : Fld) (u i : Nat) :
    (s.emit k dst code data).fld f u i = s.fld f u i := rfl

@[simp] theorem State.wr_fld (s : State) (a : Nat) (b : BitVec 8) (f : Fld) (u i : Nat) : (s.wr a b).fld f u i = s.fld f u i := rfl

@[simp] theorem State.setWait_fld (s : State) (k : Nat) (w : Option SlotWait) (f : Fld) (u i : Nat) :
    (s.setWait k w).fld f u i = s.fld f u i := rfl

@[simp] theorem State.waitOf_setWait (s : State) (k : Nat) (w : Option SlotWait) : (s.setWait k w).waitOf k = w := by
  simp [State.setWait, State.waitOf]

theorem State.waitOf_setWait_ne (s : State) {k j : Nat} (w : Option SlotWait) (h : j ≠ k) :
    (s.setWait k w).waitOf j = s.waitOf j := by
  simp [State.setWait, State.waitOf, mget_mput_ne _ _ _ h]

@[simp] theorem State.put_waitOf (s : State) (f : Fld) (u i v k : Nat) : (s.put f u i v).waitOf k = s.waitOf k := rfl

@[simp] theorem State.put_recAt (s : State) (f : Fld) (u i v k : Nat) : (s.put f u i v).recAt k = s.recAt k := rfl

@[simp] theorem State.when_true (s : State) (f : State → State) : s.when true f = f s := rfl

@[simp] theorem State.when_false (s : State) (f : State → State) : s.when false f = s := rfl

@[simp] theorem State.forEach_nil {A : Type} (s : State) (f : A → State → State) : s.forEach [] f = s := rfl

@[simp] theorem State.forEach_cons {A : Type} (s : State) (a : A) (l : List A) (f : A → State → State) :
    s.forEach (a :: l) f = (f a s).forEach l f := rfl

/-- A property that every turn of an update keeps, the whole update keeps. -/
theorem State.forEach_keep {A : Type} (p : State → Prop) (l : List A) (f : A → State → State)
    (hf : ∀ a t, p t → p (f a t)) (s : State) (h : p s) : p (s.forEach l f) := by
  induction l generalizing s with
  | nil => exact h
  | cons a l ih => exact ih _ (hf a s h)

/-- Writing a field touches the word of its register alone. -/
theorem State.put_regsKept (s : State) (f : Fld) (u i v k : Nat) (h : k ≠ rkey f.reg u i) :
    mget regReset (s.put f u i v).regs k = mget regReset s.regs k := by
  simp [State.put, State.setReg, mget_mput_ne _ _ _ h]

end Sys2Proof.Machine
end

