-- ==== Sys2Proof/Laws/Ways.lean ====
section
/-! SUPPORT. What a passage through the network leaves alone: everything but the places of the messages, the ostlers and the open
rows of the HBM (`State.still`). One lemma for each operation, and what equal `still` states share. -/

namespace Sys2Proof.Machine

theorem setAt_pos {A : Type} (l : List A) (i : Nat) (f g : A → A) (h : ∀ a, g (f a) = g a) :
    (setAt l i f).map g = l.map g := by
  unfold setAt
  induction l generalizing i with
  | nil => simp
  | cons a l ih =>
    cases i with
    | zero => simp [h]
    | succ i => simp [ih i]

@[simp] theorem still_setOstler (s : State) (k : Nat) (o : Ostler) : (s.setOstler k o).still = s.still := rfl

@[simp] theorem still_putMsg (s : State) (list ix : Nat) (p : Option Pos) : (s.putMsg list ix p).still = s.still := by
  unfold State.putMsg
  split
  · exact congrArg (fun l => ({ s.still with net := { s.still.net with signals := l } } : State)) (setAt_pos _ _ _ _ (fun _ => rfl))
  · exact congrArg (fun l => ({ s.still with net := { s.still.net with waitMsgs := l } } : State)) (setAt_pos _ _ _ _ (fun _ => rfl))
  · exact congrArg (fun l => ({ s.still with net := { s.still.net with grants := l } } : State)) (setAt_pos _ _ _ _ (fun _ => rfl))
  · exact congrArg (fun l => ({ s.still with net := { s.still.net with resps := l } } : State)) (setAt_pos _ _ _ _ (fun _ => rfl))
  · exact congrArg (fun l => ({ s.still with net := { s.still.net with flits := l } } : State)) (setAt_pos _ _ _ _ (fun _ => rfl))
  · rfl

@[simp] theorem still_hop (s : State) (m : Msg) : (s.hop m).still = s.still := by
  unfold State.hop
  split <;> simp

theorem still_forEach {A : Type} (l : List A) (f : A → State → State) (hf : ∀ a t, (f a t).still = t.still) (s : State) :
    (s.forEach l f).still = s.still := by
  unfold State.forEach
  induction l generalizing s with
  | nil => rfl
  | cons a l ih => exact (ih _).trans (hf a s)

@[simp] theorem still_portPhase (s : State) (r port : Nat) (extra : List Asker) : (s.portPhase r port extra).1.still = s.still := by
  unfold State.portPhase
  exact (still_forEach _ _ (fun m t => still_hop t m) _).trans rfl

@[simp] theorem still_passPort (a : Asker) (r port n : Nat) (s : State) : (State.passPort a r port n s).still = s.still := by
  induction n generalizing s with
  | zero => rfl
  | succ n ih =>
    unfold State.passPort
    dsimp only
    split
    · exact still_portPhase ..
    · exact (ih _).trans (still_portPhase ..)

@[simp] theorem still_crossGo (net : Nat) (l : Option Nat) (inp : Nat) (hs : List (Nat × Nat × Nat)) (s : State) :
    (State.crossGo net l inp hs s).still = s.still := by
  induction hs generalizing inp s with
  | nil => rfl
  | cons h hs ih => exact (ih (behind h.1 h.2.1).2 _).trans (still_passPort (bufferAsker net h.2.2 inp l) h.1 h.2.1 64 s)

@[simp] theorem still_cross (s : State) (net : Nat) (l : Option Nat) (src inp dst last : Nat) :
    (s.cross net l src inp dst last).still = s.still := by
  unfold State.cross
  split
  · rfl
  · exact still_crossGo ..

@[simp] theorem still_crossed (s : State) (rq : Rq) (dst last : Nat) (back : Bool) : (s.crossed rq dst last back).still = s.still := by
  unfold State.crossed State.when
  dsimp only
  split
  · exact (still_cross ..).trans (still_cross ..)
  · exact still_cross ..

@[simp] theorem still_journey (list ix n : Nat) (s : State) : (State.journey list ix n s).still = s.still := by
  induction n generalizing s with
  | zero => rfl
  | succ n ih =>
    unfold State.journey
    dsimp only
    split
    · rfl
    · split
      · rfl
      · split
        · rfl
        · exact (ih _).trans (still_portPhase ..)

@[simp] theorem still_oneHop (list ix n : Nat) (s : State) : (State.oneHop list ix n s).2.still = s.still := by
  induction n generalizing s with
  | zero => rfl
  | succ n ih =>
    unfold State.oneHop
    dsimp only
    split
    · rfl
    · split
      · rfl
      · split
        · rfl
        · split
          · exact (ih _).trans (still_portPhase ..)
          · exact still_portPhase ..

@[simp] theorem still_enterNet (s : State) (list ix net src inp dst last : Nat) :
    (s.enterNet list ix net src inp dst last).still = s.still := by
  unfold State.enterNet
  split <;> simp

@[simp] theorem still_travel (s : State) (list ix net src inp dst last : Nat) (ends : List Nat) :
    (s.travel list ix net src inp dst last ends).2.still = s.still := by
  unfold State.travel
  split
  · simp only [still_journey]
  · split
    · rfl
    · split
      · rfl
      · simp only [still_journey, still_enterNet]

@[simp] theorem still_servedGo (kind unit index : Nat) (a : Asker) (n : Nat) (s : State) :
    (State.servedGo kind unit index a n s).still = s.still := by
  induction n generalizing s with
  | zero => rfl
  | succ n ih =>
    unfold State.servedGo
    dsimp only
    split
    · rfl
    · exact (ih _).trans rfl

@[simp] theorem still_served (s : State) (kind unit index : Nat) (a : Asker) : (s.served kind unit index a).still = s.still := by
  unfold State.served; rw [still_servedGo]

@[simp] theorem still_hold (s : State) (k : Nat) (h : Holding) : (s.hold k h).still = s.still := rfl

@[simp] theorem still_letGo (s : State) (k : Nat) (h : Holding) : (s.letGo k h).still = s.still := rfl

@[simp] theorem still_activate (s : State) (a : Nat) : (s.activate a).still = s.still := by
  unfold State.activate
  dsimp only
  split <;> rfl

@[simp] theorem still_frontGrant (s : State) (a : Nat) (x : Asker) : (s.frontGrant a x).still = s.still :=
  (still_activate ..).trans (still_served ..)

@[simp] theorem still_bankGrant (s : State) (rq : Rq) (near : Bool) (pa : Nat) : (s.bankGrant rq near pa).still = s.still := by
  unfold State.bankGrant
  split
  · exact still_served ..
  · rfl

@[simp] theorem still_granted (s : State) (rq : Rq) (a pa : Nat) (back : Bool) : (s.granted rq a pa back).still = s.still := by
  unfold State.granted
  split
  · rfl
  · split
    · exact (still_bankGrant ..).trans (still_crossed ..)
    · exact (still_frontGrant ..).trans (still_crossed ..)

@[simp] theorem still_mgmtFrame (s : State) (port sub : Nat) : (s.mgmtFrame port sub).still = s.still := still_served ..

@[simp] theorem still_frameGrant (s : State) (rq : Rq) (port sub l c : Nat) : (s.frameGrant rq port sub l c).still = s.still := by
  unfold State.frameGrant
  split
  · rfl
  · exact still_served ..

/-- What states that differ in nothing else share. -/
theorem still_shares {s t : State} (h : t.still = s.still) :
    t.pending = s.pending ∧ t.regs = s.regs ∧ t.sh = s.sh ∧ t.mem = s.mem ∧ t.core = s.core ∧ t.ms = s.ms ∧ t.sq = s.sq ∧
      t.integ = s.integ ∧ t.tm = s.tm ∧ t.pw = s.pw ∧ t.mg = s.mg ∧ t.otp = s.otp ∧ t.boot = s.boot ∧ t.rst = s.rst ∧ t.ck = s.ck ∧
      t.rt = s.rt ∧ t.pins = s.pins ∧ t.out = s.out ∧ t.fresh = s.fresh := by
  have e : ∀ {A : Type} (f : State → A), f t.still = f s.still := fun f => congrArg f h
  exact ⟨e State.pending, e State.regs, e State.sh, e State.mem, e State.core, e State.ms, e State.sq, e State.integ, e State.tm,
    e State.pw, e State.mg, e State.otp, e State.boot, e State.rst, e State.ck, e State.rt, e State.pins, e State.out, e State.fresh⟩

end Sys2Proof.Machine
end

