-- ==== Sys2Proof/Tests/Slice0.lean ====
section
/-! SUPPORT. Tests: a witness for every clause of the statements that has hypotheses (`test_witness_…`), the checks of
WellFormed refusing an ill-formed command (`test_wf_…`), and one-step results worked out from the spec (`test_…`). -/

namespace Sys2Proof.Tests
set_option Elab.async false
open Sys2Proof Sys2Proof.Machine

/-- Fields written one after the other: field, unit, index, value. -/
def puts (s : State) (l : List (Fld × Nat × Nat × Nat)) : State :=
  l.foldl (fun s p => s.put p.1 p.2.1 p.2.2.1 p.2.2.2) s

/-- Started. -/
def rdy : State := State.reset.put fMG_START_STATUS_STATE 0 0 1
/-- Cluster 0 belongs to lodging 0, which is open. -/
def own : State := puts rdy [(fCL_OWNER_VALID, 0, 0, 1), (fGL_LODGING_CFG_OPEN, 0, 0, 1)]
/-- Core 0 of cluster 0 runs. -/
def run : State := own.put fCO_CORE_STATUS_STATE 0 0 1
/-- The next free count of site time. -/
def at1 (s : State) (n : Nat) : State := s.put fTM_SITE_NOW_COUNT 0 0 n

/-- The CM of cluster 0. -/
def cm0 : Nat := 0x010000000000
def wordBytes (ws : List Nat) : List (BitVec 8) := ws.flatMap (leBytes 8)
def issBytes (x : Iss) : List (BitVec 8) := wordBytes (x.words.map BitVec.toNat)
def recOf (ws : List Nat) : List Nat := (List.range 8).map (fun k => ws.getD k 0)
/-- Lodging 0's page 0 is frame 1, by a table at address 0; the caches of cluster 0 and port 0 hold the entry. -/
def entry0 : Nat := 2 ^ 63 + 2 ^ 62 + 2 ^ 61 + 1
def paged (s : State) : State :=
  let s := (puts s [(fGL_PT_REGION_COUNT, 0, 0, 1), (fGL_PT_BASE_BASE, 0, 0, 0)]).physWrite 0 (leBytes 8 entry0)
  { s with hbm := { s.hbm with tlb := [(0, entry0), (64 * 2 ^ 28, entry0), ((128 + s.stackOf 0) * 2 ^ 28, entry0)] } }
/-- A write to page 0. -/
def inPage (s : State) (va : Nat) (bs : List (BitVec 8)) : State := s.physWrite (65536 + va) bs
/-- Stream 0 runs in slot 0 of sequencer 0, at a record at address 0. -/
def seqAt (s : State) (ws : List Nat) : State :=
  inPage (puts (paged s) [(fSQ_SLOT_VALID, 0, 0, 1), (fGL_STREAM7_STATE, 0, 0, 3)]) 0 (wordBytes (recOf ws))
def seqs (ws : List Nat) : State := seqAt own ws
/-- After the fetch of the record at position 0, and the copy of site time of region `r` one count ahead. -/
def fetched (s : State) : State := (s.fetchRec 0 0 0).2
def skewed (s : State) (r : Nat) : State := { s with tm := { s.tm with skew := [(r, 1)] } }
def iss (ws : List Nat) : Iss := ⟨0, 0, 0, 0, (recOf ws).map (BitVec.ofNat 64)⟩
/-- The first word of a record. -/
def op (n : Nat) : Nat := n * 2 ^ 56

/-- A payload of fields D, A, B and the function. -/
def pay (d a b fn : Nat) : Payload := BitVec.ofNat 26 (d * 2 ^ 17 + a * 2 ^ 12 + b * 2 ^ 7 + fn)

/-- A message of the first session, and sessions of the owner and of lodging 0's host. -/
def hd : MsgHdr := ⟨1, 1, true, true, false⟩
def ses (role : Nat) : Session := ⟨1, role, 0, 0, 0, 0, [], 0, []⟩
def withSes (s : State) (role : Nat) : State := { s with mg := { s.mg with sessions := [ses role] } }
def lreq (clusters frames : Nat) : LodgingReq := ⟨0, clusters, 0, frames, 0, 0, 0, 0, 0, 0, 0, 0, 0, 0⟩

def boots : State := let s := State.reset.put fMG_START_STATUS_STATE 0 0 2; { s with boot := { s.boot with running := true } }
def tr (n size : Nat) (list : Bool) : Transfer := ⟨n, false, 1, size, list, [], [], 0, none⟩
def withTr (s : State) (x : Transfer) : State := { s with boot := { s.boot with transfer := some x } }
def jboots : State := { boots.put fMG_START_STATUS_BOOT_SRC 0 0 3 with pins := { boots.pins with vstby := true } }
def lrst (ph : Nat) : LodgingReset := ⟨7, 0, ph, true⟩
def inRst (n ph : Nat) : State := at1 { own with rst := { own.rst with lodgings := [lrst ph] } } n
def barr (n : Nat) : State := puts (seqs [op 8, 0, 63 + n * 2 ^ 32]) [(fGL_BARRIER_OWNED, 0, 63, 1)]
def sw (need : Nat) : SlotWait := ⟨5, need, 0, none, [], 0, [], 0⟩
def present (s : State) : State := s.put fCL_CORE_COUNT_PRESENT 0 0 1
def ten : Tensor := ⟨0, 0, [1#64], [], 0⟩
def callR : List Nat := [op 2 + 1, 0, 0x1000, 0x2000]
def hdrB : List (BitVec 8) := wordBytes [0x01014E51, 64, 0, 0, 0, 0, 0, 0]
def cst : CoreStart := ⟨0, 0, 0, 0, [], 1⟩
def dmaR : List Nat := [op 3, 0, cm0 + 0x1000, cm0 + 0x2000, 64, 0x3000]
def lch : Launch := ⟨1, 0, 0, 0, 3, [], none⟩
def lrec : LedgerRec := ⟨0, 0, 1, 0, 0, 0, 0, 0, 0, 0, 0, 1, 0, 0, []⟩
def led (base : Nat) : State :=
  let s := puts own [(fMG_LEDGER_STATUS_UNREAD, 0, 0, 1), (fMG_LEDGER_MIRROR_BASE, 0, 0, base)]
  { s with integ := { s.integ with ledger := [(0, some lrec)] } }
def pages : State := { withSes (own.put fGL_PT_REGION_COUNT 0 0 2) 1 with mg := { (withSes own 1).mg with frames := [(5, 1)] } }
def powered : State := { own with pins := { own.pins with pwrGood := true } }
def atStep (k : Nat) : State :=
  let s := puts State.reset [(fMG_START_STATUS_STEP, 0, 0, k)]
  { s with boot := { s.boot with running := true, image := [0] }, pins := { s.pins with pwrGood := true } }

theorem test_witness_IdlingCountsSiteTime : ∃ (s : State),
      s.pending = [] :=
  ⟨State.reset, by
    decide +kernel⟩

theorem test_witness_bootRequestAndOffera : ∃ (s : State),
      s.wantsImage = true ∧
      s.boot.transfer = none ∧
      (s.boot.lastRequest = 0 ∨ s.boot.lastRequest + 250000000 ≤ s.now + 1) :=
  ⟨boots, by
    decide +kernel⟩

theorem test_witness_bootRequestAndOfferba : ∃ (source : Nat) (_version : Nat) (size : Nat) (_list : Bool) (s : State),
      s.mg.ctrl = 0 ∧
      s.wantsImage = true ∧
      source ∈ s.sources ∧
      (s.boot.transfer = none ∨ ∃ x, s.boot.transfer = some x ∧ x.source = source) ∧
      size ≤ 393216 :=
  ⟨0, 1, 393216, false, boots, by
    first | decide +kernel | exact ⟨by decide +kernel, by decide +kernel, by decide +kernel, Or.inl (by decide +kernel), by decide +kernel⟩⟩

theorem test_witness_bootRequestAndOfferbb : ∃ (source : Nat) (_version : Nat) (size : Nat) (_list : Bool) (s : State),
      s.mg.ctrl = 0 ∧
      s.wantsImage = true ∧
      source ∈ s.sources ∧
      (s.boot.transfer = none ∨ ∃ x, s.boot.transfer = some x ∧ x.source = source) ∧
      393216 < size :=
  ⟨0, 1, 393217, false, boots, by
    exact ⟨by decide +kernel, by decide +kernel, by decide +kernel, Or.inl (by decide +kernel), by decide +kernel⟩⟩

theorem test_witness_imagePartsa : ∃ (source : Nat) (bs : List (BitVec 8)) (x : Transfer) (s : State),
      Claim.loading s source x ∧
      x.ahead = [] ∧
      bs.length ≤ 1024 ∧
      x.bytes.length + bs.length ≤ x.size :=
  ⟨0, [1, 2], tr 0 2 false, withTr boots (tr 0 2 false), by
    unfold Claim.loading; decide +kernel⟩

theorem test_witness_imagePartsba : ∃ (source : Nat) (p : HostList) (x : Transfer) (s : State),
      Claim.loading s source x ∧
      x.list = true ∧
      p.serial = Config.serial.toNat ∧
      x.host = none :=
  ⟨0, ⟨Config.serial.toNat, 0, 0, []⟩, tr 0 2 true, withTr boots (tr 0 2 true), by
    unfold Claim.loading; exact ⟨by decide +kernel, by decide +kernel, rfl, by decide +kernel⟩⟩

theorem test_witness_imagePartsbb : ∃ (source : Nat) (p : HostList) (x : Transfer) (s : State),
      Claim.loading s source x ∧
      x.list = true ∧
      p.serial ≠ Config.serial.toNat :=
  ⟨0, ⟨2 ^ 128, 0, 0, []⟩, tr 0 2 true, withTr boots (tr 0 2 true), by
    unfold Claim.loading; exact ⟨by decide +kernel, by decide +kernel, by have h := Config.serial.isLt; show 2 ^ 128 ≠ Config.serial.toNat; omega⟩⟩

theorem test_witness_imageEndab : ∃ (source : Nat) (x : Transfer) (s : State),
      Claim.loading s source x ∧
      x.bytes.length = x.size ∧
      s.imageFails x.bytes ≠ 0 :=
  ⟨0, tr 0 0 false, withTr boots (tr 0 0 false), by
    unfold Claim.loading; decide +kernel⟩

theorem test_witness_imageEndb : ∃ (x : Transfer) (s : State),
      s.boot.transfer = some x ∧
      x.heard + 15000000000 ≤ s.now :=
  ⟨tr 0 0 false, at1 (withTr boots (tr 0 0 false)) 15000000000, by
    decide +kernel⟩

theorem test_witness_imageLoada : ∃ (s : State) (_size : Nat),
      s.pins.vstby = true ∧
      s.mg.ctrl = 0 ∧
      s.wantsImage = true ∧
      3 ∈ s.sources ∧
      s.boot.transfer = none :=
  ⟨jboots, 393216, by
    decide +kernel⟩

theorem test_witness_imageLoadbaa : ∃ (s : State) (_w : Nat) (x : Transfer),
      s.pins.vstby = true ∧
      s.mg.ctrl = 0 ∧
      Claim.loading s 3 x :=
  ⟨withTr jboots (tr 3 8 false), 5, tr 3 8 false, by
    unfold Claim.loading; decide +kernel⟩

theorem test_witness_imageLoadbbb : ∃ (s : State) (x : Transfer),
      s.pins.vstby = true ∧
      s.mg.ctrl = 0 ∧
      Claim.loading s 3 x ∧
      x.bytes.length = x.size ∧
      s.imageFails x.bytes ≠ 0 ∧
      s.boot.image = [] :=
  ⟨withTr jboots (tr 3 0 false), tr 3 0 false, by
    unfold Claim.loading; decide +kernel⟩

theorem test_witness_coreReseta : ∃ (rq : Rq) (c : Nat) (slot : Nat) (s : State),
      c < 48 ∧
      slot < 28 ∧
      s.csRefusal rq (clAddr c 384) true = none ∧
      s.slotHeld (28 * c + slot) = false ∧
      s.clusterHeld c = false :=
  ⟨.firmware, 47, 27, run, by
    decide +kernel⟩

theorem test_witness_coreResetba : ∃ (u : Nat) (s : State),
      u < 1344 ∧
      u ∈ s.rst.cores ∧
      s.fld fMG_LEDGER_STATUS_UNREAD = 0 ∧
      (∀ (x : Nat × Nat), x ∈ s.rst.fences → x.fst ≠ u) :=
  ⟨1343, { run with rst := { run.rst with cores := [1343], fences := [(7, 3)] } }, by
    decide +kernel⟩

theorem test_witness_coreResetbb : ∃ (u : Nat) (why : Nat) (s : State),
      u < 1344 ∧
      u ∈ s.rst.cores ∧
      s.fld fMG_LEDGER_STATUS_UNREAD = 0 ∧
      (s.rst.fences = [(u, why)]) ∧
      s.resetHolds (u / 28) = false :=
  ⟨1343, 3, { run with rst := { run.rst with cores := [1343], fences := [(1343, 3)] } }, by
    decide +kernel⟩

theorem test_witness_clusterResetaa : ∃ (rq : Rq) (c : Nat) (_scrub : Bool) (s : State),
      c < 48 ∧
      s.csRefusal rq (clAddr c 384) true = none ∧
      s.clusterHeld c = false :=
  ⟨.firmware, 47, true, run, by
    decide +kernel⟩

theorem test_witness_clusterResetab : ∃ (rq : Rq) (c : Nat) (scrub : Bool) (s : State),
      c < 48 ∧
      s.csRefusal rq (clAddr c 384) true = none ∧
      s.clusterHeld c = true ∧
      scrub = true :=
  ⟨.firmware, 47, true, { run with rst := { run.rst with clusters := [(47, false)] } }, by
    decide +kernel⟩

theorem test_witness_clusterResetb : ∃ (c : Nat) (s : State),
      c < 48 ∧
      s.clusterHeld c = true ∧
      nget s.pw.thermStop c = 0 ∧
      s.mg.acts = [] ∧
      s.integ.afterReset = [] ∧
      (∀ (x : Nat × Nat), x ∈ s.rst.fences → inCluster c x.fst = false) :=
  ⟨47, { run with rst := { run.rst with clusters := [(47, false)] } }, by
    decide +kernel⟩

theorem test_witness_lodgingReseta : ∃ (rq : Rq) (l : Nat) (_scrub : Bool) (s : State),
      s.csRefusal rq (glAddr 1536) true = none ∧
      s.is fGL_LODGING_CFG_OPEN 0 (l % 8) = true ∧
      s.resetPhase (l % 8) = none :=
  ⟨.firmware, 0, true, run, by
    decide +kernel⟩

theorem test_witness_lodgingResetba : ∃ (l : Nat) (x : LodgingReset) (s : State),
      s.resetPhase l = some x ∧
      x.phase = 0 ∧
      x.start + 50000 ≤ s.now :=
  ⟨7, lrst 0, inRst 50000 0, by
    decide +kernel⟩

theorem test_witness_lodgingResetbba : ∃ (l : Nat) (x : LodgingReset) (s : State),
      s.resetPhase l = some x ∧
      x.phase = 1 ∧
      x.start + 1000000 ≤ s.now :=
  ⟨7, lrst 1, inRst 1000000 1, by
    decide +kernel⟩

theorem test_witness_lodgingResetbbb : ∃ (l : Nat) (x : LodgingReset) (s : State),
      s.resetPhase l = some x ∧
      x.phase = 2 ∧
      l < 8 ∧
      (∀ (c : Nat), c < 48 → s.ownerOf c = some l → nget s.pw.thermStop c = 0) ∧
      s.mg.acts = [] ∧
      s.integ.afterReset = [] ∧
      (∀ (c : Nat) (x : Nat × Nat), x ∈ s.rst.fences → s.ownerOf c = some l → inCluster c x.fst = false) :=
  ⟨7, lrst 2, inRst 1000000 2, by
    exact ⟨(by decide +kernel), (by decide +kernel), (by decide +kernel), (by decide +kernel), (by decide +kernel), (by decide +kernel), fun c x h => absurd (show x ∈ ([] : List (Nat × Nat)) from h) (List.not_mem_nil)⟩⟩

theorem test_witness_absorbed : ∃ (id : Nat) (c : Nat) (s : State),
      c < 48 ∧
      (List.find? (fun a => a.fst == id) s.net.absorb = some (id, c)) ∧
      s.fld fMG_LEDGER_STATUS_UNREAD = 0 ∧
      nget s.net.summed (256 * 24838 + c) ≠ s.now / 250000 + 1 :=
  ⟨3, 47, { run with net := { run.net with absorb := [(3, 47)] } }, by
    decide +kernel⟩

theorem test_witness_alua : ∃ (u : Nat) (x : Payload) (s : State) (n : Int),
      (Claim.executes s u x [xD x, xA x, xB x]) ∧
      Claim.aluNumber (xFn x) (s.sReg u (xA x)) (s.sReg u (xB x)) = some n :=
  ⟨0, pay 1 2 3 0, run, 0, by
    unfold Claim.executes; decide +kernel⟩

theorem test_witness_aluba : ∃ (u : Nat) (x : Payload) (s : State) (f : Bool → Bool → Bool),
      (Claim.executes s u x [xD x, xA x, xB x]) ∧
      (xFn x = 2 ∧ f = and ∨ xFn x = 3 ∧ f = or ∨ xFn x = 4 ∧ f = xor) :=
  ⟨0, pay 31 2 3 4, run, xor, by
    unfold Claim.executes; exact ⟨by decide +kernel, Or.inr (Or.inr ⟨by decide +kernel, rfl⟩)⟩⟩

theorem test_witness_alubba : ∃ (u : Nat) (x : Payload) (s : State) (p : BitVec 32 × Nat),
      (Claim.executes s u x [xD x, xA x, xB x]) ∧
      aluFp (xFn x) (s.sReg u (xA x)) (s.sReg u (xB x)) = some p :=
  ⟨0, pay 1 2 3 0x10, run, (aluFp 0x10 (run.sReg 0 2) (run.sReg 0 3)).get (by decide +kernel), by
    unfold Claim.executes; decide +kernel⟩

theorem test_witness_alubbb : ∃ (u : Nat) (x : Payload) (s : State),
      (Claim.executes s u x [xD x, xA x, xB x]) ∧
      xFn x = 24 :=
  ⟨0, pay 31 2 3 24, run, by
    unfold Claim.executes; decide +kernel⟩

theorem test_witness_dset : ∃ (u : Nat) (x : Payload) (s : State),
      Claim.executes s u x [xA x] ∧
      xB x = 0 ∧
      xD x < 16 ∧
      xFn x < 6 ∧
      BitVec.toNat (s.sReg u (xA x)) < 2 ^ 32 ∧
      (descLevels (s.dReg u (xD x)) ≤ 4 ∨ 3 ≤ s.level u) :=
  ⟨0, pay 15 1 0 5, run, by
    unfold Claim.executes; decide +kernel⟩

theorem test_witness_semRecordsa : ∃ (c : Nat) (i : Nat) (x : Iss) (s0 : State) (s : State),
      Claim.record s0 s c i 4 x :=
  ⟨0, 0, iss [op 4], seqs [op 4], fetched (seqs [op 4]), by
    unfold Claim.record Claim.untraced; repeat' apply And.intro
    all_goals first | decide +kernel | exact ⟨issBytes (iss [op 4]), by decide +kernel⟩ |
      exact fun p _ h => absurd h (List.not_mem_nil (a := p)) | exact Nat.zero_le _ | exact rfl⟩

theorem test_witness_semRecordsba : ∃ (c : Nat) (i : Nat) (x : Iss) (s0 : State) (s : State),
      Claim.record s0 s c i 5 x ∧
      semAmount (x.w 2) ≠ 0 :=
  ⟨0, 0, iss [op 5, 0, 2 ^ 32], seqs [op 5, 0, 2 ^ 32], fetched (seqs [op 5, 0, 2 ^ 32]), by
    unfold Claim.record Claim.untraced; repeat' apply And.intro
    all_goals first | decide +kernel | exact ⟨issBytes (iss [op 5, 0, 2 ^ 32]), by decide +kernel⟩ |
      exact fun p _ h => absurd h (List.not_mem_nil (a := p)) | exact Nat.zero_le _ | exact rfl⟩

theorem test_witness_semRecordsbb : ∃ (c : Nat) (i : Nat) (x : Iss) (s0 : State) (s : State),
      Claim.record s0 s c i 5 x ∧
      semAmount (x.w 2) = 0 :=
  ⟨0, 0, iss [op 5], seqs [op 5], fetched (seqs [op 5]), by
    unfold Claim.record Claim.untraced; repeat' apply And.intro
    all_goals first | decide +kernel | exact ⟨issBytes (iss [op 5]), by decide +kernel⟩ |
      exact fun p _ h => absurd h (List.not_mem_nil (a := p)) | exact Nat.zero_le _ | exact rfl⟩

theorem test_witness_flagSet : ∃ (c : Nat) (i : Nat) (x : Iss) (s0 : State) (s : State),
      Claim.record s0 s c i 6 x ∧
      x.bits 0 0 2 ≠ 3 ∧
      s.owns (s.streamLodging x.id) x.flag.fst = true ∧
      Claim.unwatched s x.flag.fst x.flag.snd :=
  ⟨0, 0, iss [op 6 + 2, 0, 0x0FFF0000, 9], seqs [op 6 + 2, 0, 0x0FFF0000, 9], fetched (seqs [op 6 + 2, 0, 0x0FFF0000, 9]), by
    have hw : (fetched (seqs [op 6 + 2, 0, 0x0FFF0000, 9])).sq.waits = [] := by decide +kernel
    unfold Claim.record Claim.untraced Claim.unwatched; repeat' apply And.intro
    all_goals first | decide +kernel | exact ⟨issBytes (iss [op 6 + 2, 0, 0x0FFF0000, 9]), by decide +kernel⟩ | exact Nat.zero_le _ |
      exact fun p _ h => absurd (hw ▸ h) (List.not_mem_nil (a := p))⟩

theorem test_witness_flagWaita : ∃ (c : Nat) (i : Nat) (x : Iss) (s0 : State) (s : State),
      Claim.record s0 s c i 7 x ∧
      x.bits 0 0 2 ≠ 3 ∧
      s.owns (s.streamLodging x.id) x.flag.fst = true ∧
      Claim.compares (x.bits 0 0 2) (s.fld fCL_FLAG_VALUE x.flag.fst x.flag.snd) (x.bits 3 0 32) :=
  ⟨0, 0, iss [op 7], seqs [op 7], fetched (seqs [op 7]), by
    unfold Claim.record Claim.untraced Claim.compares; repeat' apply And.intro
    all_goals first | decide +kernel | exact ⟨issBytes (iss [op 7]), by decide +kernel⟩ |
      exact fun p _ h => absurd h (List.not_mem_nil (a := p)) | exact Nat.zero_le _ | exact rfl⟩

theorem test_witness_flagWaitb : ∃ (c : Nat) (i : Nat) (x : Iss) (s0 : State) (s : State),
      Claim.record s0 s c i 7 x ∧
      x.bits 0 0 2 ≠ 3 ∧
      s.owns (s.streamLodging x.id) x.flag.fst = true ∧
      (¬Claim.compares (x.bits 0 0 2) (s.fld fCL_FLAG_VALUE x.flag.fst x.flag.snd) (x.bits 3 0 32)) :=
  ⟨0, 0, iss [op 7 + 1, 0, 0, 1], seqs [op 7 + 1, 0, 0, 1], fetched (seqs [op 7 + 1, 0, 0, 1]), by
    unfold Claim.record Claim.untraced Claim.compares; repeat' apply And.intro
    all_goals first | decide +kernel | exact ⟨issBytes (iss [op 7 + 1, 0, 0, 1]), by decide +kernel⟩ |
      exact fun p _ h => absurd h (List.not_mem_nil (a := p)) | exact Nat.zero_le _ | exact rfl⟩

theorem test_witness_barriera : ∃ (c : Nat) (i : Nat) (x : Iss) (s0 : State) (s : State),
      Claim.record s0 s c i 8 x ∧
      x.bits 2 32 16 = 0 :=
  ⟨0, 0, iss [op 8], seqs [op 8], fetched (seqs [op 8]), by
    unfold Claim.record Claim.untraced; repeat' apply And.intro
    all_goals first | decide +kernel | exact ⟨issBytes (iss [op 8]), by decide +kernel⟩ |
      exact fun p _ h => absurd h (List.not_mem_nil (a := p)) | exact Nat.zero_le _ | exact rfl⟩

theorem test_witness_barrierba : ∃ (c : Nat) (i : Nat) (x : Iss) (s0 : State) (s : State),
      Claim.record s0 s c i 8 x ∧
      s.ownsBarrier (s.streamLodging x.id) (x.bits 2 0 6) = true ∧
      (s.fld fGL_BARRIER_COUNT 0 (x.bits 2 0 6) = 0 ∨ s.fld fGL_BARRIER_EXPECTED 0 (x.bits 2 0 6) = x.bits 2 32 16) ∧
      s.fld fGL_BARRIER_COUNT 0 (x.bits 2 0 6) + 1 < x.bits 2 32 16 :=
  ⟨0, 0, iss [op 8, 0, 63 + 2 * 2 ^ 32], barr 2, fetched (barr 2), by
    unfold Claim.record Claim.untraced; repeat' apply And.intro
    all_goals first | decide +kernel | exact ⟨issBytes (iss [op 8, 0, 63 + 2 * 2 ^ 32]), by decide +kernel⟩ |
      exact fun p _ h => absurd h (List.not_mem_nil (a := p)) | exact Nat.zero_le _ | exact rfl⟩

theorem test_witness_barrierbb : ∃ (c : Nat) (i : Nat) (x : Iss) (s0 : State) (s : State),
      Claim.record s0 s c i 8 x ∧
      s.ownsBarrier (s.streamLodging x.id) (x.bits 2 0 6) = true ∧
      (s.fld fGL_BARRIER_COUNT 0 (x.bits 2 0 6) = 0 ∨ s.fld fGL_BARRIER_EXPECTED 0 (x.bits 2 0 6) = x.bits 2 32 16) ∧
      s.fld fGL_BARRIER_COUNT 0 (x.bits 2 0 6) + 1 = x.bits 2 32 16 :=
  ⟨0, 0, iss [op 8, 0, 63 + 2 ^ 32], barr 1, fetched (barr 1), by
    unfold Claim.record Claim.untraced; repeat' apply And.intro
    all_goals first | decide +kernel | exact ⟨issBytes (iss [op 8, 0, 63 + 2 ^ 32]), by decide +kernel⟩ |
      exact fun p _ h => absurd h (List.not_mem_nil (a := p)) | exact Nat.zero_le _ | exact rfl⟩

theorem test_witness_waveRelease : ∃ (b : Nat) (g : Nat) (c : Nat) (at_ : Nat) (s : State),
      c < 48 ∧
      (List.find? (fun w => w.fst == b) s.sq.waves = some (b, g, c, at_)) ∧
      at_ ≤ s.now ∧
      s.pins.shedN = true ∧
      nget s.pw.thermStop c = 0 ∧
      Claim.untraced s :=
  ⟨63, 1, 47, 0, { own with sq := { own.sq with waves := [(63, 1, 47, 0)] } }, by
    unfold Claim.untraced; decide +kernel⟩

theorem test_witness_waitTimeaa : ∃ (c : Nat) (i : Nat) (at_ : Nat) (x : Iss) (s0 : State) (s : State),
      Claim.record s0 s c i 9 x ∧
      at_ = x.w 2 + (if (x.w 0).testBit 0 = true then nget s.sq.releaseAt x.id else 0) ∧
      at_ ≤ s.regionNow c :=
  ⟨0, 0, (0 : Nat), iss [op 9], skewed (seqs [op 9]) 0, fetched (skewed (seqs [op 9]) 0), by
    unfold Claim.record Claim.untraced; repeat' apply And.intro
    all_goals first | decide +kernel | exact ⟨issBytes (iss [op 9]), by decide +kernel⟩ |
      exact fun p _ h => absurd h (List.not_mem_nil (a := p)) | exact Nat.zero_le _ | exact rfl⟩

theorem test_witness_waitTimeab : ∃ (c : Nat) (i : Nat) (at_ : Nat) (x : Iss) (s0 : State) (s : State),
      Claim.record s0 s c i 9 x ∧
      at_ = x.w 2 + (if (x.w 0).testBit 0 = true then nget s.sq.releaseAt x.id else 0) ∧
      s.regionNow c < at_ :=
  ⟨0, 0, 100, iss [op 9, 0, 100], skewed (seqs [op 9, 0, 100]) 0, fetched (skewed (seqs [op 9, 0, 100]) 0), by
    unfold Claim.record Claim.untraced; repeat' apply And.intro
    all_goals first | decide +kernel | exact ⟨issBytes (iss [op 9, 0, 100]), by decide +kernel⟩ |
      exact fun p _ h => absurd h (List.not_mem_nil (a := p)) | exact Nat.zero_le _ | exact rfl⟩

theorem test_witness_waitTimeb : ∃ (c : Nat) (i : Nat) (w : SlotWait) (s : State),
      c < 48 ∧
      i < 16 ∧
      Claim.untraced s ∧
      s.waitOf (slotKey c i) = some w ∧
      s.fld fSQ_SLOT_WAIT c i = 4 ∧
      w.need ≤ s.regionNow c ∧
      s.actFirst 7 = true :=
  ⟨0, 15, sw 0, skewed { (own.put fSQ_SLOT_WAIT 0 15 4) with sq := { own.sq with waits := [(15, some (sw 0))] } } 0, by
    unfold Claim.untraced; decide +kernel⟩

theorem test_witness_tensor : ∃ (c : Nat) (i : Nat) (x : Iss) (ws : List Word) (ls : List Nat) (t0 : State) (s0 : State) (s : State),
      Claim.record s0 s c i 1 x ∧
      insnOk (x.w 2) = true ∧
      ((s.waitOver x).readPack x = (some (Except.ok ws), t0)) ∧
      s.gangOf c (x.bits 0 0 24) ((x.w 0).testBit 24) = some ls ∧
      s.gangFaulted c ls = false :=
  ⟨0, 0, iss [op 1 + 1, 0, 2 ^ 31], [], [0], (((fetched (present (seqs [op 1 + 1, 0, 2 ^ 31]))).waitOver (iss [op 1 + 1, 0, 2 ^ 31])).readPack (iss [op 1 + 1, 0, 2 ^ 31])).2, present (seqs [op 1 + 1, 0, 2 ^ 31]), fetched (present (seqs [op 1 + 1, 0, 2 ^ 31])), by
    unfold Claim.record Claim.untraced; repeat' apply And.intro
    all_goals first | decide +kernel | exact ⟨issBytes (iss [op 1 + 1, 0, 2 ^ 31]), by decide +kernel⟩ |
      exact fun p _ h => absurd h (List.not_mem_nil (a := p)) | exact Nat.zero_le _ | exact rfl⟩

theorem test_witness_tensorDelivery : ∃ (c : Nat) (d : Tensor) (ls : List Nat) (s : State),
      List.find? (fun t => t.c == c) s.sq.tensors = some d ∧
      d.stream < 65536 ∧
      s.gangOf c (recWord d.record 0 % 2 ^ 24) ((recWord d.record 0).testBit 24) = some ls ∧
      s.gangFaulted c ls = false ∧
      s.gangFree c ls = true ∧
      s.clusterFenced c = false ∧
      s.gangPaused = false ∧
      Claim.untraced s :=
  ⟨0, ten, [0], { present own with sq := { own.sq with tensors := [ten] } }, by
    unfold Claim.untraced; decide +kernel⟩

def callS : State := inPage (present (seqs callR)) 0x1000 hdrB

theorem test_witness_callCore : ∃ (c : Nat) (i : Nat) (x : Iss) (h : List (BitVec 8)) (ls : List Nat) (args : List (Nat × List Word)) (t0 : State) (t1 : State) (s0 : State) (s : State),
      Claim.record s0 s c i 2 x ∧
      x.bits 2 0 40 % 64 = 0 ∧
      x.bits 3 0 40 % 64 = 0 ∧
      x.bits 4 0 32 % 64 = 0 ∧
      ((s.waitOver x).readMem (Rq.seqFetch c x.org) (x.bits 2 0 40) 64 = (Got.ok h, t0)) ∧
      headerOk h = true ∧
      s.levelSupported (leNat (List.take 1 (List.drop 2 h))) = true ∧
      s.gangOf c (x.bits 0 0 24) ((x.w 0).testBit 24) = some ls ∧
      (∀ (l : Nat), l ∈ ls → formOk (((x.bits 3 0 40 + l * x.bits 4 0 32 : Nat) : Int)) 64 = true) ∧
      (State.readArgs x t0 ls = (Got.ok args, t1)) ∧
      List.map (fun p => p.fst) args = ls :=
  ⟨0, 0, iss callR, hdrB, [0], [(0, List.replicate 8 0#64)], (((fetched callS).waitOver (iss callR)).readMem (Rq.seqFetch 0 (iss callR).org) 0x1000 64).2,
    (State.readArgs (iss callR) ((((fetched callS).waitOver (iss callR)).readMem (Rq.seqFetch 0 (iss callR).org) 0x1000 64).2) [0]).2, callS, fetched callS, by
    unfold Claim.record Claim.untraced; repeat' apply And.intro
    all_goals first | decide +kernel | exact ⟨issBytes (iss callR), by decide +kernel⟩ |
      exact fun p _ h => absurd h (List.not_mem_nil (a := p)) | exact Nat.zero_le _ | exact rfl⟩

theorem test_witness_programStart : ∃ (c : Nat) (l : Nat) (x : CoreStart) (s : State),
      c < 48 ∧
      s.slotOf c l < 28 ∧
      List.find? (fun y => y.c == c && y.l == l) s.core.starts = some x ∧
      s.coreReady c l = true ∧
      x.level < 4 :=
  ⟨0, 0, cst, { own with core := { own.core with starts := [cst] } }, by
    decide +kernel⟩

theorem test_witness_dmaRecord : ∃ (c : Nat) (i : Nat) (p : Nat) (pa : Nat) (pb : Nat) (x : Iss) (blk : List (BitVec 8)) (t0 : State) (s0 : State) (s : State),
      Claim.record s0 s c i 3 x ∧
      x.bits 0 0 4 = 0 ∧
      x.bits 5 0 40 % 64 = 0 ∧
      addrForm (x.w 2) < 2 ∧
      addrForm (x.w 3) < 2 ∧
      s.dmaQueue c < 8 ∧
      0 < s.tableFree (Rq.seqDma c) ∧
      ((s.waitOver x).readMem (Rq.seqFetch c x.org) (x.bits 5 0 40) 64 = (Got.ok blk, t0)) ∧
      descOk (wordsOf 8 blk) = true ∧
      blk.length = 64 ∧
      walkCount (wordsOf 8 blk) = 1 ∧
      walkPoint (((x.w 2 : Nat) : Int)) (wordsOf 8 blk) 0 = ↑p ∧
      Claim.oneRun t0 (Rq.seqDma c x.org) (fieldOf 0 32 (x.w 4)) p (x.w 3) pa pb :=
  ⟨0, 0, cm0 + 0x1000, cm0 + 0x1000, cm0 + 0x2000, iss dmaR, List.replicate 64 0,
    (((fetched (seqs dmaR)).waitOver (iss dmaR)).readMem (Rq.seqFetch 0 (iss dmaR).org) 0x3000 64).2, seqs dmaR, fetched (seqs dmaR), by
    unfold Claim.oneRun Claim.record Claim.untraced; repeat' apply And.intro
    all_goals first | decide +kernel | exact ⟨issBytes (iss dmaR), by decide +kernel⟩ |
      exact fun p _ h => absurd h (List.not_mem_nil (a := p)) | exact Nat.zero_le _ | exact rfl⟩

theorem test_witness_launchComplete : ∃ (n : Nat) (x : Launch) (s : State),
      List.find? (fun y => y.id == n) s.sq.launches = some x ∧
      x.stream < 65536 ∧
      x.cores = [] ∧
      (∀ (r : Resp), r ∈ s.net.resps → ¬(r.rq.table = (3, x.c) ∧ r.op = n)) ∧
      Claim.untraced s ∧
      List.find? (fun e => e.fst == x.stream) s.sq.ending = none ∧
      x.waybill < 2 ^ 32 :=
  ⟨1, lch, { own with sq := { own.sq with launches := [lch] } }, by
    unfold Claim.untraced; decide +kernel⟩

theorem test_witness_FalsePredicateLongInstructionHasNoIterations : ∃ (u : Nat) (w : LPayload) (c : Instr × Nat × List Nat) (q : Quad) (s : State),
      c ∈ Claim.longCommands u false w ∧
      lSub (lWord0 c.snd.fst w) ∈ c.snd.snd ∧
      s.issues u (lRegs (lWord0 c.snd.fst w) (lWord1 w)) = true ∧
      s.unitTakes u c.snd.fst true = true ∧
      s.predOk u (lPred (lWord0 c.snd.fst w)) (lNeg (lWord0 c.snd.fst w)) = false ∧
      Claim.alone s u ∧
      q = quadOf (s.quadWords u (lWord1 w)) :=
  ⟨0, BitVec.ofNat 58 (2 ^ 23), (.matmul 0 false (BitVec.ofNat 58 (2 ^ 23)), 0x20, List.range 16), {}, run, by
    unfold Claim.alone; decide +kernel⟩

theorem test_witness_LikeEventsAdvanceCountba : ∃ (e : Ev) (q : LedgerRec) (q' : LedgerRec) (n : Nat) (base : Nat) (s : State) (i : Nat),
      s.fld fMG_LEDGER_STATUS_UNREAD ≠ 0 ∧
      n = (s.fld fMG_LEDGER_READ_READ + s.fld fMG_LEDGER_STATUS_UNREAD + 1023) % 1024 ∧
      s.recAt n = some q ∧
      q.event = e.event ∧
      q.unit = e.unit ∧
      q.waybill = e.waybill ∧
      s.now ≤ q.time + 250000 ∧
      (q' = { time := q.time, waybill := q.waybill, event := q.event, outcome := q.outcome, step := q.step, unit := q.unit, temp := q.temp, volt := q.volt, curr := q.curr, stream := q.stream, lodging := q.lodging, count := min 16777215 (q.count + 1), flags := q.flags, tag := q.tag, detail := q.detail }) ∧
      base = s.fld fMG_LEDGER_MIRROR_BASE ∧
      base % 65536 = 0 ∧
      base < hbmSize - 65536 ∧
      i ≠ n :=
  ⟨⟨1, 0, 0, 0, 0, none, 0, 0, []⟩, lrec, { lrec with count := 2 }, 0, 0, led 0, 1, by
    decide +kernel⟩

theorem test_witness_LikeEventsAdvanceCountbbba : ∃ (e : Ev) (q : LedgerRec) (q' : LedgerRec) (n : Nat) (base : Nat) (s : State),
      s.fld fMG_LEDGER_STATUS_UNREAD ≠ 0 ∧
      n = (s.fld fMG_LEDGER_READ_READ + s.fld fMG_LEDGER_STATUS_UNREAD + 1023) % 1024 ∧
      s.recAt n = some q ∧
      q.event = e.event ∧
      q.unit = e.unit ∧
      q.waybill = e.waybill ∧
      s.now ≤ q.time + 250000 ∧
      (q' = { time := q.time, waybill := q.waybill, event := q.event, outcome := q.outcome, step := q.step, unit := q.unit, temp := q.temp, volt := q.volt, curr := q.curr, stream := q.stream, lodging := q.lodging, count := min 16777215 (q.count + 1), flags := q.flags, tag := q.tag, detail := q.detail }) ∧
      base = s.fld fMG_LEDGER_MIRROR_BASE ∧
      base % 65536 = 0 ∧
      base < hbmSize - 65536 ∧
      base = 0 :=
  ⟨⟨1, 0, 0, 0, 0, none, 0, 0, []⟩, lrec, { lrec with count := 2 }, 0, 0, led 0, by
    decide +kernel⟩

theorem test_witness_LikeEventsAdvanceCountbbbba : ∃ (e : Ev) (q : LedgerRec) (q' : LedgerRec) (n : Nat) (base : Nat) (s : State),
      s.fld fMG_LEDGER_STATUS_UNREAD ≠ 0 ∧
      n = (s.fld fMG_LEDGER_READ_READ + s.fld fMG_LEDGER_STATUS_UNREAD + 1023) % 1024 ∧
      s.recAt n = some q ∧
      q.event = e.event ∧
      q.unit = e.unit ∧
      q.waybill = e.waybill ∧
      s.now ≤ q.time + 250000 ∧
      (q' = { time := q.time, waybill := q.waybill, event := q.event, outcome := q.outcome, step := q.step, unit := q.unit, temp := q.temp, volt := q.volt, curr := q.curr, stream := q.stream, lodging := q.lodging, count := min 16777215 (q.count + 1), flags := q.flags, tag := q.tag, detail := q.detail }) ∧
      base = s.fld fMG_LEDGER_MIRROR_BASE ∧
      base % 65536 = 0 ∧
      base < hbmSize - 65536 ∧
      base ≠ 0 :=
  ⟨⟨1, 0, 0, 0, 0, none, 0, 0, []⟩, lrec, { lrec with count := 2 }, 0, 65536, led 65536, by
    decide +kernel⟩

theorem test_witness_lodgingOpena : ∃ (h : MsgHdr) (q : LodgingReq) (x : Session) (fs : List Nat) (s : State),
      Claim.heard s h x Role.owner none ∧
      s.mg.acts = [] ∧
      q.l < 8 ∧
      q.mode < 2 ∧
      s.lodgingOpen? q.l = false ∧
      s.fld fMG_LEDGER_STATUS_UNREAD = 0 ∧
      s.unitsFree q = true ∧
      s.rangesFree q = true ∧
      fs = s.findFrames (s.wishOf q q.mode) q.frames ∧
      q.frames ≤ fs.length :=
  ⟨hd, lreq 1 0, ses 0, [], withSes rdy 0, by
    unfold Claim.heard; decide +kernel⟩

theorem test_witness_lodgingOpenb : ∃ (h : MsgHdr) (q : LodgingReq) (x : Session) (_fs : List Nat) (s : State),
      Claim.heard s h x Role.owner none ∧
      s.mg.acts = [] ∧
      q.l < 8 ∧
      q.mode < 2 ∧
      s.lodgingOpen? q.l = false ∧
      s.fld fMG_LEDGER_STATUS_UNREAD = 0 ∧
      s.unitsFree q = false :=
  ⟨hd, lreq 1 0, ses 0, [], withSes (own.put fGL_LODGING_CFG_OPEN 0 0 0) 0, by
    unfold Claim.heard; decide +kernel⟩

theorem test_witness_lodgingChangea : ∃ (h : MsgHdr) (q : LodgingReq) (x : Session) (s : State) (fs : List Nat),
      s.mg.acts = [] ∧
      q.l < 8 ∧
      s.lodgingOpen? q.l = true ∧
      Claim.heard s h x Role.owner none ∧
      s.unitsFree q = true ∧
      fs = s.findFrames (s.wishOf q (s.fld fGL_LODGING_CFG_MODE 0 q.l)) q.frames ∧
      q.frames ≤ fs.length ∧
      s.fld fMG_LEDGER_STATUS_UNREAD = 0 :=
  ⟨hd, lreq 2 0, ses 0, withSes own 0, [], by
    unfold Claim.heard; decide +kernel⟩

theorem test_witness_lodgingChangeba : ∃ (h : MsgHdr) (q : LodgingReq) (x : Session) (s : State),
      s.mg.acts = [] ∧
      q.l < 8 ∧
      s.lodgingOpen? q.l = true ∧
      Claim.heard s h x Role.owner none ∧
      q.clusters ≠ 0 ∧
      q.clusters < 2 ^ 48 ∧
      (∀ (c : Nat), c < 48 → q.clusters.testBit c = true → s.ownerOf c = some q.l) :=
  ⟨hd, lreq 1 0, ses 0, withSes own 0, by
    unfold Claim.heard; decide +kernel⟩

theorem test_witness_lodgingChangebbb : ∃ (h : MsgHdr) (q : LodgingReq) (x : Session) (s : State) (_scrub : Bool),
      s.mg.acts = [] ∧
      q.l < 8 ∧
      s.lodgingOpen? q.l = true ∧
      Claim.heard s h x Role.either (some q.l) :=
  ⟨hd, lreq 0 0, ses 1, withSes own 1, true, by
    unfold Claim.heard; decide +kernel⟩

theorem test_witness_pagesa : ∃ (h : MsgHdr) (l : Nat) (es : List PageEntry) (x : Session) (s : State),
      Claim.heard s h x Role.host (some l) ∧
      s.mg.acts = [] ∧
      es ≠ [] ∧
      es.length ≤ 160 ∧
      (List.map (fun e => e.page) es).Nodup ∧
      (∀ (e : PageEntry), e ∈ es → s.pageOk l e = true) ∧
      (∀ (e : PageEntry), e ∈ es → s.pteAddr l e.page + 8 ≤ hbmSize) :=
  ⟨hd, 0, [⟨1, some 5, true, false⟩, ⟨0, none, false, false⟩], ses 1, pages, by
    unfold Claim.heard; decide +kernel⟩

theorem test_witness_pagesb : ∃ (h : MsgHdr) (l : Nat) (fs : List Nat) (x : Session) (s : State),
      Claim.heard s h x Role.host (some l) ∧
      s.mg.acts = [] ∧
      fs ≠ [] ∧
      (∀ (f : Nat), f ∈ fs → nget s.mg.frames f = 1 + l) :=
  ⟨hd, 0, [5], ses 1, pages, by
    unfold Claim.heard; decide +kernel⟩

theorem test_witness_CoreFaultsTakeTheFaultRegistersa : ∃ (u : Nat) (x : Payload) (s : State),
      u < 1344 ∧
      s.fld fCO_FAULT_EVENT u = 0 ∧
      s.fld fGL_STREAM7_STATE 0 (nget s.core.stream u) ≠ 3 ∧
      nget s.core.stream u < 65536 ∧
      s.fld fMG_LEDGER_STATUS_UNREAD = 0 ∧
      s.fld fMG_LEDGER_STATUS_WRITTEN + 1 < 2 ^ 32 ∧
      Claim.executes s u x [xA x] ∧
      xFn x = 6 :=
  ⟨0, pay 0 1 0 6, run, by
    unfold Claim.executes; decide +kernel⟩

theorem test_witness_CoreFaultsTakeTheFaultRegistersba : ∃ (u : Nat) (_x : Payload) (s : State) (word : BitVec 32),
      u < 1344 ∧
      s.fld fCO_FAULT_EVENT u = 0 ∧
      s.fld fGL_STREAM7_STATE 0 (nget s.core.stream u) ≠ 3 ∧
      nget s.core.stream u < 65536 ∧
      s.fld fMG_LEDGER_STATUS_UNREAD = 0 ∧
      s.fld fMG_LEDGER_STATUS_WRITTEN + 1 < 2 ^ 32 ∧
      s.issues u [] = true ∧
      reservedOpc (word.toNat / 2 ^ 26) = true :=
  ⟨0, 0, run, 0xC8000000#32, by
    decide +kernel⟩

theorem test_witness_CoreFaultsTakeTheFaultRegistersbba : ∃ (u : Nat) (x : Payload) (s : State),
      u < 1344 ∧
      s.fld fCO_FAULT_EVENT u = 0 ∧
      s.fld fGL_STREAM7_STATE 0 (nget s.core.stream u) ≠ 3 ∧
      nget s.core.stream u < 65536 ∧
      s.fld fMG_LEDGER_STATUS_UNREAD = 0 ∧
      s.fld fMG_LEDGER_STATUS_WRITTEN + 1 < 2 ^ 32 ∧
      (Claim.executes s u x [xD x, xA x, xB x]) ∧
      24 < xFn x :=
  ⟨0, pay 1 2 3 25, run, by
    unfold Claim.executes; decide +kernel⟩

theorem test_witness_CoreFaultsTakeTheFaultRegistersbbba : ∃ (u : Nat) (x : Payload) (s : State),
      u < 1344 ∧
      s.fld fCO_FAULT_EVENT u = 0 ∧
      s.fld fGL_STREAM7_STATE 0 (nget s.core.stream u) ≠ 3 ∧
      nget s.core.stream u < 65536 ∧
      s.fld fMG_LEDGER_STATUS_UNREAD = 0 ∧
      s.fld fMG_LEDGER_STATUS_WRITTEN + 1 < 2 ^ 32 ∧
      (Claim.executes s u x [xA x, xB x]) ∧
      (12 ≤ xFn x ∨ 8 ≤ xD x) :=
  ⟨0, pay 8 2 3 0, run, by
    unfold Claim.executes; decide +kernel⟩

theorem test_witness_CoreFaultsTakeTheFaultRegistersbbbb : ∃ (u : Nat) (x : Payload) (s : State),
      u < 1344 ∧
      s.fld fCO_FAULT_EVENT u = 0 ∧
      s.fld fGL_STREAM7_STATE 0 (nget s.core.stream u) ≠ 3 ∧
      nget s.core.stream u < 65536 ∧
      s.fld fMG_LEDGER_STATUS_UNREAD = 0 ∧
      s.fld fMG_LEDGER_STATUS_WRITTEN + 1 < 2 ^ 32 ∧
      (Claim.executes s u x [xD x, xA x]) ∧
      6 < xFn x :=
  ⟨0, pay 0 1 0 7, run, by
    unfold Claim.executes; decide +kernel⟩

theorem test_witness_smbusabbb : ∃ (cmd : Nat) (s : State) (i : Instr),
      s.pins.vstby = true ∧
      s.pins.smbusBusy = false ∧
      (i ∈ [Instr.smbusReadByte cmd true, Instr.smbusReadWord cmd true, Instr.smbusWrite cmd true]) :=
  ⟨0, own, .smbusReadByte 0 true, by
    decide +kernel⟩

theorem test_witness_smbusba : ∃ (s : State),
      s.pins.smbusBusy = true :=
  ⟨{ own with pins := { own.pins with smbusBusy := true } }, by
    decide +kernel⟩

theorem test_witness_jtagbbbbbba : ∃ (_cells : Nat) (s : State),
      s.pins.vstby = true ∧
      s.pins.pwrGood = false :=
  ⟨0, own, by
    decide +kernel⟩

theorem test_witness_jtagbbbbbbb : ∃ (_cells : Nat) (s : State),
      s.pins.vstby = true ∧
      s.pins.pwrGood = true :=
  ⟨0, powered, by
    decide +kernel⟩

theorem test_witness_startSequence : ∃ (s : State),
      s.boot.due = true ∧
      s.pins.vstby = true ∧
      s.pins.resetN = true ∧
      s.boot.journalNext < 32 :=
  ⟨State.reset, by
    decide +kernel⟩

theorem test_witness_stepCompletea : ∃ (k : Nat) (r : StepReport) (s : State),
      s.stepRuns k = true ∧
      s.boot.alt = false ∧
      s.boot.instruct = none ∧
      s.boot.journalNext < 32 ∧
      r.ok = false :=
  ⟨4, ⟨false, 0, [], 0, [], []⟩, atStep 4, by
    decide +kernel⟩

theorem test_witness_stepCompleteba : ∃ (k : Nat) (r : StepReport) (s : State),
      s.stepRuns k = true ∧
      s.boot.alt = false ∧
      s.boot.instruct = none ∧
      s.boot.journalNext < 32 ∧
      r.ok = true ∧
      (k ∈ [2, 4, 6, 8, 9, 10, 11, 12, 13]) :=
  ⟨13, ⟨true, 0, [], 0, [], []⟩, atStep 13, by
    decide +kernel⟩

theorem test_witness_stepCompletebbba : ∃ (k : Nat) (r : StepReport) (s : State),
      s.stepRuns k = true ∧
      s.boot.alt = false ∧
      s.boot.instruct = none ∧
      s.boot.journalNext < 32 ∧
      r.ok = true ∧
      k = 3 ∧
      s.imageFails s.boot.image ≠ 0 :=
  ⟨3, ⟨true, 0, [], 0, [], []⟩, atStep 3, by
    decide +kernel⟩

theorem test_witness_stepCompletebbbba : ∃ (k : Nat) (r : StepReport) (s : State),
      s.stepRuns k = true ∧
      s.boot.alt = false ∧
      s.boot.instruct = none ∧
      s.boot.journalNext < 32 ∧
      r.ok = true ∧
      k = 7 ∧
      s.topologyFails s.defectUnion r.links r.routers = true :=
  ⟨7, ⟨true, 0, [], 0, [138, 139], []⟩, atStep 7, by
    decide +kernel⟩

theorem test_witness_stepCompletebbbbb : ∃ (k : Nat) (r : StepReport) (s : State),
      s.stepRuns k = true ∧
      s.boot.alt = false ∧
      s.boot.instruct = none ∧
      s.boot.journalNext < 32 ∧
      r.ok = true ∧
      k = 14 :=
  ⟨14, ⟨true, 0, [], 0, [], []⟩, atStep 14, by
    decide +kernel⟩

theorem test_witness_bootInstructa : ∃ (what : Nat) (s : State),
      s.mg.ctrl = 0 ∧
      s.boot.running = true ∧
      s.fld fMG_START_STATUS_STATE = 2 ∧
      what < 2 ∧
      s.boot.journalNext < 32 :=
  ⟨1, boots, by
    decide +kernel⟩

theorem test_witness_bootInstructb : ∃ (what : Nat) (s : State),
      s.mg.ctrl = 0 ∧
      s.boot.running = true ∧
      s.fld fMG_START_STATUS_STATE = 2 ∧
      what = 2 :=
  ⟨2, boots, by
    decide +kernel⟩

theorem test_witness_burnAndClearaa : ∃ (rq : Rq) (s : State),
      s.csRefusal rq (mgAddr 8192) true = none ∧
      s.ready = true ∧
      s.fld fMG_LEDGER_STATUS_UNREAD = 0 ∧
      s.otp.gens.length < 4 :=
  ⟨.firmware, rdy, by
    decide +kernel⟩

theorem test_witness_burnAndClearabb : ∃ (rq : Rq) (s : State),
      s.csRefusal rq (mgAddr 8192) true = none ∧
      s.ready = true ∧
      s.fld fMG_LEDGER_STATUS_UNREAD = 0 ∧
      4 ≤ s.otp.gens.length :=
  ⟨.firmware, { rdy with otp := { rdy.otp with gens := List.replicate 4 ⟨[], 0, false, true⟩ } }, by
    decide +kernel⟩

def code128 : List (BitVec 8) := List.replicate 128 0
def rsp (rq : Rq) : Resp := ⟨4, rq, 1, 0, false, 0, 1, none, none⟩
def withResp (s : State) (r : Resp) : State := { s with net := { s.net with resps := [r] } }
def lat : Latch := ⟨0, 0, 0, 0, 0, 0, [], [], [], [], 3, false, 0, 0, 0, 0⟩
def lop (steps : List StepRes) : LongOp := ⟨1, 0, 0x20, lat, steps, 0, none, none, 0, 0, 0, {}, none, 0, 0⟩
def withOp (s : State) (o : LongOp) : State := { s with core := { s.core with ops := [o] } }
def stp : StepRes := ⟨[(196604, 7#32)], 4, {}, none⟩
def swept : State := at1 { rdy with net := { rdy.net with sweeps := [⟨10, 63⟩] } } 25010
def smw (n : Nat) : SemWait := ⟨5, false, 0, n, none⟩
def rjob : List Nat := [0, cm0 + 0x1000, cm0 + 0x2000, cm0 + 0x3000, 0, 4 * 2 ^ 48, 9 * 2 ^ 32]
def rjobB : List (BitVec 8) := wordBytes (recOf rjob)
/-- The same of one token. -/
def rjobT : List (BitVec 8) := wordBytes (recOf (rjob.set 5 (4 * 2 ^ 48 + 1)))
def rjPre : State := { paged own with rt := { queue := [(0, 0)] } }
def rjSt : State := inPage rjPre 0 rjobB
def rjT : State := rjSt.takeJob 0 0
def rjEnd : Got (Option (List (BitVec 8) × Nat)) × State := (rjT.readMem (.router 0) 0 64).2.routePasses 0 ⟨wordsOf 8 rjobB⟩ none
def rjHdr : List (BitVec 8) := match rjEnd.1 with
  | .ok (some p) => p.1
  | _ => []
def rj (mism : Nat) : RouteJob := ⟨0, 0, wordsOf 8 rjobB, mism, [5], 0, false⟩
def withJob (s : State) (j : RouteJob) : State := { s with rt := { s.rt with jobs := [j] } }
def ranged (id : Nat) (st : Nat) : State :=
  puts own [(fGL_STREAM_RANGE_FIRST, 0, 0, id), (fGL_STREAM_RANGE_COUNT, 0, 0, 1), (fGL_STREAM7_STATE, 0, id, st)]
def stopSt : State := { seqs [op 15] with sq := { (seqs [op 15]).sq with launches := [⟨1, 0, 0, 0, 3, [], none⟩] } }
def creq : ConnReq := ⟨1, 0, 0, 0, 0, 5, 0, 0, 1024, 0, 0, 1, 0x1000, 4, 0x4000, 4, 1024, 0x8000, 0, 0, 10, 3, 3⟩
def con (works : List Work) : Conn := ⟨0, creq, 2, 0, 0, 0, works, 0, 0, 0, 0, 0, 0, none, 0, 1, false, 0⟩
def withCon (s : State) (x : Conn) : State :=
  let s : State := { s with ck := { s.ck with conns := [x] } }
  puts s [(fET_CONN_POST_STATE, 0, connIx 0 1, 1), (fSC_SLOT0_STATE, 0, 0, 1), (fSC_SLOT0_STATE, 0, 1, 1)]
/-- Words of a work request of connection 1: operation, local address, remote address, length. -/
def wreq (o len : Nat) : List Nat := [o * 2 ^ 56 + 1, 0, 0x2000, 0, len, 0, 0, 0]
def wrk (o len packets : Nat) : Work := ⟨(wreq o len).map (BitVec.ofNat 64), 0, packets, 0, false⟩
def ring (o len : Nat) : State :=
  inPage ((withCon (paged own) (con [])).put fET_CONN_POST_TAIL 0 (connIx 0 1) 1) 0x1000 (wordBytes (wreq o len))
def sent (o len : Nat) : State := withCon (paged own) (con [wrk o len 1])
def pkt (psn : Nat) (bs : List (BitVec 8)) : Pkt := ⟨0, 1, psn, true, true, 0, 0x2000, bs.length, bs, 0, true, true, false⟩
def con1 (o len : Nat) : Conn := { con [wrk o len 1] with sendPsn := 1 }
def conR : Conn := { con [wrk 3 2 1] with retries := 3 }
def sent1 (o len : Nat) : State := withCon (paged own) (con1 o len)

def icS : State := paged run

theorem test_witness_icacheMiss : ∃ (u : Nat) (line : Nat) (b0 : List (BitVec 8)) (b1 : List (BitVec 8)) (t0 : State) (t1 : State) (s : State),
      s.fld fCO_CORE_STATUS_STATE u = 1 ∧
      line = 128 * (s.pc u / 128) ∧
      s.icHas u line = false ∧
      s.icHas u (line + 128) = false ∧
      s.ms.upsets = [] ∧
      (List.filter (fun l => l.u == u) s.core.icache).length < 4 ∧
      (s.fetchMem (Rq.fetch u) line 128 = (Got.ok b0, t0)) ∧
      ((t0.icPlace u line b0).fetchMem (Rq.fetch u) (line + 128) 128 = (Got.ok b1, t1)) :=
  ⟨0, 0, code128, code128, (icS.fetchMem (Rq.fetch 0) 0 128).2,
    (((icS.fetchMem (Rq.fetch 0) 0 128).2.icPlace 0 0 code128).fetchMem (Rq.fetch 0) 128 128).2, icS, by
    decide +kernel⟩

/-- Output 2 of router 3, on the way from cluster 0 to cluster 47, is frozen. -/
def stopped3 (s : State) : State := { s with net := { s.net with frozen := [(ostlerAt 0 3 2, 1)] } }
def far : Nat := 47 * 256 + 255

theorem test_witness_responseArrivala : ∃ (id : Nat) (_addr : Nat) (n : Nat) (r : Resp) (s : State),
      n = List.findIdx (fun x => x.id == id) s.net.resps ∧
      s.net.resps[n]? = some r ∧
      (s.respTravel n r).fst = 0 :=
  ⟨4, 0, 0, { rsp (.core 1343) with src := some (0, 0) }, withResp run { rsp (.core 1343) with src := some (0, 0) }, by
    decide +kernel⟩

theorem test_witness_responseArrivalb : ∃ (id : Nat) (_addr : Nat) (n : Nat) (r : Resp) (s : State),
      n = List.findIdx (fun x => x.id == id) s.net.resps ∧
      s.net.resps[n]? = some r ∧
      (s.respTravel n r).fst = 2 :=
  ⟨4, 0, 0, { rsp (.core 1343) with src := some (0, 0) }, stopped3 (withResp run { rsp (.core 1343) with src := some (0, 0) }), by
    decide +kernel⟩

theorem test_witness_stepCommit : ∃ (u : Nat) (op : Nat) (o : LongOp) (r : StepRes) (rest : List StepRes) (s : State),
      op ≠ 0 ∧
      s.opAt op = some o ∧
      o.u = u ∧
      o.steps = r :: rest ∧
      o.fault = none ∧
      s.commits u = true ∧
      s.firstOnPath o = true ∧
      nget s.core.inject u = 0 ∧
      s.integ.replaying = [] ∧
      s.integ.bursts = [] ∧
      (List.map Prod.fst r.pm).Nodup ∧
      (∀ (p : Nat × BitVec 32), p ∈ r.pm → p.fst % 4 = 0 ∧ p.fst < 196608) :=
  ⟨0, 1, lop [stp, stp], stp, [stp], withOp run (lop [stp, stp]), by
    decide +kernel⟩

theorem test_witness_longComplete : ∃ (op : Nat) (o : LongOp) (s : State),
      s.opAt op = some o ∧
      opPending o = false ∧
      o.writes = 0 ∧
      s.commits o.u = true ∧
      (matrixOpc o.opc = true → ∀ (x : LongOp), x ∈ s.matrixPending o.u → o.id < x.id) ∧
      s.core.heldSigs = [] ∧
      nget s.core.wait o.u ≠ 2 :=
  ⟨1, lop [], withOp run (lop []), by
    decide +kernel⟩

theorem test_witness_stepReplay : ∃ (u : Nat) (event : Nat) (_inst : Nat) (_dev : Nat) (s : State),
      u < 1344 ∧
      (event ∈ [4105, 4106, 4107, 4108, 4109]) ∧
      s.fld fCO_CORE_STATUS_STATE u = 1 ∧
      nget s.core.inject u = 0 ∧
      s.integ.replaying = [] ∧
      s.fld fMG_LEDGER_STATUS_UNREAD = 0 :=
  ⟨0, 4109, 0, 0, run, by
    decide +kernel⟩

theorem test_witness_longReplay : ∃ (u : Nat) (op : Nat) (event : Nat) (_inst : Nat) (dev : Nat) (o : LongOp) (s : State),
      op ≠ 0 ∧
      s.opAt op = some o ∧
      o.u = u ∧
      opPending o = true ∧
      s.fld fCO_CORE_STATUS_STATE u ≠ 5 ∧
      event ∈ stepEvents ∧
      detectable o event dev = true ∧
      nget s.core.inject u = 0 ∧
      s.integ.replaying = [] ∧
      s.fld fMG_LEDGER_MIRROR_BASE = 0 ∧
      s.fld fMG_LEDGER_STATUS_UNREAD = 0 :=
  ⟨0, 1, 0x1002, 0, 6, lop [{ stp with tally := some 5 }], withOp run (lop [{ stp with tally := some 5 }]), by
    decide +kernel⟩

theorem test_witness_withinWindow : ∃ (u : Nat) (op : Nat) (_inst : Nat) (dev : Nat) (o : LongOp) (s : State),
      op ≠ 0 ∧
      s.opAt op = some o ∧
      nget s.core.inject u = 0 ∧
      (∀ (r : StepRes) (l : Nat), r ∈ o.steps → r.tally = some l → dev ≤ l) :=
  ⟨0, 1, 0, 5, lop [{ stp with tally := some 5 }], withOp run (lop [{ stp with tally := some 5 }]), by
    refine ⟨(by decide +kernel), (by decide +kernel), (by decide +kernel), fun r l h e => ?_⟩
    rw [List.mem_singleton.1 h] at e
    exact Nat.le_of_eq (Option.some.inj e)⟩

theorem test_witness_meTesta : ∃ (rq : Rq) (u : Nat) (code : Nat) (s : State),
      u < 1344 ∧
      s.csRefusal rq (coAddr u 1288) true = none ∧
      code % 4 ≠ 0 :=
  ⟨.firmware, 1343, 3, run, by
    decide +kernel⟩

theorem test_witness_topoSwitcha : ∃ (rq : Rq) (s : State),
      s.csRefusal rq (nwAddr 528) true = none ∧
      s.is fNW_TOPO_CTRL_PENDING = false :=
  ⟨.firmware, rdy, by
    decide +kernel⟩

theorem test_witness_topoSwitchb : ∃ (n : Nat) (s : State),
      s.net.switchAt = some n ∧
      n ≤ s.now ∧
      s.actFirst 2 = true ∧
      s.fld fMG_LEDGER_STATUS_UNREAD = 0 :=
  ⟨5, at1 { rdy with net := { rdy.net with switchAt := some 5 } } 5, by
    decide +kernel⟩

theorem test_witness_sweepa : ∃ (rq : Rq) (r : Nat) (s : State),
      s.csRefusal rq (nwAddr 560) true = none ∧
      r < 64 :=
  ⟨.firmware, 63, rdy, by
    decide +kernel⟩

theorem test_witness_sweepb : ∃ (w : Sweep) (reads : List (Rq × Nat × Nat)) (s : State),
      List.find? (fun w => decide (w.start + 25000 ≤ s.now)) s.net.sweeps = some w ∧
      s.net.flits = [] ∧
      s.net.reds = [] ∧
      (List.map Resp.id s.net.resps).Nodup ∧
      (∀ (x : Resp), x ∈ s.net.resps → x.issued < w.start → ∃ l p, x.rq = Rq.host l p) ∧
      (∀ (x : Rq × Nat × Nat), x ∈ reads → ∃ l p, x.fst = Rq.host l p) :=
  ⟨⟨10, 63⟩, [(.host 1 2, 0, 0)], { swept with net := { swept.net with resps := [rsp (.host 0 3)] } }, by
    exact ⟨(by decide +kernel), (by decide +kernel), (by decide +kernel), (by decide +kernel), fun x h _ => ⟨0, 3, (List.mem_singleton.1 h) ▸ rfl⟩,
      fun x h => ⟨1, 2, (List.mem_singleton.1 h) ▸ rfl⟩⟩⟩

theorem test_witness_drainEnd : ∃ (field : Nat) (d : Nat × Nat) (s : State),
      field < 6 ∧
      List.find? (fun d => d.fst == field) s.net.draining = some d ∧
      s.fieldBusy field = false :=
  ⟨5, (5, 9), { run with net := { run.net with draining := [(5, 9)] } }, by
    decide +kernel⟩

/-- A tile that port 31 of the controller-space ostler has held too long. -/
def hldg : Holding := ⟨.host 0 0, 0, 0, 0, 0⟩
def holder : State := at1 (run.setOstler (ostlerAt 4 0 31) { holds := [hldg] }) 100000000

theorem test_witness_watchdogsa : ∃ (kind : Nat) (unit : Nat) (index : Nat) (h : Holding) (s : State),
      s.fld fMG_LEDGER_STATUS_UNREAD = 0 ∧
      (kind = 2 ∨ kind = 4) ∧
      s.heldTooLong kind unit index = some h :=
  ⟨4, 0, 31, hldg, holder, by
    decide +kernel⟩

def starves : State := at1 (run.setOstler (ostlerAt 0 47 1) { parked := [⟨2, 0, 0, none, 0⟩] }) 100000000

theorem test_witness_watchdogsb : ∃ (r : Nat) (port : Nat) (i : Nat) (other : Nat) (s : State),
      r < 48 ∧
      (linkAt r port = some (i, other)) ∧
      s.inService i = true ∧
      s.fld fGL_TOPOLOGY_STATE 0 i ≠ 4 ∧
      s.starved r port = true ∧
      s.watchdog 0 ≤ 6 * (s.now - (s.ostler (ostlerAt 0 r port)).grantAt) ∧
      s.fld fMG_LEDGER_STATUS_UNREAD = 0 :=
  ⟨47, 1, 81, unitRouter 39 3, starves, by
    decide +kernel⟩

theorem test_witness_semWriteba : ∃ (rq : Rq) (c : Nat) (k : Nat) (v : Nat) (s : State),
      c < 48 ∧
      k < 256 ∧
      v < 2 ^ 32 ∧
      s.regGate rq c = none ∧
      Claim.noWaiter s c k ∧
      s.fld fCL_SEM_COUNT c k + v < 2 ^ 32 :=
  ⟨.firmware, 47, 255, 2 ^ 32 - 1, run, by
    unfold Claim.noWaiter; decide +kernel⟩

theorem test_witness_semWriteServes : ∃ (rq : Rq) (c : Nat) (k : Nat) (v : Nat) (w : SemWait) (s : State),
      c < 48 ∧
      k < 256 ∧
      v < 2 ^ 32 ∧
      s.regGate rq c = none ∧
      s.ms.semQueue = [w] ∧
      w.sem = 256 * c + k ∧
      w.amount ≤ v :=
  ⟨.firmware, 0, 5, 3, smw 3, { run with ms := { run.ms with semQueue := [smw 3] } }, by
    decide +kernel⟩

theorem test_witness_semOverflow : ∃ (rq : Rq) (c : Nat) (k : Nat) (v : Nat) (s : State),
      c < 48 ∧
      k < 256 ∧
      v < 2 ^ 32 ∧
      s.regGate rq c = none ∧
      Claim.noWaiter s c k ∧
      2 ^ 32 ≤ s.fld fCL_SEM_COUNT c k + v :=
  ⟨.firmware, 47, 255, 2 ^ 32 - 1, run.put fCL_SEM_COUNT 47 255 1, by
    unfold Claim.noWaiter; decide +kernel⟩

theorem test_witness_NoCommandTouchesTheQueuea : ∃ (c : Instr) (s : State) (t : State),
      exec c s = Host.Outcome.next t :=
  ⟨.alu 0 (pay 1 2 3 0), run, _, by
    rfl⟩

theorem test_witness_NoCommandTouchesTheQueueb : ∃ (s : State) (t : State),
      step s = Host.Outcome.next t :=
  ⟨run, _, by
    rfl⟩

theorem test_witness_routeSubmit : ∃ (rq : Rq) (c : Nat) (desc : Nat) (s : State),
      c < 48 ∧
      desc < 2 ^ 48 ∧
      s.csRefusal rq (clAddr c 12288) true = none ∧
      s.is fCL_ROUTE_STATUS_FENCED c = false ∧
      s.fld fCL_ROUTE_STATUS_QUEUED c < 4 :=
  ⟨.firmware, 47, 2 ^ 48 - 1, run, by
    decide +kernel⟩

theorem test_witness_routingJobStarta : ∃ (c : Nat) (desc : Nat) (bad : Option Nat) (bs : List (BitVec 8)) (hdr : List (BitVec 8)) (pairs : Nat) (t0 : State) (u : State) (s : State),
      c < 48 ∧
      (List.find? (fun q => q.fst == c) s.rt.queue = some (c, desc)) ∧
      s.is fCL_ROUTE_STATUS_BUSY c = false ∧
      s.routerRuns c = true ∧
      desc % 64 = 0 ∧
      ((s.takeJob c desc).readMem (Rq.router c) desc 64 = (Got.ok bs, t0)) ∧
      (Desc.mk (wordsOf 8 bs)).ok = true ∧
      u.rt = (s.takeJob c desc).rt ∧
      u.regs = (s.takeJob c desc).regs ∧
      (t0.routePasses c (Desc.mk (wordsOf 8 bs)) bad = (Got.ok (some (hdr, pairs)), u)) :=
  ⟨0, 0, none, rjobB, rjHdr, 0, (rjT.readMem (.router 0) 0 64).2, rjEnd.2, rjSt, by
    decide +kernel⟩

def rjTT : State := (inPage rjPre 0 rjobT).takeJob 0 0
def rjBad : State := ((rjTT.readMem (.router 0) 0 64).2.routePasses 0 ⟨wordsOf 8 rjobT⟩ (some 0)).2

theorem test_witness_routingJobStartb : ∃ (c : Nat) (desc : Nat) (bad : Option Nat) (bs : List (BitVec 8)) (_hdr : List (BitVec 8)) (_pairs : Nat) (t0 : State) (u : State) (s : State),
      c < 48 ∧
      (List.find? (fun q => q.fst == c) s.rt.queue = some (c, desc)) ∧
      s.is fCL_ROUTE_STATUS_BUSY c = false ∧
      s.routerRuns c = true ∧
      desc % 64 = 0 ∧
      ((s.takeJob c desc).readMem (Rq.router c) desc 64 = (Got.ok bs, t0)) ∧
      (Desc.mk (wordsOf 8 bs)).ok = true ∧
      u.rt = (s.takeJob c desc).rt ∧
      u.regs = (s.takeJob c desc).regs ∧
      (t0.routePasses c (Desc.mk (wordsOf 8 bs)) bad = (Got.ok none, u)) ∧
      u.fld fMG_LEDGER_STATUS_UNREAD = 0 :=
  ⟨0, 0, some 0, rjobT, [], 0, (rjTT.readMem (.router 0) 0 64).2, rjBad, inPage rjPre 0 rjobT, by
    decide +kernel⟩

theorem test_witness_routeSelectsbba : ∃ (k : Nat) (scores : List Val) (e : Nat),
      e ∈ selectExperts k scores :=
  ⟨8, [.fin false 1 0], 0, by
    decide +kernel⟩

theorem test_witness_routeSelectsbbb : ∃ (k : Nat) (scores : List Val) (e : Nat) (v : Val),
      (selectExperts k scores).length < k ∧
      scores[e]? = some v ∧
      v ≠ Val.nan ∧
      v ≠ Val.inf true :=
  ⟨2, [.fin false 1 0], 0, .fin false 1 0, by
    decide +kernel⟩

def rjU : State :=
  (State.routeWrites 0 ⟨(rj 0).words⟩ (withJob own (rj 0)) [(cm0 + 0x1004, [5]), (cm0 + 0x1000, leBytes 4 1)]).2
/-- A job whose replay has differed once, and what its second difference leaves. -/
def rjR : RouteJob := { rj 1 with redo := true, words := wordsOf 8 rjobT }
def rjP : State := (withJob (paged own) rjR).routePasses 0 ⟨rjR.words⟩ (some 0) |>.2
def rjW : State := (rjP.stick fCL_ROUTE_STATUS_CMP_FAIL 0).routeEvent 0 4103 3 (Desc.mk rjR.words).way (Desc.mk rjR.words).list
def rjV : State := (rjW.writeAll (Rq.router 0 (Desc.mk rjR.words).org) (Desc.mk rjR.words).list (leBytes 4 2)).2

theorem test_witness_routingJobEnda : ∃ (c : Nat) (_bad : Option Nat) (j : RouteJob) (u : State) (_v : State) (s : State),
      c < 48 ∧
      List.find? (fun x => x.c == c) s.rt.jobs = some j ∧
      s.routerRuns c = true ∧
      j.redo = false ∧
      j.pairs < 2 ^ 17 ∧
      u.still =   { s.still with mem := u.mem } ∧
      (State.routeWrites c (Desc.mk (j.words)) s [((Desc.mk (j.words)).list + 4, j.header), ((Desc.mk (j.words)).list, leBytes 4 1)] = (Got.ok (), u)) :=
  ⟨0, none, rj 0, rjU, run, withJob own (rj 0), by
    decide +kernel⟩

theorem test_witness_routingJobEndb : ∃ (c : Nat) (bad : Option Nat) (j : RouteJob) (u : State) (v : State) (s : State) (w : State),
      c < 48 ∧
      List.find? (fun x => x.c == c) s.rt.jobs = some j ∧
      s.routerRuns c = true ∧
      j.redo = true ∧
      j.mism ≠ 0 ∧
      (s.routePasses c (Desc.mk (j.words)) bad = (Got.ok none, u)) ∧
      u.fld fMG_LEDGER_STATUS_UNREAD = 0 ∧
      w = (u.stick fCL_ROUTE_STATUS_CMP_FAIL c).routeEvent c 4103 3 (Desc.mk (j.words)).way (Desc.mk (j.words)).list ∧
      (w.writeAll (Rq.router c (Desc.mk (j.words)).org) (Desc.mk (j.words)).list (leBytes 4 2) = (Got.ok (), v)) ∧
      v.still =   { w.still with mem := v.mem } :=
  ⟨0, some 0, rjR, rjP, rjV, withJob (paged own) rjR, rjW, by
    decide +kernel⟩

theorem test_witness_streamArm : ∃ (rq : Rq) (id : Nat) (l : Nat) (w : Word) (s : State),
      id < 65536 ∧
      s.csRefusal rq (entryAddr id 7) true = none ∧
      (¬s.fld fGL_STREAM7_STATE 0 id ∈ [1, 2, 3]) ∧
      BitVec.toNat w % 8 = 1 ∧
      s.rangeOwner id = some l ∧
      s.owns l (fieldOf 48 6 (BitVec.toNat w)) = true ∧
      s.fld fGL_STREAM2_BASE 0 id % 64 = 0 ∧
      ((BitVec.toNat w).testBit 17 = true → s.fld fGL_STREAM3_POSITION 0 id % 64 = 0) ∧
      (2 ≤ fieldOf 8 2 (BitVec.toNat w) → s.fld fGL_STREAM1_FLAG_CMP 0 id ≠ 3 ∧ s.owns l (s.fld fGL_STREAM1_FLAG_CLUSTER 0 id) = true) :=
  ⟨.firmware, 65535, 0, 0x20301#64, ranged 65535 0, by
    decide +kernel⟩

theorem test_witness_streamFreea : ∃ (rq : Rq) (id : Nat) (w : Word) (s : State),
      id < 65536 ∧
      s.csRefusal rq (entryAddr id 7) true = none ∧
      BitVec.toNat w % 8 = 0 ∧
      s.fld fGL_STREAM7_STATE 0 id = 1 :=
  ⟨.firmware, 65535, 0, ranged 65535 1, by
    decide +kernel⟩

theorem test_witness_streamFreeb : ∃ (rq : Rq) (id : Nat) (w : Word) (s : State),
      id < 65536 ∧
      s.csRefusal rq (entryAddr id 7) true = none ∧
      BitVec.toNat w % 8 = 0 ∧
      4 ≤ s.fld fGL_STREAM7_STATE 0 id :=
  ⟨.firmware, 65535, 0, ranged 65535 4, by
    decide +kernel⟩

theorem test_witness_releaseBoundarya : ∃ (id : Nat) (s : State),
      s.atBoundary 250 = true ∧
      s.sq.examinedAt ≠ s.now + 1 ∧
      s.actFirst 6 = true ∧
      id < 65536 ∧
      Claim.untraced s ∧
      s.dueNow = [id] ∧
      s.sq.overdue = [] ∧
      s.missed (s.dueFrom id) = false ∧
      s.rst.lodgings = [] ∧
      s.eligible 5 0 0 (schedAsker (s.rangeOwner id)) = true ∧
      s.clusterFenced (s.fld fGL_STREAM7_HOME 0 id) = false :=
  ⟨65535, ranged 65535 1, by
    unfold Claim.untraced; decide +kernel⟩

theorem test_witness_releaseBoundaryb : ∃ (_id : Nat) (s : State),
      s.atBoundary 250 = true ∧
      s.sq.examinedAt ≠ s.now + 1 ∧
      s.actFirst 6 = true ∧
      s.fld fMG_LEDGER_STATUS_UNREAD = 0 :=
  ⟨65535, ranged 65535 1, by
    decide +kernel⟩

theorem test_witness_slotAssign : ∃ (c : Nat) (i : Nat) (id : Nat) (s : State),
      c < 48 ∧
      i < 16 ∧
      id < 65536 ∧
      List.find? (fun k => s.fld fGL_STREAM7_HOME 0 k == c) s.sq.ready = some id ∧
      s.is fSQ_SLOT_VALID c i = false ∧
      s.clusterHeld c = false ∧
      s.lodgingHalted c = false :=
  ⟨0, 15, 65535, { own with sq := { own.sq with ready := [65535] } }, by
    decide +kernel⟩

theorem test_witness_streamStopa : ∃ (rq : Rq) (id : Nat) (s : State),
      id < 65536 ∧
      s.csRefusal rq (glAddr 768) true = none ∧
      (rq.platform = true ∨ ∃ l, s.lodgingOf rq = some l ∧ s.inRange l id = true) ∧
      (s.fld fGL_STREAM7_STATE 0 id = 1 ∨ s.fld fGL_STREAM7_STATE 0 id = 2) :=
  ⟨.firmware, 65535, ranged 65535 2, by
    exact ⟨(by decide +kernel), (by decide +kernel), Or.inl rfl, Or.inr (by decide +kernel)⟩⟩

theorem test_witness_streamStopb : ∃ (rq : Rq) (id : Nat) (s : State),
      id < 65536 ∧
      s.csRefusal rq (glAddr 768) true = none ∧
      (rq.platform = true ∨ ∃ l, s.lodgingOf rq = some l ∧ s.inRange l id = true) ∧
      s.fld fGL_STREAM7_STATE 0 id = 3 ∧
      (s.sq.ending.any fun e => e.fst == id) = false ∧
      s.slotIx id ≠ none ∧
      s.outstanding id ≠ 0 :=
  ⟨.firmware, 0, stopSt, by
    exact ⟨(by decide +kernel), (by decide +kernel), Or.inl rfl, (by decide +kernel), (by decide +kernel), (by decide +kernel), (by decide +kernel)⟩⟩

theorem test_witness_connPosta : ∃ (rq : Rq) (l : Nat) (c : Nat) (w : Word) (x : Conn) (s : State),
      l < 8 ∧
      c < 1024 ∧
      s.csRoute rq (etAddr (1048576 + 8192 * l + 8 * c)) = 0 ∧
      s.csHeld rq (etAddr (1048576 + 8192 * l + 8 * c)) = false ∧
      s.csRefusal rq (etAddr (1048576 + 8192 * l + 8 * c)) true = none ∧
      s.conn l c = some x ∧
      s.fld fET_CONN_POST_STATE 0 (connIx l c) = 1 ∧
      fieldOf 16 16 (BitVec.toNat w) = s.fld fET_CONN_POST_RX_READ 0 (connIx l c) ∧
      s.tailBad x (fieldOf 32 16 (BitVec.toNat w)) = false :=
  ⟨.firmware, 0, 1, 0, con [], withCon own (con []), by
    decide +kernel⟩

theorem test_witness_connPostb : ∃ (rq : Rq) (l : Nat) (c : Nat) (w : Word) (x : Conn) (s : State) (k : Nat) (d : Nat) (m : Nat),
      l < 8 ∧
      c < 1024 ∧
      s.csRoute rq (etAddr (1048576 + 8192 * l + 8 * c)) = 0 ∧
      s.csHeld rq (etAddr (1048576 + 8192 * l + 8 * c)) = false ∧
      s.csRefusal rq (etAddr (1048576 + 8192 * l + 8 * c)) true = none ∧
      s.conn l c = some x ∧
      fieldOf 32 16 (BitVec.toNat w) = s.fld fET_CONN_POST_TAIL 0 (connIx l c) ∧
      m = 2 ^ x.req.rxBits ∧
      d = (fieldOf 16 16 (BitVec.toNat w) + 65536 - s.fld fET_CONN_POST_RX_READ 0 (connIx l c)) % 65536 ∧
      (k = d ∨ x.rxUsed < d ∧ k = (fieldOf 16 16 (BitVec.toNat w) % m + m - s.fld fET_CONN_POST_RX_READ 0 (connIx l c) % m) % m) ∧
      k ≤ x.rxUsed :=
  ⟨.firmware, 0, 1, 65536, con [], withCon own (con []), 1, 1, 2 ^ (con []).req.rxBits, by
    decide +kernel⟩

theorem test_witness_connPostc : ∃ (rq : Rq) (l : Nat) (c : Nat) (w : Word) (x : Conn) (s : State) (k : Nat) (d : Nat) (m : Nat),
      l < 8 ∧
      c < 1024 ∧
      s.csRoute rq (etAddr (1048576 + 8192 * l + 8 * c)) = 0 ∧
      s.csHeld rq (etAddr (1048576 + 8192 * l + 8 * c)) = false ∧
      s.csRefusal rq (etAddr (1048576 + 8192 * l + 8 * c)) true = none ∧
      s.conn l c = some x ∧
      fieldOf 32 16 (BitVec.toNat w) = s.fld fET_CONN_POST_TAIL 0 (connIx l c) ∧
      m = 2 ^ x.req.rxBits ∧
      d = (fieldOf 16 16 (BitVec.toNat w) + 65536 - s.fld fET_CONN_POST_RX_READ 0 (connIx l c)) % 65536 ∧
      (k = d ∨ x.rxUsed < d ∧ k = (fieldOf 16 16 (BitVec.toNat w) % m + m - s.fld fET_CONN_POST_RX_READ 0 (connIx l c) % m) % m) ∧
      k ≤ x.rxUsed :=
  ⟨.firmware, 0, 1, 0, con [], (withCon own (con [])).put fET_CONN_POST_RX_READ 0 1 (2 ^ (con []).req.rxBits - 1), 1, 65537 - 2 ^ (con []).req.rxBits,
    2 ^ (con []).req.rxBits, by
    decide +kernel⟩

/-- Connection 1 of lodging 0 has read the request, and then what it sends. -/
def ringU (o len : Nat) : State := ((ring o len).readMem (.host 0 0) 0x1000 64).2
def ringV (o len : Nat) (k : Work) : Got (List (BitVec 8)) × State :=
  ((ringU o len).putConn (Claim.started (ring o len) (con []) k)).readMem (.host 0 0) (k.w 2) k.len

theorem test_witness_workStarta : ∃ (l : Nat) (c : Nat) (x : Conn) (k : Work) (u : State) (s : State) (n : Nat),
      Claim.ringReads s u l c x k ∧
      x.sendPsn < 2 ^ 24 ∧
      u.now = s.now ∧
      k.wellFormed c = true ∧
      k.push = false ∧
      mayStart x k = true ∧
      k.op = 3 ∧
      Claim.sends u x n :=
  ⟨0, 1, con [], wrk 3 2048 2, ringU 3 2048, ring 3 2048, 0, by
    unfold Claim.sends Claim.ringReads; repeat' apply And.intro
    all_goals first | decide +kernel | exact ⟨wordBytes (wreq 3 2048), by decide +kernel⟩⟩

theorem test_witness_workStartba : ∃ (l : Nat) (c : Nat) (x : Conn) (k : Work) (u : State) (s : State) (n : Nat) (bs : List (BitVec 8)) (v : State),
      Claim.ringReads s u l c x k ∧
      x.sendPsn < 2 ^ 24 ∧
      u.now = s.now ∧
      k.wellFormed c = true ∧
      k.push = false ∧
      mayStart x k = true ∧
      k.op ≠ 3 ∧
      ((u.putConn (Claim.started s x k)).readMem (Rq.host l x.req.port) (k.w 2) k.len = (Got.ok bs, v)) ∧
      v.conn l c = some (Claim.started s x k) ∧
      Claim.sends v x n ∧
      bs.length ≤ x.req.mtu :=
  ⟨0, 1, con [], wrk 1 64 1, ringU 1 64, ring 1 64, 0, List.replicate 64 0, (ringV 1 64 (wrk 1 64 1)).2, by
    unfold Claim.sends Claim.ringReads; repeat' apply And.intro
    all_goals first | decide +kernel | exact ⟨wordBytes (wreq 1 64), by decide +kernel⟩⟩

theorem test_witness_workStartbba : ∃ (l : Nat) (c : Nat) (x : Conn) (k : Work) (u : State) (s : State),
      Claim.ringReads s u l c x k ∧
      x.sendPsn < 2 ^ 24 ∧
      u.now = s.now ∧
      k.wellFormed c = false ∧
      x.works = [] ∧
      u.fld fMG_LEDGER_STATUS_UNREAD = 0 ∧
      x.req.sendBits ≤ 16 :=
  ⟨0, 1, con [], wrk 9 0 1, ringU 9 0, ring 9 0, by
    unfold Claim.ringReads; repeat' apply And.intro
    all_goals first | decide +kernel | exact ⟨wordBytes (wreq 9 0), by decide +kernel⟩⟩

theorem test_witness_workStartbbb : ∃ (l : Nat) (c : Nat) (x : Conn) (k : Work) (u : State) (s : State),
      Claim.ringReads s u l c x k ∧
      x.sendPsn < 2 ^ 24 ∧
      u.now = s.now ∧
      k.wellFormed c = true ∧
      k.push = false ∧
      mayStart x k = true ∧
      (u.ostler (txOstler x.req.port x.req.sub)).holds = [] :=
  ⟨0, 1, con [], wrk 3 2048 2, ringU 3 2048, ring 3 2048, by
    unfold Claim.ringReads; repeat' apply And.intro
    all_goals first | decide +kernel | exact ⟨wordBytes (wreq 3 2048), by decide +kernel⟩⟩

theorem test_witness_acknowledgedaa : ∃ (p : Pkt) (x : Conn) (k : Work) (syn : Nat) (s : State),
      Claim.taken s p x ∧
      s.ck.drains = [] ∧
      x.req.sendBits ≤ 16 ∧
      syn < 32 ∧
      x.works = [k] ∧
      k.done = false ∧
      k.op ≠ 3 ∧
      k.packets = 1 ∧
      k.psn < 2 ^ 24 ∧
      p.psn = k.psn ∧
      x.sendPsn = (k.psn + 1) % 2 ^ 24 :=
  ⟨pkt 0 [], con1 1 64, wrk 1 64 1, 31, sent1 1 64, by
    unfold Claim.taken; decide +kernel⟩

theorem test_witness_acknowledgedab : ∃ (p : Pkt) (x : Conn) (_k : Work) (syn : Nat) (s : State),
      Claim.taken s p x ∧
      s.ck.drains = [] ∧
      x.req.sendBits ≤ 16 ∧
      syn = nakAccess ∧
      s.fld fMG_LEDGER_STATUS_UNREAD = 0 :=
  ⟨pkt 0 [], con [wrk 1 64 1], wrk 1 64 1, nakAccess, sent 1 64, by
    unfold Claim.taken; decide +kernel⟩

theorem test_witness_acknowledgedb : ∃ (p : Pkt) (x : Conn) (k : Work) (u : State) (s : State),
      Claim.taken s p x ∧
      x.works = [k] ∧
      k.done = false ∧
      k.op = 3 ∧
      p.psn = (k.psn + k.got / x.req.mtu) % 2 ^ 24 ∧
      p.payload.length = min x.req.mtu (k.len - k.got) ∧
      k.len ≤ k.got + p.payload.length ∧
      x.req.sendBits ≤ 16 ∧
      (s.writeAll (Rq.host x.l x.req.port) (k.w 2 + k.got) p.payload = (Got.ok (), u)) ∧
      u.ck = s.ck :=
  ⟨pkt 0 [7, 8], con [wrk 3 2 1], wrk 3 2 1, ((sent 3 2).writeAll (.host 0 0) 0x2000 [7, 8]).2, sent 3 2, by
    unfold Claim.taken; decide +kernel⟩

theorem test_witness_ackTimeouta : ∃ (l : Nat) (c : Nat) (x : Conn) (k : Work) (s : State) (n : Nat),
      s.conn l c = some x ∧
      s.connState x = 1 ∧
      s.ck.drains = [] ∧
      x.works = [k] ∧
      k.done = false ∧
      x.sentAt + 250 * x.req.timeout ≤ s.now ∧
      s.txOpen x.req.port x.req.sub (some x.l) = true ∧
      x.retries < x.req.retryMax ∧
      k.op = 3 ∧
      Claim.sends s x n :=
  ⟨0, 1, con [wrk 3 2 1], wrk 3 2 1, at1 (sent 3 2) 2500, 0, by
    unfold Claim.sends; decide +kernel⟩

theorem test_witness_ackTimeoutb : ∃ (l : Nat) (c : Nat) (x : Conn) (k : Work) (s : State),
      s.conn l c = some x ∧
      s.connState x = 1 ∧
      s.ck.drains = [] ∧
      x.works = [k] ∧
      k.done = false ∧
      x.sentAt + 250 * x.req.timeout ≤ s.now ∧
      s.txOpen x.req.port x.req.sub (some x.l) = true ∧
      x.req.retryMax ≤ x.retries ∧
      s.fld fMG_LEDGER_STATUS_UNREAD = 0 :=
  ⟨0, 1, conR, wrk 3 2 1, at1 (withCon own conR) 2500, by
    decide +kernel⟩

theorem test_witness_ResetLeavesTheResetColumnsa : ∃ (p : Nat × Nat × Nat × Nat),
      p ∈ Claim.resetColumn :=
  ⟨(0x0F0008000220, 0, 16, 16), by
    decide +kernel⟩

def lw (op sub sa da sb sy dy : Nat) : LPayload :=
  BitVec.ofNat 58 (sa * 2 ^ 17 + da * 2 ^ 13 + sb * 2 ^ 8 + sub + (sy * 2 ^ 27 + dy * 2 ^ 23) * 2 ^ 26 + op * 0)
/-- Scalars 1, 2, 3 and 4 of core 0, which runs. -/
def sc (a b c y : Nat) : State :=
  (((run.setS 0 1 (BitVec.ofNat 64 a)).setS 0 2 (BitVec.ofNat 64 b)).setS 0 3 (BitVec.ofNat 64 c)).setS 0 4 (BitVec.ofNat 64 y)
def ltOf (s : State) (op : Nat) (w : LPayload) : Latch := s.latchProg 0 (lWord0 op w) (lWord1 w)
def dw (sub : Nat) : LPayload := lw 35 sub 1 1 2 4 2
def d4 : State := sc (cm0 + 0x1000) 4 0 (cm0 + 0x2004)
def d64 : State := (sc (cm0 + 0x1000) 64 0 (cm0 + 0x2000)).put fCO_CORE_STATUS_LEVEL 0 0 2
/-- Rows of 64 bytes at a stride of 64, transposed to columns at a pitch of 64. -/
def dT (w : Nat) : State :=
  (sc (cm0 + 0x1000) (4 * w + 4 * 2 ^ 32) 0 (cm0 + 0x8000)).setD 0 1 [32#64, 0, 0, 64#64, 0, 0, 0, BitVec.ofNat 64 (2 ^ 32)]
/-- An assignment list at CM + 64 KiB: one entry, token 0, rank 0, for expert 0. -/
def dL : State :=
  (((sc (cm0 + 0x1000) 4 (cm0 + 0x10000) (cm0 + 0x2004)).physWrite (cm0 + 0x10000) [1]).physWrite (cm0 + 0x10014) [1, 0, 1]).physWrite
    (cm0 + 0x10040) [1]
def dLh : List (BitVec 8) := dL.physRead (cm0 + 0x10000) 2112
def sg (n : Nat) : SemSig := ⟨255, n, 0, unitCore 27 9 0, 0, 0, 0, 0, false, 0, none⟩
def withSig (s : State) (g : SemSig) : State := { s with net := { s.net with signals := [g] } }
def wmsg (s : State) (w : SemWait) : State := { s with net := { s.net with waitMsgs := [w] } }
def gr (who : Nat) : SemGrant := ⟨5, false, who, 3, none⟩
def granted (who w : Nat) : State :=
  let s := own.put fCO_CORE_STATUS_STATE who 0 2
  { s with core := { s.core with wait := [(who, w)] }, net := { s.net with grants := [gr who] } }
def trains (n : Nat) : State :=
  let s := rdy.put fGL_TOPOLOGY_STATE 0 139 4
  { s with net := { s.net with trainFails := [(139, n)] } }
def redR (code : Nat) : List Nat := [op 10 + code * 2 ^ 8, 0, 1]
def redFull (v : Nat) : State :=
  let s := present (seqs (redR 4))
  { s with core := { s.core with slotFull := nput [] 0 v } }
def brR (code : Nat) : List Nat := [op 11 + code * 2 ^ 8, 0, 0, 1]
def rampR : List Nat := [op 12, 0, 50000, 1 + 2 ^ 16 + 2 ^ 32]
def tw : SlotWait := ⟨0, 1, 0, some 1, [], 0, [], 0⟩
def ports : State :=
  puts (withSes (paged own) 1) [(fGL_LODGING_CFG_PORTS, 0, 0, 1), (fSC_SLOT_RANGE_COUNT, 0, 0, 2), (fSC_SLOT0_STATE, 0, 0, 1),
    (fSC_SLOT0_STATE, 0, 1, 1), (fSC_SLOT0_DIR, 0, 0, 1), (fSC_SLOT0_DIR, 0, 1, 2)]
def subs : State := puts own [(fET_PORT_CFG_MODE, 0, 7, 3), (fET_PORT_CFG_PFC_EN, 0, 7, 1), (fET_PORT_CFG_PFC_PRIO, 0, 7, 7)]
def addrs : State := { subs with mg := { subs.mg with ip4 := [(31, 9)], ip6 := [(31, 11)] } }
def tko : Takeover := ⟨47, 23, 0, 27, false, false⟩
def bst (held : Bool) (r : Option Nat) : Burst := ⟨47, held, 0, r, 0⟩
def withBst (s : State) (b : Burst) : State := { s with integ := { s.integ with bursts := [b] } }
def drs : Dressing := ⟨1343, false, none, 0, 0, false⟩
def lse : Lease := ⟨47, 0, 0, 0, 1, []⟩

theorem test_witness_dmaCopyaa : ∃ (u : Nat) (_id : Nat) (p : Nat) (pa : Nat) (pb : Nat) (lt : Latch) (s : State),
      lSub lt.w0 = 0 ∧
      walkCount lt.da = 1 ∧
      walkPoint (((BitVec.toNat lt.a : Nat) : Int)) lt.da 0 = ↑p ∧
      Claim.oneRun s (Rq.coreDma u lt.org) (fieldOf 0 32 (BitVec.toNat lt.b)) p (BitVec.toNat lt.y) pa pb :=
  ⟨0, 1, cm0 + 0x1000, cm0 + 0x1000, cm0 + 0x2004, ltOf d4 35 (dw 0), d4, by
    unfold Claim.oneRun; decide +kernel⟩

theorem test_witness_dmaCopyba : ∃ (u : Nat) (_id : Nat) (p : Nat) (pa : Nat) (pb : Nat) (lt : Latch) (s : State),
      lSub lt.w0 = 1 ∧
      walkCount lt.dy = 1 ∧
      walkPoint (((BitVec.toNat lt.y : Nat) : Int)) lt.dy 0 = ↑p ∧
      Claim.oneRun s (Rq.coreDma u lt.org) (fieldOf 0 32 (BitVec.toNat lt.b)) (BitVec.toNat lt.a) p pa pb :=
  ⟨0, 1, cm0 + 0x2004, cm0 + 0x1000, cm0 + 0x2004, ltOf d4 35 (dw 1), d4, by
    unfold Claim.oneRun; decide +kernel⟩

theorem test_witness_dmaFillba : ∃ (u : Nat) (_id : Nat) (p : Nat) (pb : Nat) (lt : Latch) (s : State) (i : Nat),
      lSub lt.w0 = 5 ∧
      walkCount lt.dy = 1 ∧
      walkPoint (((BitVec.toNat lt.y : Nat) : Int)) lt.dy 0 = ↑p ∧
      formOk (↑p) (fieldOf 0 32 (BitVec.toNat lt.b)) = true ∧
      0 < fieldOf 0 32 (BitVec.toNat lt.b) ∧
      p % 64 + fieldOf 0 32 (BitVec.toNat lt.b) ≤ 64 ∧
      (s.request (Rq.coreDma u lt.org) p (fieldOf 0 32 (BitVec.toNat lt.b)) false true false = (Got.ok pb, s)) ∧
      i < fieldOf 0 32 (BitVec.toNat lt.b) :=
  ⟨0, 1, cm0 + 0x2004, cm0 + 0x2004, ltOf d4 35 (dw 5), d4, 3, by
    decide +kernel⟩

theorem test_witness_dmaTransposeba : ∃ (u : Nat) (_id : Nat) (width : Nat) (lt : Latch) (p : Nat → Nat) (pa : Nat → Nat) (pb : Nat → Nat) (s : State) (r : Nat) (c : Nat),
      (lSub lt.w0 = 2 ∧ width = 4 ∨ lSub lt.w0 = 3 ∧ width = 8 ∨ lSub lt.w0 = 4 ∧ width = 16) ∧
      walkCount lt.da = 32 ∧
      fieldOf 0 32 (BitVec.toNat lt.b) = 4 * width ∧
      transposes (BitVec.toNat lt.y) = true ∧
      BitVec.toNat lt.y % 16 = 0 ∧
      4 * width ≤ fieldOf 32 16 (BitVec.toNat lt.b) * 16 ∧
      s.pathBusy (Rq.coreDma u lt.org) (BitVec.toNat lt.y) = false ∧
      s.traffic = [] ∧
      (∀ (r : Nat), r < 32 → walkPoint (((BitVec.toNat lt.a : Nat) : Int)) lt.da r = ((p r : Nat) : Int) ∧ formOk (((p r : Nat) : Int)) (4 * width) = true ∧ p r % 64 + 4 * width ≤ 64 ∧ s.request (Rq.coreDma u lt.org) (p r) (4 * width) true false false = (Got.ok (pa r), s)) ∧
      (∀ (c : Nat), c < 32 → s.request (Rq.coreDma u lt.org) (BitVec.toNat lt.y + c * (fieldOf 32 16 (BitVec.toNat lt.b) * 16)) (4 * width) false true false = (Got.ok (pb c), s)) ∧
      (∀ (c : Nat), c < 31 → pb c + 4 * width ≤ pb (c + 1)) ∧
      r < 32 ∧
      c < 32 :=
  ⟨0, 1, 16, ltOf (dT 16) 35 (dw 4), (fun r => cm0 + 0x1000 + 64 * r), (fun r => cm0 + 0x1000 + 64 * r), (fun c => cm0 + 0x8000 + 64 * c), dT 16, 31, 31, by
    decide +kernel⟩

/-- After the read of the list's header, and of its entry. -/
def dL1 : State := (dL.readMem (.coreDma 0 (ltOf dL 35 (dw 6)).org) (cm0 + 0x10000) 2112).2
def dL2 : State := (dL1.readMem (.coreDma 0 (ltOf dL 35 (dw 6)).org) (cm0 + 0x10840) 8).2

theorem test_witness_dmaDispatchaa : ∃ (u : Nat) (_id : Nat) (p : Nat) (pa : Nat) (pb : Nat) (e : Nat) (entry : Nat) (k : Nat) (lt : Latch) (t : State) (s : State),
      lSub lt.w0 = 6 ∧
      fieldOf 32 8 (BitVec.toNat lt.b) = e ∧
      fieldOf 40 8 (BitVec.toNat lt.b) = e ∧
      Claim.oneEntry s t (Rq.coreDma u lt.org) (BitVec.toNat lt.b1) e entry k ∧
      fieldOf 32 16 entry < walkCount lt.da ∧
      walkPoint (((BitVec.toNat lt.a : Nat) : Int)) lt.da (fieldOf 32 16 entry) = ↑p ∧
      Claim.oneRun t (Rq.coreDma u lt.org) (fieldOf 0 32 (BitVec.toNat lt.b)) p (BitVec.toNat lt.y) pa pb :=
  ⟨0, 1, cm0 + 0x1000, cm0 + 0x1000, cm0 + 0x2004, 0, 0, 1, ltOf dL 35 (dw 6), dL2, dL, by
    unfold Claim.oneRun Claim.oneEntry; repeat' apply And.intro
    all_goals first | decide +kernel | exact ⟨dLh, List.replicate 8 0, dL1, by decide +kernel⟩⟩

theorem test_witness_dmaDispatchba : ∃ (u : Nat) (_id : Nat) (p : Nat) (pa : Nat) (pb : Nat) (e : Nat) (entry : Nat) (k : Nat) (lt : Latch) (t : State) (s : State),
      lSub lt.w0 = 7 ∧
      fieldOf 32 8 (BitVec.toNat lt.b) = e ∧
      fieldOf 40 8 (BitVec.toNat lt.b) = e ∧
      Claim.oneEntry s t (Rq.coreDma u lt.org) (BitVec.toNat lt.b1) e entry k ∧
      fieldOf 32 16 entry * k + fieldOf 56 3 entry < walkCount lt.dy ∧
      walkPoint (((BitVec.toNat lt.y : Nat) : Int)) lt.dy (fieldOf 32 16 entry * k + fieldOf 56 3 entry) = ↑p ∧
      Claim.oneRun t (Rq.coreDma u lt.org) (fieldOf 0 32 (BitVec.toNat lt.b)) (BitVec.toNat lt.a) p pa pb :=
  ⟨0, 1, cm0 + 0x2004, cm0 + 0x1000, cm0 + 0x2004, 0, 0, 1, ltOf dL 35 (dw 7), dL2, dL, by
    unfold Claim.oneRun Claim.oneEntry; repeat' apply And.intro
    all_goals first | decide +kernel | exact ⟨dLh, List.replicate 8 0, dL1, by decide +kernel⟩⟩

theorem test_witness_dmaReduceStorea : ∃ (u : Nat) (_id : Nat) (p : Nat) (pa : Nat) (l : Nat) (lt : Latch) (s : State),
      lSub lt.w0 = 8 ∧
      walkCount lt.dy = 1 ∧
      fieldOf 0 32 (BitVec.toNat lt.b) = 64 ∧
      formOk (((BitVec.toNat lt.a : Nat) : Int)) 64 = true ∧
      BitVec.toNat lt.a % 64 = 0 ∧
      walkPoint (((BitVec.toNat lt.y : Nat) : Int)) lt.dy 0 = ↑p ∧
      formOk (↑p) 64 = true ∧
      p % 64 = 0 ∧
      reduceDest p = true ∧
      s.lodgingOf (Rq.coreDma u lt.org) = some l ∧
      s.ownerOf (clusterAt p) = some l ∧
      (s.request (Rq.coreDma u lt.org) (BitVec.toNat lt.a) 64 true false false = (Got.ok pa, s)) :=
  ⟨0, 1, cm0 + 0x2000, cm0 + 0x1000, 0, ltOf d64 35 (dw 8), d64, by
    decide +kernel⟩

theorem test_witness_semaphoreSignal : ∃ (n : Nat) (g : SemSig) (s : State),
      Claim.signalComes s n g ∧
      g.amount ≠ 0 ∧
      Claim.noWaiter s (g.sem / 256) (g.sem % 256) ∧
      s.fld fCL_SEM_COUNT (g.sem / 256) (g.sem % 256) + g.amount < 2 ^ 32 :=
  ⟨0, sg 65535, withSig own (sg 65535), by
    unfold Claim.signalComes Claim.noWaiter; decide +kernel⟩

theorem test_witness_semaphoreSignalEdgesa : ∃ (n : Nat) (g : SemSig) (s : State),
      Claim.signalComes s n g ∧
      g.amount = 0 :=
  ⟨0, sg 0, withSig own (sg 0), by
    unfold Claim.signalComes; decide +kernel⟩

theorem test_witness_semaphoreSignalEdgesb : ∃ (n : Nat) (g : SemSig) (s : State),
      Claim.signalComes s n g ∧
      Claim.noWaiter s (g.sem / 256) (g.sem % 256) ∧
      s.fld fMG_LEDGER_STATUS_UNREAD = 0 ∧
      s.fld fMG_LEDGER_READ_READ < 1024 ∧
      2 ^ 32 ≤ s.fld fCL_SEM_COUNT (g.sem / 256) (g.sem % 256) + g.amount :=
  ⟨0, sg 1, withSig (own.put fCL_SEM_COUNT 0 255 (2 ^ 32 - 1)) (sg 1), by
    unfold Claim.signalComes Claim.noWaiter; decide +kernel⟩

theorem test_witness_messageOnItsWaya : ∃ (n : Nat) (g : SemSig) (s : State),
      s.net.signals[n]? = some g ∧
      (s.sigTravel 0 n g.unit (g.sem / 256) (Claim.sigOrigin g)).fst = 2 :=
  ⟨0, { sg 1 with sem := far }, stopped3 (withSig own { sg 1 with sem := far }), by
    unfold Claim.sigOrigin; decide +kernel⟩

theorem test_witness_messageOnItsWayba : ∃ (n : Nat) (w : SemWait) (s : State),
      s.net.waitMsgs[n]? = some w ∧
      (s.sigTravel 1 n (s.waiter w).fst (w.sem / 256) (Claim.waitOrigin s w)).fst = 2 :=
  ⟨0, ⟨far, false, 0, 1, none⟩, stopped3 (wmsg own ⟨far, false, 0, 1, none⟩), by
    unfold Claim.waitOrigin; decide +kernel⟩

theorem test_witness_messageOnItsWaybb : ∃ (n : Nat) (g : SemGrant) (s : State),
      s.net.grants[n]? = some g ∧
      (s.sigTravel 2 n (unitCl (g.sem / 256) 0) (if g.seq = true then g.who / 16 else g.who / 28) { }).fst = 2 :=
  ⟨0, ⟨0, false, 1316, 1, none⟩, stopped3 { own with net := { own.net with grants := [⟨0, false, 1316, 1, none⟩] } }, by
    decide +kernel⟩

theorem test_witness_vld : ∃ (u : Nat) (x : Payload) (k : Nat) (n : Nat) (bs : List (BitVec 8)) (t0 : State) (s : State),
      s.issuesV u [xA x] = true ∧
      s.lsFree u (laneRequests (s.lanes u x)) = true ∧
      xSz x = 0 ∧
      lsFault64 (addrOf (s.sReg u (xA x)) (signed 10 (BitVec.toNat x) * 64)) 256 = none ∧
      (∀ (i : Nat), i < 64 → BitVec.getLsbD (s.lanes u x) i = decide (k ≤ i ∧ i < k + n)) ∧
      k + n ≤ 64 ∧
      0 < n ∧
      (s.readMem (Rq.core u) (addrOf (s.sReg u (xA x)) (signed 10 (BitVec.toNat x) * 64) + 4 * k) (4 * n) = (Got.ok bs, t0)) :=
  ⟨0, pay 2 1 0 0, 0, 64, List.replicate 256 0, (d4.readMem (.core 0) (cm0 + 0x1000) 256).2, d4, by
    decide +kernel⟩

theorem test_witness_vst : ∃ (u : Nat) (x : Payload) (pa : Nat) (s : State),
      s.issuesV u [xA x] = true ∧
      s.lsFree u (laneRequests (s.lanes u x)) = true ∧
      xSz x = 0 ∧
      s.traffic = [] ∧
      lsFault64 (addrOf (s.sReg u (xA x)) (signed 10 (BitVec.toNat x) * 64)) 256 = none ∧
      addrForm (addrOf (s.sReg u (xA x)) (signed 10 (BitVec.toNat x) * 64)) = 1 ∧
      (∀ (q : Nat), q < 4 → s.request (Rq.core u) (addrOf (s.sReg u (xA x)) (signed 10 (BitVec.toNat x) * 64) + 64 * q) 64 false true false = (Got.ok (pa + 64 * q), s)) :=
  ⟨0, pay 2 1 0 0, cm0 + 0x1000, d4, by
    decide +kernel⟩

theorem test_witness_lddStda : ∃ (u : Nat) (x : Payload) (a : Nat) (pa : Nat) (t0 : State) (s : State),
      Claim.executes s u x [xA x] ∧
      s.lsFree u 1 = true ∧
      xD x < 16 ∧
      xSz x = 0 ∧
      a = addrOf (s.sReg u (xA x)) (signed 10 (BitVec.toNat x) * 64) ∧
      lsFault64 a 64 = none ∧
      (s.request (Rq.core u) a 64 true false false = (Got.ok pa, t0)) ∧
      descOk (wordsOf 8 (t0.physRead pa 64)) = true ∧
      levelsOk (s.level u) (wordsOf 8 (t0.physRead pa 64)) = true :=
  ⟨0, pay 15 1 0 0, cm0 + 0x1000, cm0 + 0x1000, d4, d4, by
    unfold Claim.executes; decide +kernel⟩

theorem test_witness_lddStdb : ∃ (u : Nat) (x : Payload) (a : Nat) (pa : Nat) (t0 : State) (s : State),
      Claim.executes s u x [xA x] ∧
      s.lsFree u 1 = true ∧
      xD x < 16 ∧
      xSz x = 0 ∧
      a = addrOf (s.sReg u (xA x)) (signed 10 (BitVec.toNat x) * 64) ∧
      lsFault64 a 64 = none ∧
      (s.request (Rq.core u) a 64 false true false = (Got.ok pa, t0)) :=
  ⟨0, pay 15 1 0 0, cm0 + 0x1000, cm0 + 0x1000, d4, d4, by
    unfold Claim.executes; decide +kernel⟩

theorem test_witness_sramRead : ∃ (rq : Rq) (a : Nat) (n : Nat) (parity : Nat) (_stall : Nat) (p : Place) (s : State),
      1099511627776 ≤ a ∧
      a + n ≤ 1112396529664 ∧
      s.locate rq a = Look.ok p ∧
      s.poisonIn p.addr (p.addr + n) = false ∧
      s.upsetIn p.addr n = none ∧
      parity ≠ 1 ∧
      parity ≠ 2 :=
  ⟨.core 0 none, cm0, 64, 0, 0, ⟨.cm, 0, 0⟩, run, by
    decide +kernel⟩

theorem test_witness_sramWrite : ∃ (rq : Rq) (a : Nat) (parity : Nat) (_stall : Nat) (bs : List (BitVec 8)) (p : Place) (s : State),
      1099511627776 ≤ a ∧
      a + bs.length ≤ 1112396529664 ∧
      s.locate rq a = Look.ok p ∧
      s.upsetIn p.addr bs.length = none ∧
      parity ≠ 1 ∧
      parity ≠ 2 :=
  ⟨.core 0 none, cm0, 0, 0, [1, 2], ⟨.cm, 0, 0⟩, run, by
    decide +kernel⟩

theorem test_witness_sramRefuseda : ∃ (rq : Rq) (a : Nat) (n : Nat) (_parity : Nat) (_stall : Nat) (e : Nat) (unit : Nat) (c : Nat) (slot : Option Nat) (bs : List (BitVec 8)) (s : State),
      1099511627776 ≤ a ∧
      a + n ≤ 1112396529664 ∧
      a + bs.length ≤ 1112396529664 ∧
      s.locate rq a = Look.bad e unit slot c ∧
      s.fld fMG_LEDGER_MIRROR_BASE = 0 :=
  ⟨.core 0 none, cm0 + 0x10000000, 64, 0, 0, 0x7001, unitCl 1 0, 1, none, [1], run, by
    decide +kernel⟩

theorem test_witness_servedAccess : ∃ (rq : Rq) (a : Nat) (n : Nat) (pa : Nat) (rd : Bool) (wr : Bool) (ex : Bool) (t0 : State) (s : State),
      s.ms.upsets = [] ∧
      (s.request rq a n rd wr ex = (Got.ok pa, t0)) :=
  ⟨.core 0, cm0, 8, cm0, true, false, false, (run.request (.core 0) cm0 8 true false false).2, run, by
    decide +kernel⟩

theorem test_witness_remoteStalla : ∃ (rq : Rq) (a : Nat) (n : Nat) (stall : Nat) (u : Nat) (p : Place) (bs : List (BitVec 8)) (s : State),
      1099511627776 ≤ a ∧
      a + n ≤ 1112396529664 ∧
      a + bs.length ≤ 1112396529664 ∧
      s.locate rq a = Look.ok p ∧
      s.poisonIn p.addr (p.addr + n) = false ∧
      s.ms.upsets = [] ∧
      p.slot? = some u ∧
      rq.slot ≠ some u ∧
      s.fld fCO_REMOTE_STALL_CYCLES u + stall < 2 ^ fCO_REMOTE_STALL_CYCLES.w :=
  ⟨.core 1 none, 0x010008000000 + 64, 64, 3, 0, ⟨.wm, 0, 64⟩, [1], run, by
    decide +kernel⟩

theorem test_witness_transposingWrite : ∃ (rq : Rq) (w : Nat) (dst : Nat) (pitch : Nat) (rows : List Nat) (pa : Nat → Nat) (s : State),
      1099511627776 ≤ dst ∧
      dst < 1112396529664 ∧
      tileBad w dst pitch false rows = false ∧
      s.pathBusy rq dst = false ∧
      (∀ (c : Nat), c < 32 → s.request rq (dst + c * pitch) (4 * w) false true false = (Got.ok (pa c), s)) ∧
      (∀ (c : Nat), c < 32 → 1099511627776 ≤ pa c) ∧
      (∀ (c : Nat), c < 31 → pa c + 4 * w ≤ pa (c + 1)) :=
  ⟨.firmware, 16, cm0 + 0x1000, 64, List.range 32, (fun c => cm0 + 0x1000 + 64 * c), run, by
    decide +kernel⟩

theorem test_witness_transposingRefused : ∃ (rq : Rq) (w : Nat) (dst : Nat) (pitch : Nat) (mx : Bool) (rows : List Nat) (p : Place) (s : State),
      1099511627776 ≤ dst ∧
      dst < 1112396529664 ∧
      tileBad w dst pitch mx rows = true ∧
      s.pathBusy rq dst = false ∧
      s.locate rq dst = Look.ok p ∧
      s.fld fMG_LEDGER_MIRROR_BASE = 0 :=
  ⟨.firmware, 16, cm0 + 0x1000, 64, true, List.range 32, ⟨.cm, 0, 0x1000⟩, run, by
    decide +kernel⟩

theorem test_witness_transposingStall : ∃ (rq : Rq) (_w : Nat) (dst : Nat) (_pitch : Nat) (_mx : Bool) (_rows : List Nat) (s : State),
      1099511627776 ≤ dst ∧
      dst < 1112396529664 ∧
      s.pathBusy rq dst = false ∧
      (∀ (h : Holding), h ∈ (s.ostler (ostlerAt 2 (s.pathAt rq dst).fst (s.pathAt rq dst).snd)).holds → h.isFor rq dst = false) :=
  ⟨.firmware, 16, cm0 + 0x1000, 64, false, List.range 32, run, by
    decide +kernel⟩

theorem test_witness_capWritea : ∃ (rq : Rq) (which : Nat) (v : Nat) (lo : Nat) (hi : Nat) (f : Fld) (s : State),
      v < 4096 ∧
      s.csRefusal rq (pwAddr (8 * which)) true = none ∧
      (which = 0 ∧ f = fPW_CAP_SUSTAINED_CAP ∧ lo = 600 ∧ hi = min 2400 (s.fld fPW_CAP_PEAK_CAP) ∨ which = 1 ∧ f = fPW_CAP_PEAK_CAP ∧ lo = s.fld fPW_CAP_SUSTAINED_CAP ∧ hi = 2800 ∨ which = 2 ∧ f = fPW_SHED_CAP_CAP ∧ lo = 600 ∧ hi = s.fld fPW_CAP_PEAK_CAP) ∧
      lo ≤ v ∧
      v ≤ hi :=
  ⟨.firmware, 0, 600, 600, 2400, fPW_CAP_SUSTAINED_CAP, rdy, by
    decide +kernel⟩

theorem test_witness_capWriteb : ∃ (rq : Rq) (which : Nat) (v : Nat) (lo : Nat) (hi : Nat) (f : Fld) (s : State),
      v < 4096 ∧
      s.csRefusal rq (pwAddr (8 * which)) true = none ∧
      (which = 0 ∧ f = fPW_CAP_SUSTAINED_CAP ∧ lo = 600 ∧ hi = min 2400 (s.fld fPW_CAP_PEAK_CAP) ∨ which = 1 ∧ f = fPW_CAP_PEAK_CAP ∧ lo = s.fld fPW_CAP_SUSTAINED_CAP ∧ hi = 2800 ∨ which = 2 ∧ f = fPW_SHED_CAP_CAP ∧ lo = 600 ∧ hi = s.fld fPW_CAP_PEAK_CAP) ∧
      lo ≤ hi ∧
      (v < lo ∨ hi < v) ∧
      s.fld fMG_LEDGER_STATUS_UNREAD = 0 :=
  ⟨.firmware, 1, 2801, 2400, 2800, fPW_CAP_PEAK_CAP, rdy, by
    decide +kernel⟩

theorem test_witness_sheda : ∃ (s : State),
      s.pins.pwrGood = true ∧
      s.fld fMG_LEDGER_STATUS_UNREAD = 0 ∧
      s.pins.shedN = true :=
  ⟨powered, by
    decide +kernel⟩

theorem test_witness_shedb : ∃ (s : State),
      s.pins.pwrGood = true ∧
      s.fld fMG_LEDGER_STATUS_UNREAD = 0 ∧
      s.pins.shedN = false :=
  ⟨{ powered with pins := { powered.pins with shedN := false } }, by
    decide +kernel⟩

theorem test_witness_powerCeilingsa : ∃ (n : Nat) (s : State),
      s.pw.dutyLowSince = some n ∧
      n + 250000 * s.fld fPW_CFG_DWELL ≤ s.now :=
  ⟨0, at1 { rdy with pw := { rdy.pw with dutyLowSince := some 0 } } 63750000, by
    decide +kernel⟩

theorem test_witness_powerCeilingsb : ∃ (n : Nat) (s : State),
      s.pw.dutyFullSince = some n ∧
      n + 5000000 ≤ s.now :=
  ⟨0, at1 { rdy with pw := { rdy.pw with dutyFullSince := some 0 } } 5000000, by
    decide +kernel⟩

theorem test_witness_capSchedule : ∃ (i : Nat) (s : State),
      i < 16 ∧
      s.capDue i = true ∧
      s.actFirst 4 = true ∧
      (∀ (j : Nat), j < i → s.capDue j = true → s.fld fPW_CAP_SCHED0_COUNT 0 j ≠ s.fld fPW_CAP_SCHED0_COUNT 0 i) :=
  ⟨15, puts rdy [(fPW_CAP_SCHED0_VALID, 0, 15, 1), (fPW_CAP_SCHED0_COUNT, 0, 15, 5), (fTM_SITE_NOW_COUNT, 0, 0, 5)], by
    decide +kernel⟩

theorem test_witness_sensorScan : ∃ (_temps : List Nat) (_bad : List Nat) (s : State),
      s.atBoundary 5000 = true :=
  ⟨[], [], rdy, by
    decide +kernel⟩

theorem test_witness_thermalCeilingsa : ∃ (c : Nat) (s : State),
      c < 48 ∧
      s.heatTarget < signed 16 (s.tcOf c) ∧
      0 < s.ceilAt Loop.thermal c ∧
      s.ceilAt Loop.thermal c ≤ 7 ∧
      (nget s.pw.fallAt c = 0 ∨ nget s.pw.fallAt c + 2500000 ≤ s.now + 1) ∧
      s.fld fMG_LEDGER_STATUS_UNREAD = 0 :=
  ⟨47, puts rdy [(fMG_SENSOR_TEMP, 0, 95, 1600)], by
    decide +kernel⟩

theorem test_witness_thermalCeilingsba : ∃ (c : Nat) (s : State),
      c < 48 ∧
      signed 16 (s.tcOf c) < s.heatTarget - 48 ∧
      s.ceilAt Loop.thermal c < 7 ∧
      (s.is fMG_SENSOR_IGNORED 0 (2 * c) = false ∨ s.is fMG_SENSOR_IGNORED 0 (2 * c + 1) = false) ∧
      (nget s.pw.riseAt c = 0 ∨ nget s.pw.riseAt c + 25000000 ≤ s.now + 1) :=
  ⟨47, { rdy with tm := { rdy.tm with ceilThermal := [(47, 3)] } }, by
    decide +kernel⟩

theorem test_witness_thermalCeilingsbb : ∃ (f : Nat) (s : State),
      f < 6 ∧
      nget s.pw.hotSince f ≠ 0 ∧
      nget s.pw.hotSince f + 250000 ≤ s.now + 1 ∧
      (¬f ∈ s.pw.fieldOff) ∧
      s.fld fMG_LEDGER_STATUS_UNREAD = 0 :=
  ⟨5, at1 { rdy with pw := { rdy.pw with hotSince := [(5, 1)] } } 250000, by
    decide +kernel⟩

theorem test_witness_semaphoreWait : ∃ (n : Nat) (w : SemWait) (s : State),
      Claim.waitComes s n w ∧
      Claim.noWaiter s (w.sem / 256) (w.sem % 256) :=
  ⟨0, ⟨255, false, 27, 9, none⟩, wmsg own ⟨255, false, 27, 9, none⟩, by
    unfold Claim.waitComes Claim.noWaiter; decide +kernel⟩

theorem test_witness_semaphoreOrder : ∃ (n : Nat) (h : SemWait) (w : SemWait) (s : State),
      Claim.waitComes s n w ∧
      List.find? (fun q => q.sem == w.sem) s.ms.semQueue = some h ∧
      s.fld fCL_SEM_COUNT (w.sem / 256) (w.sem % 256) < h.amount :=
  ⟨0, ⟨5, false, 1, 3, none⟩, ⟨5, true, 0, 1, none⟩,
    wmsg { own with ms := { own.ms with semQueue := [⟨5, false, 1, 3, none⟩] } } ⟨5, true, 0, 1, none⟩, by
    unfold Claim.waitComes; decide +kernel⟩

theorem test_witness_semGrantArrivala : ∃ (n : Nat) (g : SemGrant) (s : State),
      s.net.grants[n]? = some g ∧
      (s.sigTravel 2 n (unitCl (g.sem / 256) 0) (if g.seq = true then g.who / 16 else g.who / 28) { }).fst = 0 ∧
      g.seq = false ∧
      g.who < 1344 ∧
      s.awaits g = true :=
  ⟨0, gr 1343, granted 1343 1, by
    decide +kernel⟩

theorem test_witness_semGrantArrivalb : ∃ (n : Nat) (g : SemGrant) (s : State),
      s.net.grants[n]? = some g ∧
      (s.sigTravel 2 n (unitCl (g.sem / 256) 0) (if g.seq = true then g.who / 16 else g.who / 28) { }).fst = 0 ∧
      s.awaits g = false :=
  ⟨0, gr 1343, granted 1343 2, by
    decide +kernel⟩

theorem test_witness_linkCrcRetryb : ∃ (i : Nat) (flit : Nat) (_again : Bool) (s : State) (g : Nat),
      i < 140 ∧
      flit < 2 ^ 20 ∧
      s.inService i = true ∧
      s.fld fGL_TOPOLOGY_STATE 0 i ≠ 4 ∧
      s.fld fMG_LEDGER_STATUS_UNREAD = 0 ∧
      nget s.net.summed (256 * 12289 + i) ≠ s.now / 250000 + 1 ∧
      g < 64 ∧
      s.laneGroup i g = true ∧
      (¬64 * i + g ∈ s.net.retired) ∧
      s.net.charges = [] ∧
      s.fld fNW_LINK_THRESH_CHARGES ≤ 1 ∧
      s.is fGL_TOPOLOGY_SPARE_USED 0 i = false :=
  ⟨139, 0, true, (rdy.put fNW_LINK_THRESH_CHARGES 0 0 1).put fGL_TOPOLOGY_LANES_FULL 0 139 16, 63, by
    decide +kernel⟩

theorem test_witness_linkTrainingbaa : ∃ (rq : Rq) (i : Nat) (s : State),
      i < 140 ∧
      s.inService i = true ∧
      s.fld fMG_LEDGER_STATUS_UNREAD = 0 ∧
      s.csRefusal rq (nwAddr 536) true = none :=
  ⟨.firmware, 139, rdy, by
    decide +kernel⟩

theorem test_witness_linkTrainingbbba : ∃ (_rq : Rq) (i : Nat) (s : State),
      i < 140 ∧
      s.inService i = true ∧
      s.fld fMG_LEDGER_STATUS_UNREAD = 0 ∧
      s.fld fGL_TOPOLOGY_STATE 0 i = 4 ∧
      nget s.net.trainFails i < 2 :=
  ⟨.firmware, 139, trains 1, by
    decide +kernel⟩

theorem test_witness_linkTrainingbbbb : ∃ (_rq : Rq) (i : Nat) (s : State),
      i < 140 ∧
      s.inService i = true ∧
      s.fld fMG_LEDGER_STATUS_UNREAD = 0 ∧
      s.fld fGL_TOPOLOGY_STATE 0 i = 4 ∧
      2 ≤ nget s.net.trainFails i :=
  ⟨.firmware, 139, trains 2, by
    decide +kernel⟩

theorem test_witness_routerFailuresa : ∃ (_silent : List Nat) (s : State),
      s.atBoundary 250000 = true ∧
      s.mg.ctrl = 0 ∧
      (∀ (r : Nat), r < 48 → s.fld fNW_ROUTER_STATUS_STATE 0 r = 0 ∧ s.fld fNW_ROUTER_STATUS_MISSED_BEATS 0 r = 0) :=
  ⟨[], rdy, by
    decide +kernel⟩

theorem test_witness_routerFailuresba : ∃ (r : Nat) (s : State),
      s.atBoundary 250000 = true ∧
      s.mg.ctrl = 0 ∧
      r < 48 ∧
      s.resetHolds r = false ∧
      s.fld fNW_ROUTER_STATUS_STATE 0 r = 0 ∧
      s.fld fNW_ROUTER_STATUS_MISSED_BEATS 0 r = 1 :=
  ⟨47, rdy.put fNW_ROUTER_STATUS_MISSED_BEATS 0 47 1, by
    decide +kernel⟩

theorem test_witness_routerFailuresbba : ∃ (r : Nat) (s : State),
      r < 48 ∧
      s.fld fMG_LEDGER_STATUS_UNREAD = 0 ∧
      nget s.net.summed (256 * 12294 + r) ≠ s.now / 250000 + 1 :=
  ⟨47, rdy, by
    decide +kernel⟩

theorem test_witness_routerFailuresbbb : ∃ (r : Nat) (s : State),
      r < 48 ∧
      s.fld fMG_LEDGER_STATUS_UNREAD = 0 ∧
      s.fld fNW_ROUTER_STATUS_STATE 0 r ≠ 3 ∧
      s.resetHolds r = false :=
  ⟨47, rdy, by
    decide +kernel⟩

theorem test_witness_phaseFault : ∃ (d : Nat) (phase : Nat) (s : State),
      d < 50 ∧
      phase < phasesOf d ∧
      (s.fld fPW_PHASE_STATUS_FAILED 0 d).testBit phase = false ∧
      s.fld fMG_LEDGER_STATUS_UNREAD = 0 ∧
      s.integ.defects.length < 2048 :=
  ⟨49, 15, rdy, by
    decide +kernel⟩

theorem test_witness_domainMeasure : ∃ (_vals : List (Nat × Nat)) (s : State),
      s.atBoundary 250000 = true :=
  ⟨[], rdy, by
    decide +kernel⟩

theorem test_witness_calibration : ∃ (s : State),
      s.atBoundary 250000 = true :=
  ⟨rdy, by
    decide +kernel⟩

theorem test_witness_limiterTick : ∃ (acts : List Nat) (leaks : List Nat) (board : Nat) (_demand : Nat) (_duty : Nat) (_pause : Bool) (_gate : Nat) (_pace : Nat) (_hbm : Nat) (p : Nat) (q : Nat) (a : Nat) (u : State) (v : State) (s : State),
      s.atBoundary 250 = true ∧
      s.pw.limitAt ≠ s.now + 1 ∧
      s.pw.stopped = false ∧
      (s.estimate acts leaks board = (q, u)) ∧
      (p = if u.ballastOn = true then max q s.pw.floor else q) ∧
      v = (u.history p).takeCaps ∧
      a = v.permitted p :=
  ⟨[], [], 0, 0, 0, false, 0, 0, 0, (rdy.estimate [] [] 0).1, (rdy.estimate [] [] 0).1,
    (((rdy.estimate [] [] 0).2.history (rdy.estimate [] [] 0).1).takeCaps.permitted (rdy.estimate [] [] 0).1), (rdy.estimate [] [] 0).2,
    ((rdy.estimate [] [] 0).2.history (rdy.estimate [] [] 0).1).takeCaps, rdy, by
    exact ⟨(by decide +kernel), (by decide +kernel), (by decide +kernel), rfl, (if_neg (show ¬(rdy.estimate [] [] 0).2.ballastOn = true by decide +kernel)).symm, rfl, rfl⟩⟩

theorem test_witness_reduceQa : ∃ (c : Nat) (i : Nat) (x : Iss) (ls : List Nat) (s0 : State) (s : State),
      Claim.record s0 s c i 10 x ∧
      x.bits 0 8 3 ≤ 4 ∧
      s.gangOf c (x.bits 2 0 24) ((x.w 0).testBit 24) = some ls ∧
      ls ≠ [] ∧
      s.sq.waits = [] ∧
      (∀ (l : Nat), l ∈ ls → nget s.core.wait (28 * c + s.slotOf c l) ≠ 3) ∧
      (∀ (l : Nat), l ∈ ls → nget s.core.slotFull (redKey c l (x.bits 0 4 4)) = 0) :=
  ⟨0, 0, iss (redR 4), [0], redFull 0, fetched (redFull 0), by
    unfold Claim.record Claim.untraced; repeat' apply And.intro
    all_goals first | decide +kernel | exact ⟨x, by decide +kernel⟩ |
      exact fun p _ h => absurd h (List.not_mem_nil (a := p)) | exact Nat.zero_le _ | exact rfl⟩

theorem test_witness_reduceQb : ∃ (c : Nat) (i : Nat) (x : Iss) (ls : List Nat) (s0 : State) (s : State),
      Claim.record s0 s c i 10 x ∧
      x.bits 0 8 3 ≤ 4 ∧
      s.gangOf c (x.bits 2 0 24) ((x.w 0).testBit 24) = some ls ∧
      ls ≠ [] ∧
      s.sq.waits = [] ∧
      (∀ (l : Nat), l ∈ ls → nget s.core.wait (28 * c + s.slotOf c l) ≠ 3) ∧
      (∀ (l : Nat), l ∈ ls → nget s.core.slotFull (redKey c l (x.bits 0 4 4)) = 1) :=
  ⟨0, 0, iss (redR 4), [0], redFull 1, fetched (redFull 1), by
    unfold Claim.record Claim.untraced; repeat' apply And.intro
    all_goals first | decide +kernel | exact ⟨x, by decide +kernel⟩ |
      exact fun p _ h => absurd h (List.not_mem_nil (a := p)) | exact Nat.zero_le _ | exact rfl⟩

theorem test_witness_brancha : ∃ (c : Nat) (i : Nat) (x : Iss) (a : Word) (b : Word) (s0 : State) (s : State),
      Claim.record s0 s c i 11 x ∧
      x.bits 0 8 4 < 12 ∧
      (a = if (x.w 0).testBit 13 = true then s.reg rSQ_Q c (x.bits 0 0 4) - 1#64 else s.reg rSQ_Q c (x.bits 0 0 4)) ∧
      (b = if (x.w 0).testBit 12 = true then BitVec.ofNat 64 (x.w 2) else if x.bits 0 4 4 = x.bits 0 0 4 then a else s.reg rSQ_Q c (x.bits 0 4 4)) ∧
      condScalar (x.bits 0 8 4) a b = false :=
  ⟨0, 0, iss (brR 1), 0#64, 0#64, seqs (brR 1), fetched (seqs (brR 1)), by
    unfold Claim.record Claim.untraced; repeat' apply And.intro
    all_goals first | decide +kernel | exact ⟨x, by decide +kernel⟩ |
      exact fun p _ h => absurd h (List.not_mem_nil (a := p)) | exact Nat.zero_le _ | exact rfl⟩

theorem test_witness_branchb : ∃ (c : Nat) (i : Nat) (x : Iss) (a : Word) (b : Word) (s0 : State) (s : State) (bs : List (BitVec 8)) (t1 : State),
      Claim.record s0 s c i 11 x ∧
      x.bits 0 8 4 < 12 ∧
      (a = if (x.w 0).testBit 13 = true then s.reg rSQ_Q c (x.bits 0 0 4) - 1#64 else s.reg rSQ_Q c (x.bits 0 0 4)) ∧
      (b = if (x.w 0).testBit 12 = true then BitVec.ofNat 64 (x.w 2) else if x.bits 0 4 4 = x.bits 0 0 4 then a else s.reg rSQ_Q c (x.bits 0 4 4)) ∧
      condScalar (x.bits 0 8 4) a b = true ∧
      0 ≤ branchTarget x ∧
      branchTarget x < 2 ^ 40 ∧
      (((s.waitOver x).setReg rSQ_Q c (x.bits 0 0 4) a).readMem (Rq.seqFetch c x.org) (branchTarget x).toNat 64 = (Got.ok bs, t1)) :=
  ⟨0, 0, iss (brR 0), 0#64, 0#64, seqs (brR 0), fetched (seqs (brR 0)), List.replicate 64 0,
    ((((fetched (seqs (brR 0))).waitOver (iss (brR 0))).setReg rSQ_Q 0 0 0#64).readMem (Rq.seqFetch 0 (iss (brR 0)).org) (branchTarget (iss (brR 0))).toNat 64).2, by
    unfold Claim.record Claim.untraced; repeat' apply And.intro
    all_goals first | decide +kernel | exact ⟨x, by decide +kernel⟩ |
      exact fun p _ h => absurd h (List.not_mem_nil (a := p)) | exact Nat.zero_le _ | exact rfl⟩

theorem test_witness_rampNoticea : ∃ (c : Nat) (i : Nat) (x : Iss) (s0 : State) (s : State),
      Claim.record s0 s c i 12 x ∧
      x.bits 3 0 16 ≠ 0 ∧
      x.bits 3 16 16 ≠ 0 ∧
      s.now + 50000 ≤ x.w 2 ∧
      x.w 2 ≤ s.now + 250000000 ∧
      0 < x.bits 3 32 16 ∧
      s.pw.notices.length < 8 :=
  ⟨0, 0, iss rampR, seqs rampR, fetched (seqs rampR), by
    unfold Claim.record Claim.untraced; repeat' apply And.intro
    all_goals first | decide +kernel | exact ⟨issBytes (iss rampR), by decide +kernel⟩ |
      exact fun p _ h => absurd h (List.not_mem_nil (a := p)) | exact Nat.zero_le _ | exact rfl⟩

theorem test_witness_rampNoticeb : ∃ (s : State),
      s.pw.notices.length ≤ 8 :=
  ⟨rdy, by
    decide +kernel⟩

theorem test_witness_checkpointMark : ∃ (c : Nat) (i : Nat) (x : Iss) (s0 : State) (s : State),
      Claim.record s0 s c i 13 x :=
  ⟨0, 0, iss [op 13], seqs [op 13], fetched (seqs [op 13]), by
    unfold Claim.record Claim.untraced; repeat' apply And.intro
    all_goals first | decide +kernel | exact ⟨issBytes (iss [op 13]), by decide +kernel⟩ |
      exact fun p _ h => absurd h (List.not_mem_nil (a := p)) | exact Nat.zero_le _ | exact rfl⟩

theorem test_witness_endRecord : ∃ (c : Nat) (i : Nat) (x : Iss) (s0 : State) (s : State),
      Claim.record s0 s c i 15 x ∧
      s.slotIx x.id = some i ∧
      s.is fGL_STREAM4_NOTIFY_EN 0 x.id = false :=
  ⟨0, 0, iss [op 15], seqs [op 15], fetched (seqs [op 15]), by
    unfold Claim.record Claim.untraced; repeat' apply And.intro
    all_goals first | decide +kernel | exact ⟨issBytes (iss [op 15]), by decide +kernel⟩ |
      exact fun p _ h => absurd h (List.not_mem_nil (a := p)) | exact Nat.zero_le _ | exact rfl⟩

theorem test_witness_orderedWaits : ∃ (c : Nat) (i : Nat) (opc : Nat) (ws : List Word) (cmd : Instr) (s0 : State) (s : State),
      ((cmd, opc) ∈ [(Instr.semSignal c i, 4), (Instr.flagSet c i, 6), (Instr.barrier c i, 8), (Instr.checkpointMark c i, 13), (Instr.endCmd c i, 15)]) ∧
      c < 48 ∧
      i < 16 ∧
      s0.canIssue c i = true ∧
      s0.ms.upsets = [] ∧
      Claim.untraced s ∧
      (s0.fetchRec c i (s0.fld fGL_STREAM3_POSITION 0 (s0.fld fSQ_SLOT_STREAM c i)) = (Got.ok ws, s)) ∧
      recLegal ws = true ∧
      recOpc ws = opc ∧
      recStream ws = s0.fld fSQ_SLOT_STREAM c i ∧
      s.outstanding (recStream ws) ≠ 0 ∧
      s.fld fSQ_SLOT_WAIT c i = 0 :=
  ⟨0, 0, 15, (iss [op 15]).words, .endCmd 0 0, stopSt, fetched stopSt, by
    unfold Claim.untraced; decide +kernel⟩

theorem test_witness_recordFetcha : ∃ (c : Nat) (i : Nat) (pos : Nat) (ws : List Word) (t : State) (s : State),
      s.ms.upsets = [] ∧
      (s.fetchRec c i pos = (Got.ok ws, t)) :=
  ⟨0, 0, 0, (iss [op 15]).words, fetched (seqs [op 15]), seqs [op 15], by
    decide +kernel⟩

theorem test_witness_recordFetchbab : ∃ (c : Nat) (i : Nat) (s : State),
      s.ms.upsets = [] ∧
      (List.filter (fun p => p.fst == slotKey c i) s.sq.prefetch).length ≤ 8 :=
  ⟨0, 15, { run with sq := { run.sq with prefetch := List.replicate 8 (15, 0, []) } }, by
    decide +kernel⟩

theorem test_witness_recordFetchbb : ∃ (c : Nat) (i : Nat) (pos : Nat) (ws : List Word) (s : State),
      s.aheadOf c i pos = some ws ∧
      (s.readRec c pos).fst = Got.ok ws :=
  ⟨0, 0, 0, (iss [op 15]).words, { seqs [op 15] with sq := { (seqs [op 15]).sq with prefetch := [(0, 0, (iss [op 15]).words)] } }, by
    decide +kernel⟩

theorem test_witness_streamFaultsa : ∃ (k : Nat) (n : Nat) (id : Nat) (w : SlotWait) (s : State),
      k < 768 ∧
      s.regionBoundary (k / 16) 250 = true ∧
      s.waitOf k = some w ∧
      w.limit = some n ∧
      w.since + 250 * n ≤ s.regionNow (k / 16) ∧
      Claim.untraced s ∧
      s.fld fMG_LEDGER_STATUS_UNREAD = 0 ∧
      id = s.fld fSQ_SLOT_STREAM (k / 16) (k % 16) ∧
      s.fld fGL_STREAM7_STATE 0 id = 3 ∧
      s.slotIx id = some (k % 16) ∧
      s.fld fGL_STREAM7_HOME 0 id = k / 16 ∧
      s.outstanding id = 0 ∧
      s.is fGL_STREAM4_NOTIFY_EN 0 id = false :=
  ⟨0, 1, 0, tw, skewed (at1 { (seqs [op 7]) with sq := { (seqs [op 7]).sq with waits := [(0, some tw)] } } 249) 0, by
    unfold Claim.untraced; decide +kernel⟩

theorem test_witness_streamFaultsba : ∃ (u : Nat) (id : Nat) (s : State),
      s.regionBoundary (u / 28) 250 = true ∧
      nget s.core.wait u = 3 ∧
      nget s.core.stream u = id ∧
      id < 65536 ∧
      nget s.core.waitSince u + 250 * nget s.core.waitLimit u ≤ s.regionNow (u / 28) ∧
      Claim.untraced s ∧
      s.fld fMG_LEDGER_STATUS_UNREAD = 0 ∧
      s.fld fGL_STREAM7_STATE 0 id = 3 ∧
      s.outstanding id ≠ 0 :=
  ⟨1343, 0, skewed (at1 { stopSt with core := { stopSt.core with wait := [(1343, 3)] } } 249) 47, by
    unfold Claim.untraced; decide +kernel⟩

theorem test_witness_streamFaultsbb : ∃ (c : Nat) (i : Nat) (id : Nat) (ws : List Word) (s0 : State) (s : State),
      c < 48 ∧
      i < 16 ∧
      s0.canIssue c i = true ∧
      s0.ms.upsets = [] ∧
      Claim.untraced s ∧
      id = s0.fld fSQ_SLOT_STREAM c i ∧
      (s0.fetchRec c i (s0.fld fGL_STREAM3_POSITION 0 id) = (Got.ok ws, s)) ∧
      (¬recOpc ws ∈ [1, 2, 3, 4, 5, 6, 7, 8, 9, 10, 11, 12, 13, 15]) ∧
      s.fld fMG_LEDGER_STATUS_UNREAD = 0 :=
  ⟨0, 0, 0, (iss [op 16]).words, seqs [op 16], fetched (seqs [op 16]), by
    unfold Claim.untraced; decide +kernel⟩

theorem test_witness_flagWrites : ∃ (rq : Rq) (c : Nat) (k : Nat) (v : Nat) (op : Nat) (i : Instr) (s : State),
      c < 48 ∧
      k < 4096 ∧
      v < 2 ^ 32 ∧
      s.csRefusal rq (clAddr c 6152) true = none ∧
      Claim.unwatched s c k ∧
      (i = Instr.flagWriteSet rq c k v ∧ op = 0 ∨ i = Instr.flagWriteAdd rq c k v ∧ op = 1 ∨ i = Instr.flagWriteMax rq c k v ∧ op = 2) :=
  ⟨.firmware, 47, 4095, 2 ^ 32 - 1, 2, .flagWriteMax .firmware 47 4095 (2 ^ 32 - 1), own, by
    unfold Claim.unwatched; repeat' apply And.intro
    all_goals first | decide +kernel | exact ⟨[], by decide +kernel⟩ |
      exact fun p _ h => absurd h (List.not_mem_nil (a := p)) | exact Nat.zero_le _ | exact rfl |
      (unfold State.regionNow; split <;> decide +kernel)⟩

theorem test_witness_connectionsaa : ∃ (h : MsgHdr) (l : Nat) (q : ConnReq) (x : Session) (s : State),
      Claim.heard s h x Role.host (some l) ∧
      connWellFormed q = true ∧
      s.fld fMG_LEDGER_STATUS_UNREAD = 0 ∧
      s.connOk l q = true :=
  ⟨hd, 0, creq, ses 1, ports, by
    unfold Claim.heard; decide +kernel⟩

theorem test_witness_connectionsab : ∃ (h : MsgHdr) (l : Nat) (q : ConnReq) (x : Session) (s : State),
      Claim.heard s h x Role.host (some l) ∧
      connWellFormed q = true ∧
      s.fld fMG_LEDGER_STATUS_UNREAD = 0 ∧
      s.connOk l q = false :=
  ⟨hd, 0, creq, ses 1, withSes own 1, by
    unfold Claim.heard; decide +kernel⟩

theorem test_witness_connectionsba : ∃ (h : MsgHdr) (l : Nat) (c : Nat) (x : Session) (y : Conn) (s : State),
      Claim.heard s h x Role.host (some l) ∧
      s.conn l c = some y ∧
      s.ck.drains = [] :=
  ⟨hd, 0, 1, ses 1, con [], withSes (withCon own (con [])) 1, by
    unfold Claim.heard; decide +kernel⟩

theorem test_witness_connectionsbb : ∃ (h : MsgHdr) (port : Nat) (sub : Nat) (_mac : Nat) (_ip4 : Nat) (_ip6 : Nat) (x : Session) (s : State),
      Claim.heard s h x Role.owner none ∧
      port < 8 ∧
      sub < 4 :=
  ⟨hd, 7, 3, 0, 0, 0, ses 0, withSes own 0, by
    unfold Claim.heard; decide +kernel⟩

theorem test_witness_framesba : ∃ (port : Nat) (sub : Nat) (s : State) (ip : Nat),
      s.subExists port sub = true ∧
      s.ready = true ∧
      ip ≠ 0 ∧
      nget s.mg.ip4 (4 * port + sub) = ip ∧
      s.txOpen port sub none = true :=
  ⟨7, 3, addrs, 9, by
    decide +kernel⟩

theorem test_witness_framesbba : ∃ (port : Nat) (sub : Nat) (s : State) (ip : Nat),
      s.subExists port sub = true ∧
      nget s.mg.ip4 (4 * port + sub) ≠ ip ∧
      s.txOpen port sub none = true :=
  ⟨7, 3, addrs, 10, by
    decide +kernel⟩

theorem test_witness_framesbbba : ∃ (port : Nat) (sub : Nat) (s : State) (ip : Nat),
      s.subExists port sub = true ∧
      s.ready = true ∧
      ip ≠ 0 ∧
      nget s.mg.ip6 (4 * port + sub) = ip ∧
      s.txOpen port sub none = true :=
  ⟨7, 3, addrs, 11, by
    decide +kernel⟩

theorem test_witness_framesbbbba : ∃ (port : Nat) (sub : Nat) (s : State) (ip : Nat),
      s.subExists port sub = true ∧
      nget s.mg.ip6 (4 * port + sub) ≠ ip ∧
      s.txOpen port sub none = true :=
  ⟨7, 3, addrs, 12, by
    decide +kernel⟩

theorem test_witness_framesbbbbba : ∃ (port : Nat) (sub : Nat) (s : State) (prio : Nat) (_on : Bool),
      s.subExists port sub = true ∧
      s.ready = true ∧
      s.is fET_PORT_CFG_PFC_EN 0 port = true ∧
      s.fld fET_PORT_CFG_PFC_PRIO 0 port = prio :=
  ⟨7, 3, subs, 7, true, by
    decide +kernel⟩

theorem test_witness_framesbbbbbba : ∃ (port : Nat) (sub : Nat) (s : State) (prio : Nat) (_on : Bool),
      s.subExists port sub = true ∧
      (s.is fET_PORT_CFG_PFC_EN 0 port = false ∨ s.fld fET_PORT_CFG_PFC_PRIO 0 port ≠ prio) :=
  ⟨7, 3, subs, 6, true, by
    decide +kernel⟩

theorem test_witness_framesbbbbbbba : ∃ (port : Nat) (sub : Nat) (s : State) (up : Bool),
      s.subExists port sub = true ∧
      (s.fld fET_PORT_STATUS_UP 0 port).testBit sub ≠ up ∧
      s.fld fMG_LEDGER_STATUS_UNREAD = 0 :=
  ⟨7, 3, subs, true, by
    decide +kernel⟩

theorem test_witness_framesbbbbbbbba : ∃ (port : Nat) (sub : Nat) (s : State) (_ip : Nat),
      s.subExists port sub = true ∧
      s.ready = false ∧
      s.txOpen port sub none = true :=
  ⟨0, 0, { State.reset with pins := { State.reset.pins with bootSrc := 1 } }, 0, by
    decide +kernel⟩

theorem test_witness_takeoverCopyDone : ∃ (c : Nat) (l : Nat) (k : Takeover) (s : State),
      c < 48 ∧
      l < 24 ∧
      s.integ.takeovers = [k] ∧
      k.c = c ∧
      k.l = l ∧
      k.old < 28 ∧
      k.new < 28 ∧
      k.old ≠ k.new ∧
      k.dress = false ∧
      s.integ.takeoverWait = [] ∧
      s.ms.poison = [] ∧
      s.ms.upsets = [] ∧
      s.fld fCO_INTEG_STATUS_FENCE_REASON (28 * c + k.old) ≠ 4 ∧
      (∀ (o : LongOp), o ∈ s.core.ops → o.u ≠ 28 * c + k.old ∧ o.u ≠ 28 * c + k.new) ∧
      s.net.resps = [] ∧
      s.canonical = true ∧
      mwf zeroW s.core.s = true :=
  ⟨47, 23, tko, { own with integ := { own.integ with takeovers := [tko] } }, by
    decide +kernel⟩

theorem test_witness_heartbeat : ∃ (c : Nat) (l : Nat) (_silent : List Nat) (s : State),
      c < 48 ∧
      l < 24 ∧
      s.atBoundary 250000 = true ∧
      s.slotOf c l < 28 ∧
      (∀ (u : Nat), nget s.integ.missed u = 0) :=
  ⟨47, 23, [], own, by
    exact ⟨(by decide +kernel), (by decide +kernel), (by decide +kernel), (by decide +kernel), fun u => rfl⟩⟩

theorem test_witness_storma : ∃ (c : Nat) (b : Burst) (s : State),
      c < 48 ∧
      s.integ.bursts = [b] ∧
      b.c = c ∧
      b.held = true ∧
      b.stop + 250000 * s.fld fMG_INTEG_CFG_STORM_HOLD ≤ s.now :=
  ⟨47, bst true none, at1 (withBst own (bst true none)) 63750000, by
    decide +kernel⟩

theorem test_witness_stormb : ∃ (c : Nat) (b : Burst) (s : State) (at_ : Nat),
      c < 48 ∧
      s.integ.bursts = [b] ∧
      b.c = c ∧
      b.restarted = some at_ ∧
      at_ + 250000000 ≤ s.now :=
  ⟨47, bst false (some 0), at1 (withBst own (bst false (some 0))) 250000000, 0, by
    decide +kernel⟩

theorem test_witness_clusterFailuresa : ∃ (c : Nat) (s : State),
      c < 48 ∧
      nget s.sq.seqMismatch c = 0 :=
  ⟨47, own, by
    decide +kernel⟩

theorem test_witness_clusterFailuresba : ∃ (c : Nat) (s : State),
      c < 48 ∧
      s.resetHolds c = false ∧
      nget s.sq.seqMismatch c ≠ 0 ∧
      s.now < nget s.sq.seqMismatch c - 1 + 250000000 :=
  ⟨47, { own with sq := { own.sq with seqMismatch := [(47, 1)] } }, by
    decide +kernel⟩

theorem test_witness_dressingRunEndab : ∃ (u : Nat) (d : Dressing) (s : State),
      u < 1344 ∧
      s.integ.dressings = [d] ∧
      d.u = u ∧
      s.mg.leases = [] ∧
      d.cut = false ∧
      s.dressSuspended (u / 28) = false ∧
      s.fld fMG_LEDGER_STATUS_UNREAD = 0 ∧
      s.rst.cores = [] ∧
      (s.fld fCL_ROW_SPARE_FENCED (u / 28)).testBit (u % 28) = false :=
  ⟨1343, drs, { own with integ := { own.integ with dressings := [drs] } }, by
    decide +kernel⟩

theorem test_witness_dressingRunEndb : ∃ (u : Nat) (_v : Nat) (d : Dressing) (s : State),
      u < 1344 ∧
      s.integ.dressings = [d] ∧
      d.u = u ∧
      s.mg.leases = [] ∧
      d.cut = true :=
  ⟨1343, 0, { drs with cut := true }, { own with integ := { own.integ with dressings := [{ drs with cut := true }] } }, by
    decide +kernel⟩

theorem test_witness_standbya : ∃ (_straps : Nat) (_resetN : Bool) (s : State),
      s.pins.vstby = false :=
  ⟨7, true, { own with pins := { own.pins with vstby := false } }, by
    decide +kernel⟩

theorem test_witness_standbyb : ∃ (s : State),
      s.pins.vstby = true :=
  ⟨own, by
    decide +kernel⟩

theorem test_witness_railsGoodAndLosta : ∃ (s : State),
      s.pins.vstby = true ∧
      s.pins.pwrGood = false :=
  ⟨own, by
    decide +kernel⟩

theorem test_witness_railsGoodAndLostb : ∃ (s : State),
      s.pins.vstby = true ∧
      s.pins.pwrGood = true :=
  ⟨powered, by
    decide +kernel⟩

theorem test_witness_resetPina : ∃ (s : State),
      s.pins.vstby = true ∧
      s.pins.resetN = true :=
  ⟨own, by
    decide +kernel⟩

theorem test_witness_resetPinb : ∃ (_straps : Nat) (s : State),
      s.pins.vstby = true ∧
      s.pins.resetN = false :=
  ⟨3, { own with pins := { own.pins with resetN := false } }, by
    decide +kernel⟩

theorem test_witness_wholeReset : ∃ (rq : Rq) (s : State),
      s.csRefusal rq (mgAddr 8192) true = none :=
  ⟨.firmware, own, by
    decide +kernel⟩

theorem test_witness_watchdog : ∃ (_done : Nat) (s : State),
      s.boot.running = true ∧
      s.fld fMG_START_STATUS_STATE = 0 ∧
      s.railsAwaited = false ∧
      s.boot.stepAt + 250000 * stepLimit (s.fld fMG_START_STATUS_STEP) ≤ s.now :=
  ⟨0, at1 (atStep 14) (250000 * 6000), by
    decide +kernel⟩

theorem test_witness_vcvto : ∃ (u : Nat) (x : Payload) (fmt : Nat) (r : List Nat × Nat) (s : State),
      s.issuesV u [] = true ∧
      fmt = fieldOf 3 4 (xFn x) ∧
      fmtIsMx fmt = false ∧
      fmtLevel fmt ≤ s.level u ∧
      r = cvtElts fmt ((xFn x).testBit 2) ((xFn x).testBit 0) (if (xFn x).testBit 1 = true then some (s.srDraws u 64).fst else none) (List.map (fun k => valF32 (s.vLane u (xA x) k)) (List.range 64)) :=
  ⟨0, pay 1 2 3 0, 0, _, run, by
    exact ⟨(by decide +kernel), (by decide +kernel), (by decide +kernel), (by decide +kernel), rfl⟩⟩

theorem test_witness_vcvtoMx : ∃ (u : Nat) (x : Payload) (fmt : Nat) (d : Option (List Nat)) (b0 : Nat × List Nat × Nat) (b1 : Nat × List Nat × Nat) (y0 : List Val) (y1 : List Val) (s : State),
      s.issuesV u [xB x] = true ∧
      fmt = fieldOf 3 4 (xFn x) ∧
      fmtIsMx fmt = true ∧
      fmtLevel fmt ≤ s.level u ∧
      (d = if (xFn x).testBit 1 = true then some (s.srDraws u 64).fst else none) ∧
      y0 = List.map (fun k => valF32 (s.vLane u (xA x) k)) (List.range 32) ∧
      y1 = List.map (fun k => valF32 (s.vLane u (xA x) (32 + k))) (List.range 32) ∧
      ((xFn x).testBit 1 = true → blockDraws ((xFn x).testBit 2) y0 = true ∧ blockDraws ((xFn x).testBit 2) y1 = true) ∧
      b0 = mxBlock fmt ((xFn x).testBit 2) (Option.map (fun l => List.take 32 l) d) ((xFn x).testBit 0) y0 ∧
      b1 = mxBlock fmt ((xFn x).testBit 2) (Option.map (fun l => List.drop 32 l) d) ((xFn x).testBit 0) y1 :=
  ⟨0, pay 1 2 3 0x50, 0xA, none, _, _, _, _, run, by
    exact ⟨(by decide +kernel), (by decide +kernel), (by decide +kernel), (by decide +kernel), rfl, rfl, rfl, fun h => absurd h (by decide), rfl, rfl⟩⟩

theorem test_witness_vcvtoMx_drawn : ∃ (u : Nat) (x : Payload) (fmt : Nat) (d : Option (List Nat)) (b0 : Nat × List Nat × Nat) (b1 : Nat × List Nat × Nat) (y0 : List Val) (y1 : List Val) (s : State),
      s.issuesV u [xB x] = true ∧
      fmt = fieldOf 3 4 (xFn x) ∧
      fmtIsMx fmt = true ∧
      fmtLevel fmt ≤ s.level u ∧
      (d = if (xFn x).testBit 1 = true then some (s.srDraws u 64).fst else none) ∧
      y0 = List.map (fun k => valF32 (s.vLane u (xA x) k)) (List.range 32) ∧
      y1 = List.map (fun k => valF32 (s.vLane u (xA x) (32 + k))) (List.range 32) ∧
      ((xFn x).testBit 1 = true → blockDraws ((xFn x).testBit 2) y0 = true ∧ blockDraws ((xFn x).testBit 2) y1 = true) ∧
      b0 = mxBlock fmt ((xFn x).testBit 2) (Option.map (fun l => List.take 32 l) d) ((xFn x).testBit 0) y0 ∧
      b1 = mxBlock fmt ((xFn x).testBit 2) (Option.map (fun l => List.drop 32 l) d) ((xFn x).testBit 0) y1 :=
  ⟨0, pay 1 2 3 0x52, 0xA, some (run.srDraws 0 64).1, _, _, _, _, run, by
    exact ⟨(by decide +kernel), (by decide +kernel), (by decide +kernel), (by decide +kernel), rfl, rfl, rfl, fun _ => (by decide +kernel), rfl, rfl⟩⟩

theorem test_witness_vcvti : ∃ (u : Nat) (x : Payload) (fmt : Nat) (r : Nat → BitVec 32 × Nat) (s : State),
      s.issuesV u [xB x] = true ∧
      fmt = fieldOf 3 4 (xFn x) ∧
      xFn x % 8 = 0 ∧
      fmtLevel fmt ≤ s.level u ∧
      (∀ (k : Nat), k < 64 → r k = cvtToF32 fmt (fieldOf (8 * (k / 32)) 8 (BitVec.toNat (s.sReg u (xB x)))) (eltOf (fmtBits fmt) (laneNat (s.vReg u (xA x))) k)) :=
  ⟨0, pay 1 2 3 0x48, 9, _, run, by
    exact ⟨(by decide +kernel), (by decide +kernel), (by decide +kernel), (by decide +kernel), fun k _ => rfl⟩⟩

theorem test_witness_vsplita : ∃ (u : Nat) (x : Payload) (s : State),
      s.issuesV u [] = true ∧
      3 ≤ s.level u ∧
      xD x % 2 = 0 :=
  ⟨0, pay 30 2 3 0, run, by
    decide +kernel⟩

theorem test_witness_vsplitb : ∃ (u : Nat) (x : Payload) (s : State),
      s.issuesV u [] = true ∧
      3 ≤ s.level u ∧
      xD x % 2 = 1 :=
  ⟨0, pay 31 2 3 0, run, by
    decide +kernel⟩

theorem test_witness_settingsa : ∃ (h : MsgHdr) (x : Session) (s : State) (w : Word),
      Claim.heard s h x Role.owner none ∧
      fieldOf 0 12 (BitVec.toNat w) ≤ min 2400 (s.fld fPW_CAP_PEAK_CAP) ∧
      600 ≤ fieldOf 0 12 (BitVec.toNat w) :=
  ⟨hd, ses 0, withSes own 0, 2400#64, by
    unfold Claim.heard; decide +kernel⟩

theorem test_witness_settingsba : ∃ (h : MsgHdr) (x : Session) (s : State) (_w : Word),
      Claim.heard s h x Role.owner none ∧
      s.anyOpen = false ∧
      s.tmBusy = false :=
  ⟨hd, ses 0, withSes rdy 0, 1000#64, by
    unfold Claim.heard; decide +kernel⟩

theorem test_witness_settingsbba : ∃ (h : MsgHdr) (x : Session) (s : State) (ws : List (Nat × Nat × Word)),
      Claim.heard s h x Role.owner none ∧
      settingsOk powerRows ws = false :=
  ⟨hd, ses 0, withSes own 0, [(rGL_IDENT, 0, 0#64)], by
    unfold Claim.heard; decide +kernel⟩

theorem test_witness_settingsbbb : ∃ (h : MsgHdr) (x : Session) (s : State) (ws : List (Nat × Nat × Word)),
      Claim.heard s h x Role.owner none ∧
      settingsOk siteRows ws = false :=
  ⟨hd, ses 0, withSes own 0, [(rGL_IDENT, 0, 0#64)], by
    unfold Claim.heard; decide +kernel⟩

theorem test_witness_leasesaa : ∃ (h : MsgHdr) (c : Nat) (mask : Nat) (start : Nat) (length : Nat) (x : Session) (s : State),
      Claim.heard s h x Role.either (some ((s.ownerOf c).getD 255)) ∧
      c < 48 ∧
      mask < 2 ^ 24 ∧
      length ≤ 2500000000 ∧
      s.leaseRefused c mask start = false :=
  ⟨hd, 47, 0, 15000000000, 2500000000, ses 0, withSes own 0, by
    unfold Claim.heard; decide +kernel⟩

theorem test_witness_leasesab : ∃ (h : MsgHdr) (c : Nat) (mask : Nat) (start : Nat) (length : Nat) (x : Session) (s : State),
      Claim.heard s h x Role.either (some ((s.ownerOf c).getD 255)) ∧
      c < 48 ∧
      mask < 2 ^ 24 ∧
      length ≤ 2500000000 ∧
      s.leaseRefused c mask start = true :=
  ⟨hd, 47, 2 ^ 24 - 1, 15000000001, 2500000000, ses 0, withSes own 0, by
    unfold Claim.heard; decide +kernel⟩

theorem test_witness_leasesb : ∃ (c : Nat) (x : Lease) (s : State),
      List.find? (fun x => x.c == c && s.leaseOver x) s.mg.leases = some x ∧
      s.fld fMG_LEDGER_STATUS_UNREAD = 0 :=
  ⟨47, lse, { own with mg := { own.mg with leases := [lse] } }, by
    decide +kernel⟩

def stg : Staged := ⟨[0], 0, none⟩
def withStg (s : State) : State := { s with mg := { s.mg with staged := some stg, commitAt := some 0 } }
def ctl (n : Nat) (m : Option Nat) : State := { own with mg := { own.mg with ctrl := n, lastMismatch := m } }
def cold : State := { paged own with hbm := own.hbm }
def psh (n : Nat) : Push := ⟨0, 4, n, 0⟩
def withPsh (n : Nat) : State := at1 { own with mg := { own.mg with pushes := [psh n] } } 25000000
def disc (src st : Nat) : State := puts rdy [(fTM_DISC_CFG_SOURCE, 0, 0, src), (fTM_DISC_STATUS_DISC_STATE, 0, 0, st)]
def evt : Ev := ⟨1, 0, 0, 0, 0, none, 0, 0, []⟩
def pwr (d : Nat) : State :=
  let s := own.put fCL_CM_POWER_STATE_PENDING 47 0 (2 ^ 31)
  { s with ms := { s.ms with powerDir := [(67071, d)] } }
def lq (sub sa sb sy q : Nat) : LPayload := BitVec.ofNat 58 (sa * 2 ^ 17 + sb * 2 ^ 8 + sub + (sy * 2 ^ 27 + q * 2 ^ 20) * 2 ^ 26)
def dN : State := sc 0x1000 0 0 (cm0 + 0x2000)
def dP : State := sc 196480 0 0 (cm0 + 0x2000)
def rxs : State := withCon (paged own) (con [])
def rpk (rkey : Nat) (bs : List (BitVec 8)) : Pkt := { pkt 0 bs with rkey := rkey }
def conF : Conn := { con [] with rxUsed := 16 }
def rxw : State := (rxs.regionWrite (.host 0 0) 0 0x2000 [7, 8]).2
def rxi : State := (rxw.writeAll (.host 0 0) 0x8000 (completionRecord 0 2 1 2 4294967295)).2
def rsd : State := (rxs.writeAll (.host 0 0) 0x4000 [7, 8]).2
def rsc : State := (rsd.writeAll (.host 0 0) 0x8000 (completionRecord 0 2 1 4 0)).2
def conC : Conn := { con [] with rate := 63 }
def steps : State :=
  puts rdy [(fTM_FUSE_VF_MHZ, 0, 0, 1000), (fTM_FUSE_VF_MV, 0, 0, 500), (fTM_FUSE_LIMITS_FMAX, 0, 0, 1300),
    (fTM_FUSE_LIMITS_VMIN, 0, 0, 400), (fTM_FUSE_LIMITS_VMAX, 0, 0, 900)]
def swi (d : Bool) (l : List (Nat × Nat)) : Switch := ⟨5, 7, 0, d, l⟩
def withSwi (n : Nat) (w : Switch) : State := at1 { rdy with tm := { rdy.tm with switch := some w } } n
def led1023 : State := { own with integ := { own.integ with ledger := [(1023, some lrec)] } }
def flt (m : Bool) : RedFlit := ⟨.coreDma 0, 1, cm0 + 0x1000, 0, List.replicate 16 1#32, m, 0, 0, none, false, none⟩
def ren (merges reply : Nat) (sent : Bool) : RedEntry := ⟨2, 0, cm0 + 0x1000, 0, List.replicate 16 1#32, merges, [flt true], 0, sent, reply, false⟩
def red (m : Bool) (rs : List RedEntry) : State :=
  { (own.put fNW_REDUCE_CFG_HOLD 0 0 1) with net := { own.net with flits := [flt m], reds := rs } }
def cap (ph n : Nat) : State :=
  let s := at1 (own.put fET_CKPT_CFG0_EN 0 0 1) n
  { s with ck := { s.ck with phase := nput [] 0 ph } }
def imgB : List (BitVec 8) := wordBytes [0x149524B48, 0, 0, 0, 0, 0, 0, 0, 0, 0, 0, 0, 0, 288]
def rsm (r : Nat) : State := inPage ((paged own).put fET_RESUME_STATUS_RESULT 0 0 r) 0 imgB
def rsmE (r : Nat) : Got (List (BitVec 8)) × State := ((rsm r).put fET_RESUME0_BASE 0 0 0).readImage 0
def rsmI (r : Nat) : List (BitVec 8) := match rsmE r with
  | (.ok i, _) => i
  | _ => []

theorem test_witness_updateaa : ∃ (h : MsgHdr) (_count : Nat) (force : Bool) (x : Session) (s : State),
      Claim.heard s h x Role.owner none ∧
      s.commitRefused force = false :=
  ⟨hd, 0, true, ses 0, withStg (withSes own 0), by
    unfold Claim.heard; decide +kernel⟩

theorem test_witness_updateab : ∃ (h : MsgHdr) (_count : Nat) (force : Bool) (x : Session) (s : State),
      Claim.heard s h x Role.owner none ∧
      s.commitRefused force = true ∧
      s.fld fMG_LEDGER_STATUS_UNREAD = 0 :=
  ⟨hd, 0, false, ses 0, withStg (withSes own 0), by
    unfold Claim.heard; decide +kernel⟩

theorem test_witness_updateb : ∃ (n : Nat) (g : Staged) (_intact : Bool) (s : State),
      s.mg.commitAt = some n ∧
      s.mg.staged = some g ∧
      s.mg.ctrl = 0 ∧
      n ≤ s.now :=
  ⟨0, stg, true, withStg own, by
    decide +kernel⟩

theorem test_witness_controlleraa : ∃ (s : State),
      s.mg.ctrl ≠ 2 ∧
      s.fld fMG_LEDGER_STATUS_UNREAD = 0 ∧
      (∀ (n : Nat), s.mg.lastMismatch = some n → n + 250000000 ≤ s.now) :=
  ⟨at1 (ctl 1 (some 0)) 250000000, by
    exact ⟨(by decide +kernel), (by decide +kernel), fun n h => by cases (show some 0 = some n from h); decide +kernel⟩⟩

theorem test_witness_controllerab : ∃ (s : State),
      s.mg.ctrl ≠ 2 ∧
      s.fld fMG_LEDGER_STATUS_UNREAD = 0 ∧
      (∃ n, s.mg.lastMismatch = some n ∧ s.now < n + 250000000) :=
  ⟨ctl 0 (some 0), by
    exact ⟨(by decide +kernel), (by decide +kernel), 0, (by decide +kernel), (by decide +kernel)⟩⟩

theorem test_witness_controllerbb : ∃ (s : State),
      s.mg.ctrl = 1 ∧
      s.fld fMG_LEDGER_STATUS_UNREAD = 0 :=
  ⟨ctl 1 none, by
    decide +kernel⟩

theorem test_witness_EveryStepKeepsCanonicalForm : ∃ (s : State) (t : State),
      s.canonical = true ∧
      step s = Host.Outcome.next t :=
  ⟨run, _, by
    exact ⟨(by decide +kernel), rfl⟩⟩

theorem test_witness_walka : ∃ (rq : Rq) (_op : Nat) (va : Nat) (l : Nat) (e : Nat) (wr : Bool) (ex : Bool) (s : State),
      rq.platform = false ∧
      va < 2 ^ 40 ∧
      s.lodgingOf rq = some l ∧
      l < 8 ∧
      s.walkReads rq l (va / 65536) = true ∧
      e = s.physNat (s.pteAddr l (va / 65536)) 8 ∧
      pteValid e = true ∧
      pteBad l e = false ∧
      (wr = true → pteWrite e = true) ∧
      (ex = true → pteExec e = true) :=
  ⟨.core 0, 0, 65535, 0, entry0, true, true, cold, by
    decide +kernel⟩

theorem test_witness_walkba : ∃ (rq : Rq) (_op : Nat) (va : Nat) (l : Nat) (_e : Nat) (_wr : Bool) (_ex : Bool) (s : State),
      rq.platform = false ∧
      va < 2 ^ 40 ∧
      s.lodgingOf rq = some l ∧
      l < 8 ∧
      s.fld fGL_PT_REGION_COUNT 0 l ≤ va / 65536 ∧
      s.fld fMG_LEDGER_STATUS_UNREAD = 0 :=
  ⟨.core 0, 0, 65536, 0, 0, true, true, cold, by
    decide +kernel⟩

theorem test_witness_walkbba : ∃ (rq : Rq) (_op : Nat) (va : Nat) (l : Nat) (_e : Nat) (_wr : Bool) (_ex : Bool) (s : State),
      rq.platform = false ∧
      va < 2 ^ 40 ∧
      s.lodgingOf rq = some l ∧
      l < 8 ∧
      s.walkReads rq l (va / 65536) = true ∧
      s.fld fMG_LEDGER_STATUS_UNREAD = 0 :=
  ⟨.core 0, 0, 65535, 0, 0, true, true, cold, by
    decide +kernel⟩

theorem test_witness_walkbbb : ∃ (rq : Rq) (_op : Nat) (va : Nat) (l : Nat) (_e : Nat) (_wr : Bool) (_ex : Bool) (s : State),
      rq.platform = false ∧
      va < 2 ^ 40 ∧
      s.lodgingOf rq = some l ∧
      l < 8 ∧
      nget s.hbm.tlb (tlbKey rq.cache l (va / 65536)) ≠ 0 ∧
      s.fld fMG_LEDGER_STATUS_UNREAD = 0 :=
  ⟨.core 0, 0, 65535, 0, 0, true, true, paged own, by
    decide +kernel⟩

theorem test_witness_invalidatea : ∃ (rq : Rq) (l : Nat) (_first : Nat) (_pages : Nat) (s : State),
      s.csRefusal rq (glAddr 1408) true = none ∧
      l < 8 ∧
      s.is fGL_TLB_STATUS_PENDING = false :=
  ⟨.firmware, 7, 0, 1, own, by
    decide +kernel⟩

theorem test_witness_invalidateb : ∃ (l : Nat) (first : Nat) (pages : Nat) (s : State),
      (s.hbm.inval = some (l, first, pages)) ∧
      s.mg.invals = [] :=
  ⟨7, 0, 1, { own with hbm := { own.hbm with inval := some (7, 0, 1) } }, by
    decide +kernel⟩

theorem test_witness_scruba : ∃ (rq : Rq) (first : Nat) (frames : Nat) (s : State),
      s.csRefusal rq (glAddr 1424) true = none ∧
      first < 2 ^ 24 ∧
      0 < frames ∧
      frames < 2 ^ 24 ∧
      s.hbm.scrubs.length < 16 :=
  ⟨.firmware, 2 ^ 24 - 1, 2 ^ 24 - 1, own, by
    decide +kernel⟩

theorem test_witness_scrubb : ∃ (first : Nat) (frames : Nat) (s : State),
      (s.hbm.scrubs = [(first, frames)]) ∧
      s.scrubPaused first frames = false ∧
      s.mg.toScrub = [] ∧
      s.mg.acts = [] :=
  ⟨0, 1, puts { own with hbm := { own.hbm with scrubs := [(0, 1)] } } ((List.range 12).map (fun k => (fHB_SCRUB_CFG_RATE, k, 0, 1))), by
    decide +kernel⟩

theorem test_witness_sessionsaa : ∃ (h : MsgHdr) (mgmt : Bool) (role : Nat) (l : Nat) (key : Nat) (vers : List (List Nat)) (s : State) (vs : List Nat),
      s.mg.ctrl = 0 ∧
      h.wellFormed = true ∧
      role < 2 ∧
      (s.ready = true ∨ role = 0) ∧
      h.queueFull = false ∧
      s.attachFails mgmt role l key = 0 ∧
      s.chooseVersions role l vers = some vs :=
  ⟨hd, true, 0, 0, 0, [[1], [0], [7, 3], [1]], rdy, [1, 0, 3, 1], by
    exact ⟨(by decide +kernel), (by decide +kernel), (by decide +kernel), Or.inl (by decide +kernel), (by decide +kernel), (by decide +kernel), (by decide +kernel)⟩⟩

theorem test_witness_sessionsab : ∃ (h : MsgHdr) (mgmt : Bool) (role : Nat) (l : Nat) (key : Nat) (_vers : List (List Nat)) (s : State),
      s.mg.ctrl = 0 ∧
      h.wellFormed = true ∧
      role < 2 ∧
      (s.ready = true ∨ role = 0) ∧
      h.queueFull = false ∧
      s.attachFails mgmt role l key ≠ 0 ∧
      s.fld fMG_LEDGER_STATUS_UNREAD = 0 :=
  ⟨hd, false, 0, 0, 0, [], rdy, by
    exact ⟨(by decide +kernel), (by decide +kernel), (by decide +kernel), Or.inl (by decide +kernel), (by decide +kernel), (by decide +kernel), (by decide +kernel)⟩⟩

theorem test_witness_sessionsba : ∃ (h : MsgHdr) (x : Session) (s : State),
      Claim.heard s h x Role.either none ∧
      s.fld fMG_LEDGER_STATUS_UNREAD = 0 :=
  ⟨hd, ses 1, withSes own 1, by
    unfold Claim.heard; decide +kernel⟩

theorem test_witness_sessionsbba : ∃ (n : Nat) (x : Session) (s : State),
      s.session n = some x ∧
      s.mg.ctrl = 0 ∧
      x.lastValid + 15000000000 ≤ s.now ∧
      s.fld fMG_LEDGER_STATUS_UNREAD = 0 :=
  ⟨1, ses 1, at1 (withSes own 1) 15000000000, by
    decide +kernel⟩

theorem test_witness_sessionsbbba : ∃ (h : MsgHdr) (x : Session) (s : State),
      Claim.heard s h x Role.owner none ∧
      s.otp.owners.length < 8 ∧
      s.fld fMG_LEDGER_STATUS_UNREAD = 0 :=
  ⟨hd, ses 0, withSes own 0, by
    unfold Claim.heard; decide +kernel⟩

theorem test_witness_sessionsbbbb : ∃ (h : MsgHdr) (x : Session) (s : State),
      Claim.heard s h x Role.owner none ∧
      8 ≤ s.otp.owners.length :=
  ⟨hd, ses 0, withSes { own with otp := { own.otp with owners := List.replicate 8 0 } } 0, by
    unfold Claim.heard; decide +kernel⟩

theorem test_witness_ledgerOverPorta : ∃ (h : MsgHdr) (_w : Nat) (_free : Bool) (x : Session) (s : State),
      Claim.heard s h x Role.either none :=
  ⟨hd, 0, true, ses 1, withSes own 1, by
    unfold Claim.heard; decide +kernel⟩

theorem test_witness_ledgerOverPortbaa : ∃ (dst : Nat) (written : Nat) (p : Push) (s : State),
      List.find? (fun p => p.dst == dst && p.written == written) s.mg.pushes = some p ∧
      s.mg.ctrl = 0 ∧
      p.last + 25000000 ≤ s.now ∧
      p.resends < 3 :=
  ⟨0, 4, psh 2, withPsh 2, by
    decide +kernel⟩

theorem test_witness_ledgerOverPortbab : ∃ (dst : Nat) (written : Nat) (p : Push) (s : State),
      List.find? (fun p => p.dst == dst && p.written == written) s.mg.pushes = some p ∧
      s.mg.ctrl = 0 ∧
      p.last + 25000000 ≤ s.now ∧
      3 ≤ p.resends ∧
      s.fld fMG_LEDGER_STATUS_UNREAD = 0 :=
  ⟨0, 4, psh 3, withPsh 3, by
    decide +kernel⟩

theorem test_witness_ledgerOverPortbb : ∃ (h : MsgHdr) (_written : Nat) (x : Session) (s : State),
      s.mg.ctrl = 0 ∧
      h.wellFormed = true ∧
      s.ready = true ∧
      h.queueFull = false ∧
      s.session h.session = some x ∧
      h.macOk = true :=
  ⟨hd, 4, ses 0, withSes own 0, by
    decide +kernel⟩

theorem test_witness_listsAndTelemetryaba : ∃ (h : MsgHdr) (x : Session) (s : State),
      Claim.heard s h x Role.owner none ∧
      s.otp.gens.length < 4 ∧
      s.fld fMG_DEFECT_STATUS_GENS_USED = s.otp.gens.length ∧
      s.fld fMG_LEDGER_STATUS_UNREAD = 0 :=
  ⟨hd, ses 0, withSes own 0, by
    unfold Claim.heard; decide +kernel⟩

theorem test_witness_listsAndTelemetryabba : ∃ (h : MsgHdr) (x : Session) (s : State) (v : Nat),
      Claim.heard s h x Role.owner none ∧
      s.minVersion < v ∧
      v < 2 ^ 32 ∧
      s.otp.minVersions.length < 16 :=
  ⟨hd, ses 0, withSes own 0, 2 ^ 32 - 1, by
    unfold Claim.heard; decide +kernel⟩

theorem test_witness_listsAndTelemetryabbb : ∃ (h : MsgHdr) (x : Session) (s : State) (v : Nat),
      Claim.heard s h x Role.owner none ∧
      v ≤ s.minVersion ∧
      s.fld fMG_LEDGER_STATUS_UNREAD = 0 :=
  ⟨hd, ses 0, withSes own 0, 0, by
    unfold Claim.heard; decide +kernel⟩

theorem test_witness_listsAndTelemetryba : ∃ (h : MsgHdr) (x : Session) (s : State),
      Claim.heard s h x Role.either none :=
  ⟨hd, ses 1, withSes own 1, by
    unfold Claim.heard; decide +kernel⟩

theorem test_witness_registerWrite : ∃ (rq : Rq) (a : Nat) (_w : Word) (r : Nat) (u : Nat) (i : Nat) (s : State),
      a % 8 = 0 ∧
      s.csRoute rq a = 0 ∧
      s.csHeld rq a = false ∧
      s.csRefusal rq a true = none ∧
      (csDecode a = some (r, u, i)) ∧
      (¬r ∈ Claim.ownRuleRows) :=
  ⟨.firmware, 0x0F0003000028, 7#64, rPW_CFG, 0, 0, own, by
    decide +kernel⟩

theorem test_witness_registerWriteRefused : ∃ (_rq : Rq) (a : Nat) (bytes : Nat) (_w : Word) (_s : State),
      (bytes ≠ 8 ∨ a % 8 ≠ 0) :=
  ⟨.core 0, 0x0F0003000018, 4, 7#64, own, by
    decide +kernel⟩

theorem test_witness_shCommit : ∃ (r : Nat) (u : Nat) (i : Nat) (w : Word) (s : State),
      u < 4096 ∧
      i < 2 ^ 20 ∧
      (¬r ∈ [rCO_SR_SEED, rTM_DISC_CFG, rMG_LEDGER_READ, rNW_OSTLER_CTRL]) ∧
      (s.sh = [(rkey r u i, w)]) ∧
      s.atCommit r i = true :=
  ⟨rET_CKPT_CFG0, 0, 7, 5#64, { own with sh := [(rkey rET_CKPT_CFG0 0 7, 5#64)] }, by
    decide +kernel⟩

theorem test_witness_sysOnwarda : ∃ (u : Nat) (x : Payload) (s : State),
      Claim.executes s u x [] ∧
      xFn x = 0 :=
  ⟨0, pay 0 0 0 0, run, by
    unfold Claim.executes; decide +kernel⟩

theorem test_witness_sysOnwardba : ∃ (u : Nat) (x : Payload) (s : State),
      Claim.executes s u x [] ∧
      xFn x = 2 ∧
      s.fencePending u (xB x % 16) = false :=
  ⟨0, pay 0 0 15 2, run, by
    unfold Claim.executes; decide +kernel⟩

theorem test_witness_sysOnwardbb : ∃ (u : Nat) (x : Payload) (s : State),
      Claim.executes s u x [xA x] ∧
      xFn x = 3 ∧
      semWordOk (BitVec.toNat (s.sReg u (xA x))) = true ∧
      semAmount (BitVec.toNat (s.sReg u (xA x))) = 0 :=
  ⟨0, pay 0 1 0 3, sc 5 0 0 0, by
    unfold Claim.executes; decide +kernel⟩

theorem test_witness_sysWaita : ∃ (u : Nat) (x : Payload) (s : State),
      Claim.executes s u x [] ∧
      xFn x = 2 ∧
      s.fencePending u (xB x % 16) = true :=
  ⟨0, pay 0 0 15 2, withOp run (lop []), by
    unfold Claim.executes; decide +kernel⟩

theorem test_witness_sysWaitb : ∃ (u : Nat) (x : Payload) (s : State),
      Claim.executes s u x [xA x] ∧
      xFn x = 3 ∧
      semWordOk (BitVec.toNat (s.sReg u (xA x))) = true ∧
      semAmount (BitVec.toNat (s.sReg u (xA x))) ≠ 0 :=
  ⟨0, pay 0 1 0 3, sc (5 + 2 ^ 32) 0 0 0, by
    unfold Claim.executes; decide +kernel⟩

theorem test_witness_semsiga : ∃ (u : Nat) (x : Payload) (s : State),
      Claim.executes s u x [xA x] ∧
      xFn x = 4 ∧
      semWordOk (BitVec.toNat (s.sReg u (xA x))) = true ∧
      (s.core.ops.any fun o => o.u == u) = false ∧
      (s.net.resps.any fun r => r.rq == Rq.core u) = false :=
  ⟨0, pay 0 1 0 4, sc (5 + 2 ^ 32) 0 0 0, by
    unfold Claim.executes; decide +kernel⟩

theorem test_witness_semsigb : ∃ (u : Nat) (x : Payload) (s : State),
      Claim.executes s u x [xA x] ∧
      xFn x = 4 ∧
      semWordOk (BitVec.toNat (s.sReg u (xA x))) = true ∧
      ((s.core.ops.any fun o => o.u == u) = true ∨ (s.net.resps.any fun r => r.rq == Rq.core u) = true) :=
  ⟨0, pay 0 1 0 4, withOp (sc (5 + 2 ^ 32) 0 0 0) (lop []), by
    unfold Claim.executes; decide +kernel⟩

theorem test_witness_icinv : ∃ (u : Nat) (x : Payload) (s : State),
      Claim.executes s u x [] ∧
      xFn x = 5 :=
  ⟨0, pay 0 0 0 5, run, by
    unfold Claim.executes; decide +kernel⟩

theorem test_witness_programEndsa : ∃ (u : Nat) (x : Payload) (s : State),
      Claim.executes s u x [] ∧
      xFn x = 1 :=
  ⟨0, pay 0 0 0 1, run, by
    unfold Claim.executes; decide +kernel⟩

theorem test_witness_programEndsb : ∃ (u : Nat) (s : State),
      s.fld fCO_CORE_STATUS_STATE u = 3 ∧
      (s.core.ops.any fun o => o.u == u) = false :=
  ⟨1343, run.put fCO_CORE_STATUS_STATE 1343 0 3, by
    decide +kernel⟩

theorem test_witness_sysReadsa : ∃ (u : Nat) (x : Payload) (s : State),
      Claim.executes s u x [xD x] ∧
      xFn x = 7 :=
  ⟨0, pay 31 0 0 7, run, by
    unfold Claim.executes; decide +kernel⟩

theorem test_witness_sysReadsba : ∃ (u : Nat) (x : Payload) (s : State),
      u < 1344 ∧
      Claim.executes s u x [xD x] ∧
      xFn x = 8 :=
  ⟨0, pay 31 0 0 8, run, by
    unfold Claim.executes; decide +kernel⟩

theorem test_witness_sysReadsbb : ∃ (u : Nat) (x : Payload) (s : State),
      Claim.executes s u x [xD x] ∧
      xFn x = 10 :=
  ⟨0, pay 31 0 0 10, run, by
    unfold Claim.executes; decide +kernel⟩

theorem test_witness_qput : ∃ (u : Nat) (x : Payload) (n : Nat) (s : State),
      (Claim.executes s u x [xA x, xB x]) ∧
      xFn x = 9 ∧
      3 ≤ s.level u ∧
      n = BitVec.toNat (s.sReg u (xB x)) % 16 ∧
      nget s.core.slotFull (redKey (u / 28) (s.logicalOf u) n) ≠ 1 ∧
      s.reduceWaits (u / 28) n = [] :=
  ⟨0, pay 0 1 2 9, 4, sc 7 20 0 0, by
    unfold Claim.executes; decide +kernel⟩

theorem test_witness_regionSynca : ∃ (s : State),
      s.atBoundary 250000 = true ∧
      s.tm.skew = [] :=
  ⟨rdy, by
    decide +kernel⟩

theorem test_witness_regionSyncba : ∃ (s : State) (r : Nat) (k : Nat),
      s.atBoundary 250000 = true ∧
      s.tm.skew = [] ∧
      r < 49 ∧
      k % 2 ^ 64 ≠ 0 :=
  ⟨rdy, 48, 1, by
    decide +kernel⟩

theorem test_witness_regionSyncbb : ∃ (s : State) (r : Nat) (k : Nat),
      s.atBoundary 250000 = true ∧
      (s.tm.skew = [(r, k)]) ∧
      r < 49 ∧
      k ≠ 0 ∧
      s.fld fMG_LEDGER_STATUS_UNREAD = 0 :=
  ⟨skewed rdy 48, 48, 1, by
    decide +kernel⟩

/-- A foreign transmitter has announced itself. -/
def discF : State := { disc 1 0 with tm := { (disc 1 0).tm with foreign := [[1]] } }

theorem test_witness_ptpSamplea : ∃ (port : Nat) (sub : Nat) (domain : Nat) (_time : Nat) (frac : Nat) (who : List Nat) (s : State),
      s.ready = true ∧
      s.fld fTM_DISC_CFG_SOURCE = 1 ∧
      s.mg.ctrl = 0 ∧
      s.fld fTM_DISC_CFG_PORT = port ∧
      s.fld fTM_DISC_CFG_SUBPORT = sub ∧
      s.fld fTM_DISC_CFG_DOMAIN = domain ∧
      frac < 256 ∧
      (¬who ∈ s.tm.foreign) ∧
      s.tm.foreign.length < 4 :=
  ⟨0, 0, 0, 0, 255, [1], disc 1 0, by
    decide +kernel⟩

theorem test_witness_ptpSamplebaa : ∃ (port : Nat) (sub : Nat) (domain : Nat) (time : Nat) (frac : Nat) (who : List Nat) (s : State) (off : Int),
      s.ready = true ∧
      s.fld fTM_DISC_CFG_SOURCE = 1 ∧
      s.mg.ctrl = 0 ∧
      s.fld fTM_DISC_CFG_PORT = port ∧
      s.fld fTM_DISC_CFG_SUBPORT = sub ∧
      s.fld fTM_DISC_CFG_DOMAIN = domain ∧
      frac < 256 ∧
      s.bestForeign = some who ∧
      off = ((256 * s.now + frac : Nat) : Int) - ↑time - s.tm.pathDelay ∧
      -2 ^ 31 ≤ off ∧
      off < 2 ^ 31 ∧
      off.natAbs ≤ 64000 * s.fld fTM_DISC_CFG_STEP_LIMIT :=
  ⟨0, 0, 0, 640000, 0, [1], discF, -640000, by
    decide +kernel⟩

theorem test_witness_ptpSamplebab : ∃ (port : Nat) (sub : Nat) (domain : Nat) (time : Nat) (frac : Nat) (who : List Nat) (s : State) (off : Int),
      s.ready = true ∧
      s.fld fTM_DISC_CFG_SOURCE = 1 ∧
      s.mg.ctrl = 0 ∧
      s.fld fTM_DISC_CFG_PORT = port ∧
      s.fld fTM_DISC_CFG_SUBPORT = sub ∧
      s.fld fTM_DISC_CFG_DOMAIN = domain ∧
      frac < 256 ∧
      s.bestForeign = some who ∧
      off = ((256 * s.now + frac : Nat) : Int) - ↑time - s.tm.pathDelay ∧
      -2 ^ 31 ≤ off ∧
      off < 2 ^ 31 ∧
      64000 * s.fld fTM_DISC_CFG_STEP_LIMIT < off.natAbs ∧
      s.fld fMG_LEDGER_STATUS_UNREAD = 0 :=
  ⟨0, 0, 0, 2 ^ 31, 0, [1], discF, -2 ^ 31, by
    decide +kernel⟩

theorem test_witness_ptpSamplebbba : ∃ (port : Nat) (sub : Nat) (domain : Nat) (time : Nat) (frac : Nat) (who : List Nat) (s : State) (t2 : Nat) (off : Int),
      s.ready = true ∧
      s.fld fTM_DISC_CFG_SOURCE = 1 ∧
      s.mg.ctrl = 0 ∧
      s.fld fTM_DISC_CFG_PORT = port ∧
      s.fld fTM_DISC_CFG_SUBPORT = sub ∧
      s.fld fTM_DISC_CFG_DOMAIN = domain ∧
      frac < 256 ∧
      s.bestForeign = some who ∧
      (s.tm.syncAt = some (who, t2)) ∧
      off = ↑t2 - ↑time - s.tm.pathDelay ∧
      off.natAbs ≤ 64000 * s.fld fTM_DISC_CFG_STEP_LIMIT ∧
      -2 ^ 31 ≤ off ∧
      off < 2 ^ 31 :=
  ⟨0, 0, 0, 640000, 255, [1], { discF with tm := { discF.tm with syncAt := some ([1], 0) } }, 0, -640000, by
    decide +kernel⟩

theorem test_witness_ptpSamplebbbb : ∃ (port : Nat) (sub : Nat) (domain : Nat) (_time : Nat) (frac : Nat) (who : List Nat) (s : State) (t1 : Nat) (t2 : Nat),
      s.ready = true ∧
      s.fld fTM_DISC_CFG_SOURCE = 1 ∧
      s.mg.ctrl = 0 ∧
      s.fld fTM_DISC_CFG_PORT = port ∧
      s.fld fTM_DISC_CFG_SUBPORT = sub ∧
      s.fld fTM_DISC_CFG_DOMAIN = domain ∧
      frac < 256 ∧
      s.bestForeign = some who ∧
      (s.tm.lastSync = some (t1, t2)) :=
  ⟨0, 0, 0, 0, 0, [1], { discF with tm := { discF.tm with lastSync := some (1, 2) } }, 1, 2, by
    decide +kernel⟩

theorem test_witness_ticksa : ∃ (frac : Nat) (s : State),
      s.ready = true ∧
      s.fld fTM_DISC_CFG_SOURCE = 1 ∧
      s.mg.ctrl = 0 ∧
      frac < 256 ∧
      s.txOpen (s.fld fTM_DISC_CFG_PORT) (s.fld fTM_DISC_CFG_SUBPORT) none = true :=
  ⟨255, disc 1 0, by
    decide +kernel⟩

theorem test_witness_ticksbaa : ∃ (frac : Nat) (s : State),
      s.fld fTM_DISC_CFG_SOURCE = 2 ∧
      frac < 256 ∧
      s.tm.everTicked = false ∧
      s.mg.ctrl = 0 :=
  ⟨255, disc 2 0, by
    decide +kernel⟩

theorem test_witness_ticksbab : ∃ (frac : Nat) (s : State),
      s.fld fTM_DISC_CFG_SOURCE = 2 ∧
      frac < 256 ∧
      s.tm.everTicked = true ∧
      s.fld fTM_DISC_STATUS_DISC_STATE ≠ 0 ∧
      256 * s.fld fTM_DISC_CFG_TICK_WINDOW < (((256 * s.now + frac : Nat) : Int) - ((256 * s.fld fTM_TICK_NEXT_COUNT : Nat) : Int)).natAbs :=
  ⟨255, { (at1 (disc 2 1) (2 ^ 40)) with tm := { rdy.tm with everTicked := true } }, by
    decide +kernel⟩

theorem test_witness_ticksbb : ∃ (gap : Nat) (s : State),
      (s.fld fTM_DISC_STATUS_DISC_STATE = 1 ∨ s.fld fTM_DISC_STATUS_DISC_STATE = 2) ∧
      (s.fld fTM_DISC_CFG_SOURCE = 1 ∧ gap = 750000000 ∨ s.fld fTM_DISC_CFG_SOURCE = 2 ∧ gap = 3 * s.tickPeriod) ∧
      s.tm.lastSample + gap ≤ s.now ∧
      s.fld fMG_LEDGER_STATUS_UNREAD = 0 :=
  ⟨750000000, at1 (disc 1 2) 750000000, by
    decide +kernel⟩

theorem test_witness_countMovesaa : ∃ (rq : Rq) (_n : Nat) (s : State),
      s.csRefusal rq (tmAddr 32) true = none ∧
      s.is fTM_DISC_STATUS_STEP_NEEDED = true :=
  ⟨.firmware, 5, rdy.put fTM_DISC_STATUS_STEP_NEEDED 0 0 1, by
    decide +kernel⟩

theorem test_witness_countMovesab : ∃ (rq : Rq) (_n : Nat) (s : State),
      s.csRefusal rq (tmAddr 32) true = none ∧
      s.is fTM_DISC_STATUS_STEP_NEEDED = false :=
  ⟨.firmware, 5, rdy, by
    decide +kernel⟩

theorem test_witness_countMovesba : ∃ (rq : Rq) (v : Nat) (s : State),
      s.csRefusal rq (tmAddr 0) true = none ∧
      v < 2 ^ 64 ∧
      s.anyOpen = false ∧
      s.tmBusy = false :=
  ⟨.firmware, 2 ^ 64 - 1, rdy, by
    decide +kernel⟩

theorem test_witness_countMovesbb : ∃ (rq : Rq) (v : Nat) (s : State),
      s.csRefusal rq (tmAddr 0) true = none ∧
      v < 2 ^ 64 ∧
      s.anyOpen = true :=
  ⟨.firmware, 2 ^ 64 - 1, own, by
    decide +kernel⟩

theorem test_witness_tickOuta : ∃ (s : State),
      s.atBoundary 250000000 = true ∧
      s.fld fTM_DISC_CFG_OUT_WIDTH ≠ 0 :=
  ⟨rdy.put fTM_DISC_CFG_OUT_WIDTH 0 0 1, by
    decide +kernel⟩

theorem test_witness_tickOutb : ∃ (s : State),
      s.pins.siteTickOut = true ∧
      s.tm.pulseAt + 250000 * s.fld fTM_DISC_CFG_OUT_WIDTH ≤ s.now :=
  ⟨at1 { rdy with pins := { rdy.pins with siteTickOut := true } } (2 ^ 40), by
    decide +kernel⟩

theorem test_witness_FullLedgerKeepsTheFirstAndTheNewestba : ∃ (e : Ev) (n : Nat) (s : State) (i : Nat),
      s.fld fMG_LEDGER_STATUS_UNREAD = 1024 ∧
      n = (s.fld fMG_LEDGER_READ_READ + 2047) % 1024 ∧
      (∀ (q : LedgerRec), s.recAt n = some q → ¬(q.event = e.event ∧ q.unit = e.unit ∧ q.waybill = e.waybill ∧ s.now ≤ q.time + 250000)) ∧
      i ≠ n :=
  ⟨evt, 1023, own.put fMG_LEDGER_STATUS_UNREAD 0 0 1024, 0, by
    exact ⟨(by decide +kernel), (by decide +kernel), (fun q h => nomatch (show (none : Option LedgerRec) = some q from h)), (by decide +kernel)⟩⟩

theorem test_witness_powerOffa : ∃ (rq : Rq) (u : Nat) (q : Nat) (s : State),
      u < 1344 ∧
      q < 4 ∧
      s.regGate rq (u / 28) = none ∧
      s.partPending (halfPart u q) = false ∧
      s.partOn (halfPart u q) = true :=
  ⟨.firmware, 1343, 3, own, by
    decide +kernel⟩

theorem test_witness_powerOffb : ∃ (rq : Rq) (c : Nat) (b : Nat) (s : State),
      c < 48 ∧
      b < 32 ∧
      s.regGate rq c = none ∧
      s.partPending (bankPart c b) = false ∧
      s.partOn (bankPart c b) = true :=
  ⟨.firmware, 47, 31, own, by
    decide +kernel⟩

theorem test_witness_powerOna : ∃ (rq : Rq) (u : Nat) (q : Nat) (s : State),
      u < 1344 ∧
      q < 4 ∧
      s.regGate rq (u / 28) = none ∧
      s.partPending (halfPart u q) = false ∧
      s.partOn (halfPart u q) = false :=
  ⟨.firmware, 1343, 3, own.put fCO_MEM_POWER_STATE 1343 0 0, by
    decide +kernel⟩

theorem test_witness_powerOnb : ∃ (rq : Rq) (c : Nat) (b : Nat) (s : State),
      c < 48 ∧
      b < 32 ∧
      s.regGate rq c = none ∧
      s.partPending (bankPart c b) = false ∧
      s.partOn (bankPart c b) = false :=
  ⟨.firmware, 47, 31, own.put fCL_CM_POWER_STATE_STATE 47 0 0, by
    decide +kernel⟩

theorem test_witness_powerCompletea : ∃ (k : Nat) (s : State),
      (k < 4 * 1344 ∨ 65536 ≤ k ∧ k < 65536 + 32 * 48) ∧
      s.partPending k = true ∧
      (s.ms.powerQueue.any fun p => p.fst == k) = false ∧
      nget s.ms.powerDir k = 1 :=
  ⟨67071, pwr 1, by
    decide +kernel⟩

theorem test_witness_powerCompleteb : ∃ (k : Nat) (s : State),
      (k < 4 * 1344 ∨ 65536 ≤ k ∧ k < 65536 + 32 * 48) ∧
      s.partPending k = true ∧
      (s.ms.powerQueue.any fun p => p.fst == k) = false ∧
      nget s.ms.powerDir k = 2 :=
  ⟨67071, pwr 2, by
    decide +kernel⟩

theorem test_witness_ld : ∃ (u : Nat) (x : Payload) (pa : Nat) (t0 : State) (s : State),
      (Claim.executes s u x [xD x, xA x]) ∧
      s.lsFree u 1 = true ∧
      lsFault (addrOf (s.sReg u (xA x)) (signed 10 (BitVec.toNat x) * 2 ^ xSz x)) (xSz x) = none ∧
      addrForm (addrOf (s.sReg u (xA x)) (signed 10 (BitVec.toNat x) * 2 ^ xSz x)) ≠ 2 ∧
      (s.request (Rq.core u) (addrOf (s.sReg u (xA x)) (signed 10 (BitVec.toNat x) * 2 ^ xSz x)) (2 ^ xSz x) true false false = (Got.ok pa, t0)) :=
  ⟨0, pay 5 1 24 1, cm0 + 0x1008, d4, d4, by
    unfold Claim.executes; decide +kernel⟩

theorem test_witness_st : ∃ (u : Nat) (x : Payload) (pa : Nat) (t0 : State) (s : State),
      (Claim.executes s u x [xD x, xA x]) ∧
      s.lsFree u 1 = true ∧
      lsFault (addrOf (s.sReg u (xA x)) (signed 10 (BitVec.toNat x) * 2 ^ xSz x)) (xSz x) = none ∧
      addrForm (addrOf (s.sReg u (xA x)) (signed 10 (BitVec.toNat x) * 2 ^ xSz x)) ≠ 2 ∧
      (s.request (Rq.core u) (addrOf (s.sReg u (xA x)) (signed 10 (BitVec.toNat x) * 2 ^ xSz x)) (2 ^ xSz x) false true false = (Got.ok pa, t0)) :=
  ⟨0, pay 5 1 24 1, cm0 + 0x1008, d4, d4, by
    unfold Claim.executes; decide +kernel⟩

theorem test_witness_ldStFaultaa : ∃ (u : Nat) (x : Payload) (a : Nat) (s : State),
      (Claim.executes s u x [xD x, xA x]) ∧
      s.lsFree u 1 = true ∧
      a = addrOf (s.sReg u (xA x)) (signed 10 (BitVec.toNat x) * 2 ^ xSz x) ∧
      a % 2 ^ xSz x ≠ 0 :=
  ⟨0, pay 5 1 24 0, cm0 + 0x1001, sc (cm0 + 0x1001) 0 0 0, by
    unfold Claim.executes; decide +kernel⟩

theorem test_witness_ldStFaultba : ∃ (u : Nat) (x : Payload) (a : Nat) (s : State),
      (Claim.executes s u x [xD x, xA x]) ∧
      s.lsFree u 1 = true ∧
      a = addrOf (s.sReg u (xA x)) (signed 10 (BitVec.toNat x) * 2 ^ xSz x) ∧
      a % 2 ^ xSz x = 0 ∧
      (addrForm a = 3 ∨ addrForm a = 2 ∧ xSz x ≠ 3) :=
  ⟨0, pay 5 1 24 0, cm0 + 0x300000000, sc (cm0 + 0x300000000) 0 0 0, by
    unfold Claim.executes; decide +kernel⟩

/-- One tile and one row of 8-bit elements. -/
def mlt : Latch := { lat with quad := [BitVec.ofNat 64 (2 ^ 61 + 2 ^ 57), 0, 0, 0], y := 196480 }

theorem test_witness_matmulTile : ∃ (u : Nat) (_id : Nat) (oa : Nat) (ob : Nat) (oy : Nat) (lt : Latch) (s : State),
      Claim.plainTile lt ∧
      walkPoint (((BitVec.toNat lt.a : Nat) : Int)) lt.da 0 = ↑oa ∧
      walkPoint (((BitVec.toNat lt.b : Nat) : Int)) lt.db 0 = ↑ob ∧
      walkPoint (((BitVec.toNat lt.y : Nat) : Int)) lt.dy 0 = ↑oy ∧
      oa % 16 = 0 ∧
      ob % 128 = 0 ∧
      oy % 128 = 0 ∧
      s.locErr MemKind.am u (↑oa) 32 true = none ∧
      s.locErr MemKind.wm u (↑ob) 1024 true = none ∧
      s.locErr MemKind.pm u (↑oy) 128 true = none :=
  ⟨0, 1, 0, 0, 196480, mlt, run, by
    unfold Claim.plainTile; decide +kernel⟩

/-- What has entered of a long instruction of the program of core 0. -/
def entered (opc : Nat) (w : LPayload) (s : State) : State := (s.enter 0 opc (ltOf s opc w) false 0).advance 0 8

/-- A PMCLR of 65,537 rows, one more than a step takes: the same row over and over. -/
def wMany : LPayload := lw 34 0 1 0 2 1 1
def dMany : State := dP.setD 0 1 [65537#64, 0, 0, 0, 0, 0, 0, BitVec.ofNat 64 (2 ^ 32)]

theorem test_one_row (i : Nat) : walkPoint (ltOf dMany 34 wMany).y.toNat (ltOf dMany 34 wMany).dy i = 196480 := by
  have hl : descLevels (ltOf dMany 34 wMany).dy = 1 := by decide +kernel
  have hs : descStride (ltOf dMany 34 wMany).dy 0 = 0 := by decide +kernel
  have ho : ((ltOf dMany 34 wMany).y.toNat : Int) + descOffset (ltOf dMany 34 wMany).dy = 196480 := by decide +kernel
  unfold walkPoint
  rw [hl, ho]
  change 196480 + (descStride (ltOf dMany 34 wMany).dy 0 * _ + 0) = 196480
  rw [hs]
  simp

theorem test_many_rows (s : State) (h : s.locErr .pm 0 196480 128 false = none) :
    (s.longStep 0 1 34 (ltOf dMany 34 wMany) {}).1.err = none ∧ (s.longStep 0 1 34 (ltOf dMany 34 wMany) {}).1.fault = none ∧
      (s.longStep 0 1 34 (ltOf dMany 34 wMany) {}).1.held = false ∧ (s.longStep 0 1 34 (ltOf dMany 34 wMany) {}).1.next ≠ none := by
  have hn : lSub (ltOf dMany 34 wMany).w0 = 0 := by decide +kernel
  have hq : (quadOf (ltOf dMany 34 wMany).quad).pair = false := by decide +kernel
  have hc : walkCount (ltOf dMany 34 wMany).dy = 65537 := by decide +kernel
  have e : s.longStep 0 1 34 (ltOf dMany 34 wMany) {} = (s.pmclrStep 0 (ltOf dMany 34 wMany) {}, s) := rfl
  rw [e]
  unfold State.pmclrStep
  simp only [hn, hq, hc, test_one_row]
  split
  · next bad =>
    obtain ⟨y, hy, hb⟩ := List.exists_of_findSome?_eq_some bad
    obtain ⟨i, _, rfl⟩ := List.mem_map.1 hy
    simp [h] at hb
  · simp [stepPoints]

theorem test_witness_longIssue_more : ∃ (u : Nat) (bcast : Bool) (w : LPayload) (c : Instr × Nat × List Nat) (lt : Latch) (s1 s : State),
      c ∈ Claim.unitCommands u bcast w ∧ lSub (lWord0 c.2.1 w) ∈ c.2.2 ∧ Claim.issuing s u c.2.1 bcast w lt ∧ Claim.alone s u ∧
      s1 = entered c.2.1 w s ∧ (s1.longStep u s.core.nextOp c.2.1 lt {}).1.err = none ∧
      (s1.longStep u s.core.nextOp c.2.1 lt {}).1.fault = none ∧ (s1.longStep u s.core.nextOp c.2.1 lt {}).1.held = false ∧
      (s1.longStep u s.core.nextOp c.2.1 lt {}).1.next ≠ none :=
  ⟨0, false, wMany, (.pmclr 0 false wMany, 0x22, List.range 16), ltOf dMany 34 wMany, entered 34 wMany dMany, dMany, by
    unfold Claim.issuing Claim.alone
    exact ⟨by decide +kernel, by decide +kernel,
      ⟨by decide +kernel, by decide +kernel, by decide +kernel, fun _ => by decide +kernel, fun h => absurd h (by decide)⟩,
      by decide +kernel, rfl, test_many_rows _ (by decide +kernel)⟩⟩

def clr : BQEntry := ⟨0, 0, 0, [0#64, 0#64, BitVec.ofNat 64 ((lWord0 34 (lq 0 1 2 1 0)).toNat + 2 ^ 32 * (lWord1 (lq 0 1 2 1 0)).toNat)], [], 0⟩
def bP : State := { dP with core := { dP.core with bq := [clr] } }

theorem test_witness_longIssue_unit : ∃ (u : Nat) (bcast : Bool) (w : LPayload) (c : Instr × Nat × List Nat) (lt : Latch) (s1 s : State),
      c ∈ Claim.unitCommands u bcast w ∧ lSub (lWord0 c.2.1 w) ∈ c.2.2 ∧ Claim.issuing s u c.2.1 bcast w lt ∧ Claim.alone s u ∧
      s1 = entered c.2.1 w s ∧ (s1.longStep u s.core.nextOp c.2.1 lt {}).1.err = none ∧
      (s1.longStep u s.core.nextOp c.2.1 lt {}).1.fault = none ∧ (s1.longStep u s.core.nextOp c.2.1 lt {}).1.held = false ∧
      (s1.longStep u s.core.nextOp c.2.1 lt {}).1.next = none :=
  ⟨0, false, lq 0 1 2 1 0, (.pmclr 0 false (lq 0 1 2 1 0), 0x22, List.range 16), ltOf dP 34 (lq 0 1 2 1 0),
    entered 34 (lq 0 1 2 1 0) dP, dP, by
    unfold Claim.issuing Claim.alone
    exact ⟨by decide +kernel, by decide +kernel,
      ⟨by decide +kernel, by decide +kernel, by decide +kernel, fun _ => by decide +kernel, fun h => absurd h (by decide)⟩,
      by decide +kernel, rfl, by decide +kernel⟩⟩

theorem test_witness_longIssue_broadcast : ∃ (u : Nat) (bcast : Bool) (w : LPayload) (c : Instr × Nat × List Nat) (lt : Latch) (s1 s : State),
      c ∈ Claim.unitCommands u bcast w ∧ lSub (lWord0 c.2.1 w) ∈ c.2.2 ∧ Claim.issuing s u c.2.1 bcast w lt ∧ Claim.alone s u ∧
      s1 = (s.bqPop u).enter u c.2.1 lt false 0 ∧ (s1.longStep u s.core.nextOp c.2.1 lt {}).1.err = none ∧
      (s1.longStep u s.core.nextOp c.2.1 lt {}).1.fault = none ∧ (s1.longStep u s.core.nextOp c.2.1 lt {}).1.held = false ∧
      (s1.longStep u s.core.nextOp c.2.1 lt {}).1.next = none :=
  ⟨0, true, lq 0 1 2 1 0, (.pmclr 0 true (lq 0 1 2 1 0), 0x22, List.range 16), bP.latchBcast 0 clr,
    (bP.bqPop 0).enter 0 34 (bP.latchBcast 0 clr) false 0, bP, by
    unfold Claim.issuing Claim.alone
    exact ⟨by decide +kernel, by decide +kernel,
      ⟨by decide +kernel, by decide +kernel, by decide +kernel, fun h => absurd h (by decide), fun _ => ⟨clr, by decide +kernel⟩⟩,
      by decide +kernel, rfl, by decide +kernel⟩⟩

theorem test_witness_longIssue_dma : ∃ (u : Nat) (bcast : Bool) (w : LPayload) (c : Instr × Nat × List Nat) (lt : Latch) (s1 s : State),
      c ∈ Claim.dmaCommands u bcast w ∧ lSub (lWord0 c.2.1 w) ∈ c.2.2 ∧ Claim.issuing s u c.2.1 bcast w lt ∧ Claim.alone s u ∧
      s1 = entered c.2.1 w s ∧ (s1.longStep u s.core.nextOp c.2.1 lt {}).1.err = none ∧
      (s1.longStep u s.core.nextOp c.2.1 lt {}).1.fault = none ∧ (s1.longStep u s.core.nextOp c.2.1 lt {}).1.held = false ∧
      (s1.longStep u s.core.nextOp c.2.1 lt {}).1.next = none :=
  ⟨0, false, dw 0, (.dmaGather 0 false (dw 0), 0x23, [0]), ltOf d4 35 (dw 0), entered 35 (dw 0) d4, d4, by
    unfold Claim.issuing Claim.alone
    exact ⟨by decide +kernel, by decide +kernel,
      ⟨by decide +kernel, by decide +kernel, by decide +kernel, fun _ => by decide +kernel, fun h => absurd h (by decide)⟩,
      by decide +kernel, rfl, by decide +kernel⟩⟩

/-- Bank 0 of the CM of cluster 0, where the source of the transfer lies, is frozen. -/
def dHeld : State := { d4 with net := { d4.net with frozen := [(ostlerAt 1 0 0, 1)] } }

theorem test_witness_longIssue_held : ∃ (u : Nat) (bcast : Bool) (w : LPayload) (c : Instr × Nat × List Nat) (lt : Latch) (s1 s : State),
      c ∈ Claim.dmaCommands u bcast w ∧ lSub (lWord0 c.2.1 w) ∈ c.2.2 ∧ Claim.issuing s u c.2.1 bcast w lt ∧ Claim.alone s u ∧
      s1 = entered c.2.1 w s ∧ (s1.longStep u s.core.nextOp c.2.1 lt {}).1.err = none ∧
      (s1.longStep u s.core.nextOp c.2.1 lt {}).1.fault = none ∧ (s1.longStep u s.core.nextOp c.2.1 lt {}).1.held = true :=
  ⟨0, false, dw 0, (.dmaGather 0 false (dw 0), 0x23, [0]), ltOf dHeld 35 (dw 0), entered 35 (dw 0) dHeld, dHeld, by
    unfold Claim.issuing Claim.alone
    exact ⟨by decide +kernel, by decide +kernel,
      ⟨by decide +kernel, by decide +kernel, by decide +kernel, fun _ => by decide +kernel, fun h => absurd h (by decide)⟩,
      by decide +kernel, rfl, by decide +kernel⟩⟩

theorem test_witness_pmclrStep : ∃ (u : Nat) (_id : Nat) (n : Nat) (lt : Latch) (s : State),
      pmclrCheck lt = none ∧
      (lSub lt.w0 = 0 ∧ n = 32 ∨ lSub lt.w0 = 1 ∧ n = 16) ∧
      Claim.rowsInPm s u n (quadOf lt.quad).pair false lt.y lt.dy :=
  ⟨0, 1, 32, ltOf dP 34 (lq 0 1 2 1 0), dP, by
    unfold Claim.rowsInPm; decide +kernel⟩

theorem test_witness_pmoutStep : ∃ (u : Nat) (_id : Nat) (pa : Nat) (ya : Nat) (lt : Latch) (s : State),
      lt.quad = [] ∧
      lSub lt.w0 = 0 ∧
      lSB lt.w0 = 0 ∧
      walkCount lt.da = 1 ∧
      walkCount lt.dy = 1 ∧
      Claim.rowsInPm s u 32 false true lt.a lt.da ∧
      walkPoint (((BitVec.toNat lt.y : Nat) : Int)) lt.dy 0 = ↑ya ∧
      addrForm ya = 1 ∧
      ya % 64 = 0 ∧
      s.traffic = [] ∧
      (s.request (s.outRq u lt ya) ya 64 false true false = (Got.ok pa, s)) ∧
      (s.request (s.outRq u lt ya) (ya + 64) 64 false true false = (Got.ok (pa + 64), s)) :=
  ⟨0, 1, cm0 + 0x2000, cm0 + 0x2000, ltOf dP 33 (lq 0 1 0 4 0), dP, by
    unfold Claim.rowsInPm; decide +kernel⟩

theorem test_witness_reduceStep : ∃ (u : Nat) (_id : Nat) (lt : Latch) (xs : List (BitVec 32 × Nat)) (t : State) (s : State),
      reduceCheck lt = none ∧
      walkCount lt.da ≠ 0 ∧
      walkCount lt.da ≤ reduceStepElts (quadOf lt.quad) lt ∧
      (s.reduceElts u (quadOf lt.quad) lt (List.range (walkCount lt.da)) = (Except.ok xs, t)) :=
  ⟨0, 1, ltOf d4 36 (lq 0 1 2 3 0), [(0, 0)],
    (d4.reduceElts 0 (quadOf (ltOf d4 36 (lq 0 1 2 3 0)).quad) (ltOf d4 36 (lq 0 1 2 3 0)) (List.range (walkCount (ltOf d4 36 (lq 0 1 2 3 0)).da))).2, d4, by
    exact ⟨(by decide +kernel), (by decide +kernel), (by decide +kernel), Prod.ext (by cbv) rfl⟩⟩

set_option maxRecDepth 20000 in
theorem test_witness_zmapStepa : ∃ (u : Nat) (_id : Nat) (lt : Latch) (z : Bool) (t : State) (s : State),
      descLevels lt.da = 0 ∧
      (s.zmapRuns u (quadOf lt.quad) lt [0] = (Except.ok [z], t)) ∧
      t.locErr MemKind.am u (↑(quadOf lt.quad).zoutBase) 1 false = none :=
  ⟨0, 1, ltOf d4 37 (lq 0 1 2 3 2), true,
    (d4.zmapRuns 0 (quadOf (ltOf d4 37 (lq 0 1 2 3 2)).quad) (ltOf d4 37 (lq 0 1 2 3 2)) [0]).2, d4, by
    exact ⟨(by decide +kernel), Prod.ext (by cbv) rfl, (by decide +kernel)⟩⟩

theorem test_witness_rdmaWritea : ∃ (p : Pkt) (x : Conn) (x' : Conn) (n : Nat) (u : State) (s : State),
      Claim.taken s p x ∧
      p.psn = x.recvPsn ∧
      p.first = true ∧
      p.last = true ∧
      p.payload.length = p.len ∧
      p.len ≤ x.req.mtu ∧
      (s.putConn (Claim.here x)).regionFault (Rq.host x.l x.req.port) x.l p.rkey p.addr p.len true = none ∧
      ((s.putConn (Claim.here x)).regionWrite (Rq.host x.l x.req.port) (p.rkey / 2 ^ 28) p.addr p.payload = (Got.ok (), u)) ∧
      u.conn p.l p.c = some x' ∧
      Claim.sends u x' n :=
  ⟨pkt 0 [7, 8], con [], con [], 0, rxw, rxs, by
    unfold Claim.taken Claim.sends Claim.here; decide +kernel⟩

theorem test_witness_rdmaWriteb : ∃ (p : Pkt) (x : Conn) (_x' : Conn) (n : Nat) (_u : State) (s : State) (e : Nat),
      Claim.taken s p x ∧
      p.psn = x.recvPsn ∧
      p.first = true ∧
      p.last = true ∧
      p.payload.length = p.len ∧
      p.len ≤ x.req.mtu ∧
      (s.putConn (Claim.here x)).regionFault (Rq.host x.l x.req.port) x.l p.rkey p.addr p.len true = some e ∧
      p.rkey / 2 ^ 28 ≠ 2 ∧
      Claim.sends s x n ∧
      s.fld fMG_LEDGER_STATUS_UNREAD = 0 :=
  ⟨rpk 5 [7, 8], con [], con [], 0, rxs, rxs, nakAccess, by
    unfold Claim.taken Claim.sends Claim.here; decide +kernel⟩

theorem test_witness_rdmaWriteImm : ∃ (p : Pkt) (x : Conn) (x' : Conn) (n : Nat) (u : State) (v : State) (s : State),
      Claim.taken s p x ∧
      p.psn = x.recvPsn ∧
      p.first = true ∧
      p.last = true ∧
      p.payload.length = p.len ∧
      p.len ≤ x.req.mtu ∧
      rxFull x = false ∧
      s.completionHeld x.l = false ∧
      (s.putConn (Claim.here x)).regionFault (Rq.host x.l x.req.port) x.l p.rkey p.addr p.len true = none ∧
      ((s.putConn (Claim.here x)).regionWrite (Rq.host x.l x.req.port) (p.rkey / 2 ^ 28) p.addr p.payload = (Got.ok (), u)) ∧
      u.conn p.l p.c = some x' ∧
      (u.writeAll (Rq.host x'.l x'.req.port) (x'.req.cplRing + 16 * (x'.rxNext % 2 ^ x'.req.rxBits)) (completionRecord (p.imm % 2 ^ 32) p.len x'.req.c 2 4294967295) = (Got.ok (), v)) ∧
      v.conn p.l p.c = some x' ∧
      Claim.sends v x' n ∧
      x'.req.flagK < 4096 :=
  ⟨pkt 0 [7, 8], con [], con [], 0, rxw, rxi, rxs, by
    unfold Claim.taken Claim.sends Claim.here; decide +kernel⟩

theorem test_witness_rdmaRead : ∃ (p : Pkt) (x : Conn) (x' : Conn) (n : Nat) (bs : List (BitVec 8)) (u : State) (s : State),
      Claim.taken s p x ∧
      p.psn = x.recvPsn ∧
      (s.putConn (Claim.here x)).regionFault (Rq.host x.l x.req.port) x.l p.rkey p.addr p.len false = none ∧
      ((s.putConn (Claim.here x)).regionRead (Rq.host x.l x.req.port) (p.rkey / 2 ^ 28) p.addr p.len = (Got.ok bs, u)) ∧
      u.conn p.l p.c = some x' ∧
      bs.length ≤ x'.req.mtu ∧
      Claim.sends u x' n :=
  ⟨pkt 0 [7, 8], con [], con [], 0, [0, 0], ((rxs.putConn (Claim.here (con []))).regionRead (Rq.host 0 0) 0 0x2000 2).2, rxs, by
    unfold Claim.taken Claim.sends Claim.here; decide +kernel⟩

theorem test_witness_senda : ∃ (p : Pkt) (x : Conn) (n : Nat) (imm : Nat) (op : Nat) (i : Instr) (s : State) (u : State) (v : State),
      Claim.taken s p x ∧
      p.psn = x.recvPsn ∧
      p.first = true ∧
      p.last = true ∧
      (i = Instr.send p ∧ imm = 0 ∧ op = 4 ∨ i = Instr.sendWithImmediate p ∧ imm = p.imm % 2 ^ 32 ∧ op = 5) ∧
      rxFull x = false ∧
      p.payload.length ≤ x.req.rxSize ∧
      s.completionHeld x.l = false ∧
      ((s.putConn (Claim.here x)).writeAll (Rq.host x.l x.req.port) (x.req.rxRing + x.rxNext % 2 ^ x.req.rxBits * x.req.rxSize) p.payload = (Got.ok (), u)) ∧
      (u.writeAll (Rq.host x.l x.req.port) (x.req.cplRing + 16 * (x.rxNext % 2 ^ x.req.rxBits)) (completionRecord imm p.payload.length x.req.c op (x.rxNext % 2 ^ x.req.rxBits)) = (Got.ok (), v)) ∧
      v.conn p.l p.c = some (Claim.here x) ∧
      Claim.sends v x n ∧
      x.req.flagK < 4096 :=
  ⟨pkt 0 [7, 8], con [], 0, 0, 4, .send (pkt 0 [7, 8]), rxs, rsd, rsc, by
    unfold Claim.taken Claim.sends Claim.here; decide +kernel⟩

theorem test_witness_sendb : ∃ (p : Pkt) (x : Conn) (n : Nat) (imm : Nat) (op : Nat) (i : Instr) (s : State),
      Claim.taken s p x ∧
      p.psn = x.recvPsn ∧
      p.first = true ∧
      p.last = true ∧
      (i = Instr.send p ∧ imm = 0 ∧ op = 4 ∨ i = Instr.sendWithImmediate p ∧ imm = p.imm % 2 ^ 32 ∧ op = 5) ∧
      rxFull x = true ∧
      Claim.sends s x n :=
  ⟨pkt 0 [7, 8], conF, 0, 0, 4, .send (pkt 0 [7, 8]), withCon own conF, by
    unfold Claim.taken Claim.sends; decide +kernel⟩

theorem test_witness_unsupportedAndCnpa : ∃ (p : Pkt) (x : Conn) (n : Nat) (s : State),
      Claim.taken s p x ∧
      p.psn = x.recvPsn ∧
      Claim.sends s x n ∧
      s.fld fMG_LEDGER_STATUS_UNREAD = 0 :=
  ⟨pkt 0 [], con [], 0, rxs, by
    unfold Claim.taken Claim.sends; decide +kernel⟩

theorem test_witness_unsupportedAndCnpba : ∃ (p : Pkt) (x : Conn) (s : State),
      Claim.taken s p x :=
  ⟨pkt 0 [], con [], rxs, by
    unfold Claim.taken; decide +kernel⟩

theorem test_witness_unsupportedAndCnpbb : ∃ (l : Nat) (c : Nat) (x : Conn) (s : State),
      s.conn l c = some x ∧
      x.rate < 64 ∧
      x.rateAt + 12500 ≤ s.now :=
  ⟨0, 1, conC, at1 (withCon own conC) 12500, by
    decide +kernel⟩

theorem test_witness_immediatesa : ∃ (u : Nat) (x : Payload) (s : State),
      (Claim.executes s u x [xD x, xA x]) :=
  ⟨0, pay 31 1 0 0, d4, by
    unfold Claim.executes; decide +kernel⟩

theorem test_witness_shia : ∃ (u : Nat) (x : Payload) (s : State) (w : Word),
      (Claim.executes s u x [xD x, xA x]) ∧
      fieldOf 8 4 (BitVec.toNat x) = 0 ∧
      (fieldOf 6 2 (BitVec.toNat x) = 0 ∧ w = BitVec.ofNat 64 (BitVec.toNat (s.sReg u (xA x)) * 2 ^ fieldOf 0 6 (BitVec.toNat x)) ∨ fieldOf 6 2 (BitVec.toNat x) = 1 ∧ w = BitVec.ofNat 64 (BitVec.toNat (s.sReg u (xA x)) / 2 ^ fieldOf 0 6 (BitVec.toNat x)) ∨ fieldOf 6 2 (BitVec.toNat x) = 2 ∧ w = BitVec.ofInt 64 ((BitVec.toInt (s.sReg u (xA x))).fdiv (2 ^ fieldOf 0 6 (BitVec.toNat x)))) :=
  ⟨0, pay 31 2 0 63, d4, BitVec.ofNat 64 (4 * 2 ^ 63), by
    unfold Claim.executes; decide +kernel⟩

theorem test_witness_shib : ∃ (u : Nat) (x : Payload) (s : State),
      (Claim.executes s u x [xD x, xA x]) ∧
      (fieldOf 8 4 (BitVec.toNat x) ≠ 0 ∨ fieldOf 6 2 (BitVec.toNat x) = 3) :=
  ⟨0, pay 31 2 0 192, d4, by
    unfold Claim.executes; decide +kernel⟩

theorem test_witness_lih : ∃ (u : Nat) (x : Payload) (s : State),
      s.issues u [lihRd x] = true ∧
      fieldOf 16 2 (BitVec.toNat x) = 0 :=
  ⟨0, BitVec.ofNat 26 (2 ^ 21 + 0xFFFF), run, by
    decide +kernel⟩

theorem test_witness_cmp : ∃ (u : Nat) (x : Payload) (r : Bool) (s : State),
      (Claim.executes s u x [xA x, xB x]) ∧
      xD x < 8 ∧
      Claim.condition (xFn x) (s.sReg u (xA x)) (s.sReg u (xB x)) = some r :=
  ⟨0, pay 7 1 2 5, true, d4, by
    unfold Claim.executes; decide +kernel⟩

theorem test_witness_ploga : ∃ (u : Nat) (x : Payload) (s : State) (f : Bool → Bool → Bool),
      (Claim.executes s u x [xD x, xA x]) ∧
      (xFn x = 0 ∧ f = and ∨ xFn x = 1 ∧ f = or ∨ xFn x = 2 ∧ f = xor ∨ (xFn x = 3 ∧ f = fun a b => a && !b) ∨ xFn x = 4 ∧ f = fun a _ => !a) :=
  ⟨0, pay 7 1 2 2, d4, xor, by
    unfold Claim.executes; exact ⟨(by decide +kernel), Or.inr (Or.inr (Or.inl ⟨(by decide +kernel), rfl⟩))⟩⟩

theorem test_witness_plogba : ∃ (u : Nat) (x : Payload) (s : State),
      (Claim.executes s u x [xD x, xA x]) ∧
      xFn x = 5 :=
  ⟨0, pay 7 1 2 5, d4, by
    unfold Claim.executes; decide +kernel⟩

theorem test_witness_plogbb : ∃ (u : Nat) (x : Payload) (s : State),
      (Claim.executes s u x [xD x, xA x]) ∧
      xFn x = 6 :=
  ⟨0, pay 7 1 2 6, d4, by
    unfold Claim.executes; decide +kernel⟩

theorem test_witness_cmpPlogReserveda : ∃ (u : Nat) (x : Payload) (s : State),
      (Claim.executes s u x [xA x, xB x]) ∧
      (fieldOf 4 3 (xFn x) ≠ 0 ∨ fieldOf 3 2 (xD x) ≠ 0) :=
  ⟨0, pay 8 1 2 0, d4, by
    unfold Claim.executes; decide +kernel⟩

theorem test_witness_cmpPlogReservedb : ∃ (u : Nat) (x : Payload) (s : State),
      (Claim.executes s u x [xD x, xA x]) ∧
      6 < xFn x :=
  ⟨0, pay 7 1 2 7, d4, by
    unfold Claim.executes; decide +kernel⟩

theorem test_witness_branchesa : ∃ (u : Nat) (x : Payload) (r : Bool) (s : State),
      (s.issues u [xD x, xA x] = true) ∧
      Claim.condition (fieldOf 22 4 (BitVec.toNat x)) (s.sReg u (xD x)) (s.sReg u (xA x)) = some r :=
  ⟨0, pay 1 2 0 0 + 3#26 <<< 22, true, d4, by
    decide +kernel⟩

theorem test_witness_branchesb : ∃ (u : Nat) (x : Payload) (s : State),
      Claim.executes s u x [] :=
  ⟨0, pay 1 2 0 0, run, by
    unfold Claim.executes; decide +kernel⟩

theorem test_witness_jra : ∃ (u : Nat) (x : Payload) (s : State),
      (Claim.executes s u x [xD x, xA x]) ∧
      BitVec.toNat (s.sReg u (xA x)) % 4 = 0 ∧
      BitVec.toNat (s.sReg u (xA x)) < 2 ^ 40 :=
  ⟨0, pay 31 2 0 0, d4, by
    unfold Claim.executes; decide +kernel⟩

theorem test_witness_jrb : ∃ (u : Nat) (x : Payload) (s : State),
      (Claim.executes s u x [xD x, xA x]) ∧
      (BitVec.toNat (s.sReg u (xA x)) % 4 ≠ 0 ∨ 2 ^ 40 ≤ BitVec.toNat (s.sReg u (xA x))) :=
  ⟨0, pay 31 1 0 0, d4, by
    unfold Claim.executes; decide +kernel⟩

theorem test_witness_FalsePredicateOnlyAdvances : ∃ (u : Nat) (x : Payload) (s : State) (c : Instr),
      c ∈ Claim.predicatedCommands u x ∧
      (∀ (regs : List Nat), s.issues u regs = true) ∧
      s.lsFree u 1 = true ∧
      s.predOk u (xPred x) (xNeg x) = false :=
  ⟨0, 1#26 <<< 23, run, .st 0 (1#26 <<< 23), by
    exact ⟨(by decide +kernel), fun _ => by cbv, (by decide +kernel), (by decide +kernel)⟩⟩

theorem test_witness_LedgerReadFreesUpToTheNewIndexa : ∃ (rq : Rq) (v : Nat) (n : Nat) (s : State),
      v < 1024 ∧
      s.csRefusal rq (mgAddr 4104) true = none ∧
      n = (v + 1024 - s.fld fMG_LEDGER_READ_READ) % 1024 ∧
      n ≤ s.fld fMG_LEDGER_STATUS_UNREAD :=
  ⟨.firmware, 1, 2, puts own [(fMG_LEDGER_STATUS_UNREAD, 0, 0, 2), (fMG_LEDGER_READ_READ, 0, 0, 1023)], by
    decide +kernel⟩

theorem test_witness_LedgerReadFreesUpToTheNewIndexba : ∃ (rq : Rq) (v : Nat) (n : Nat) (s : State),
      v < 1024 ∧
      s.csRefusal rq (mgAddr 4104) true = none ∧
      n = (v + 1024 - s.fld fMG_LEDGER_READ_READ) % 1024 ∧
      s.fld fMG_LEDGER_STATUS_UNREAD < n :=
  ⟨.firmware, 1023, 1023, own, by
    decide +kernel⟩

theorem test_witness_LedgerReadFreesUpToTheNewIndexbb : ∃ (rq : Rq) (v : Nat) (n : Nat) (s : State),
      v < 1024 ∧
      s.csRefusal rq (mgAddr 4104) true = none ∧
      n = (v + 1024 - s.fld fMG_LEDGER_READ_READ) % 1024 ∧
      v = s.fld fMG_LEDGER_READ_READ :=
  ⟨.firmware, 0, 0, own, by
    decide +kernel⟩

theorem test_witness_hbmAccessab : ∃ (rq : Rq) (_op : Nat) (pa : Nat) (raw : Bool) (s : State) (bs : List (Option (BitVec 8))),
      pa < hbmSize ∧
      pa % 64 = 0 ∧
      (rq.platform = true ∨ raw = false ∧ pa / 65536 < 12566528) ∧
      s.stackHeld rq pa = false ∧
      bs.length = 64 :=
  ⟨.firmware, 0, hbmSize - 64, true, own, List.replicate 64 none, by
    decide +kernel⟩

theorem test_witness_hbmAccessb : ∃ (rq : Rq) (_op : Nat) (pa : Nat) (raw : Bool) (s : State) (_write : Option (List (Option (BitVec 8)))) (_parity : Nat) (_ecc : Nat),
      pa < hbmSize ∧
      pa % 64 = 0 ∧
      rq.platform = false ∧
      (raw = true ∨ 12566528 ≤ pa / 65536) ∧
      s.fld fMG_LEDGER_STATUS_UNREAD = 0 :=
  ⟨.core 0, 0, 0, true, own, none, 0, 0, by
    decide +kernel⟩

theorem test_witness_hbmErrorsa : ∃ (rq : Rq) (_op : Nat) (pa : Nat) (n : Nat) (s : State),
      pa < hbmSize ∧
      pa % 64 = 0 ∧
      s.stackHeld rq pa = false ∧
      (rq.platform = true ∨ pa / 65536 < 12566528) ∧
      s.fld fMG_LEDGER_STATUS_UNREAD = 0 ∧
      (n = 1 ∨ n = 2) ∧
      nget s.net.summed (256 * 8452 + s.stackOf pa) ≠ s.now / 250000 + 1 :=
  ⟨.firmware, 0, hbmSize - 64, 2, own, by
    decide +kernel⟩

theorem test_witness_hbmErrorsba : ∃ (rq : Rq) (_op : Nat) (pa : Nat) (n : Nat) (s : State) (write : Option (List (Option (BitVec 8)))),
      pa < hbmSize ∧
      pa % 64 = 0 ∧
      s.stackHeld rq pa = false ∧
      (rq.platform = true ∨ pa / 65536 < 12566528) ∧
      s.fld fMG_LEDGER_STATUS_UNREAD = 0 ∧
      (n = 1 ∨ n = 2) ∧
      (∀ (bs : List (Option (BitVec 8))), write = some bs → narrow bs = true) ∧
      nget s.net.summed (256 * 8449 + s.stackOf pa) ≠ s.now / 250000 + 1 :=
  ⟨.firmware, 0, hbmSize - 64, 2, own, some (some 1 :: List.replicate 63 none), by
    refine ⟨by decide +kernel, by decide +kernel, by decide +kernel, by decide +kernel, by decide +kernel, by decide +kernel, ?_,
      by decide +kernel⟩
    intro bs h
    cases h
    decide +kernel⟩

theorem test_witness_hbmUpkeepa : ∃ (counts : List Nat) (s : State),
      s.atBoundary 250000000 = true ∧
      s.mg.ctrl = 0 ∧
      (∀ (k : Nat), k < 12 → counts.getD k 0 ≤ nget s.hbm.ecs k) :=
  ⟨[], own, by
    decide +kernel⟩

theorem test_witness_hbmUpkeepba : ∃ (counts : List Nat) (k : Nat) (s : State),
      s.atBoundary 250000000 = true ∧
      s.mg.ctrl = 0 ∧
      k < 12 ∧
      (∀ (j : Nat), j < 12 → j ≠ k → counts.getD j 0 ≤ nget s.hbm.ecs j) ∧
      nget s.hbm.ecs k < counts.getD k 0 ∧
      s.fld fMG_LEDGER_STATUS_UNREAD = 0 :=
  ⟨List.replicate 11 0 ++ [1], 11, own, by
    decide +kernel⟩

theorem test_witness_hbmUpkeepbba : ∃ (k : Nat) (pc : Nat) (bank : Nat) (mgmt : Bool) (s : State),
      k < 12 ∧
      pc < 64 ∧
      bank < 64 ∧
      s.refreshDue k (64 * (64 * k + pc) + bank) mgmt = true :=
  ⟨11, 63, 63, false, own, by
    decide +kernel⟩

theorem test_witness_hbmUpkeepbbb : ∃ (_temps : List Nat) (s : State),
      s.atBoundary 250000 = true ∧
      s.mg.ctrl = 0 :=
  ⟨[], own, by
    decide +kernel⟩

theorem test_witness_rateChangea : ∃ (k : Nat) (s : State),
      k < 12 ∧
      nget s.hbm.rateAt k ≠ 0 ∧
      nget s.hbm.rateAt k ≤ s.now + 1 ∧
      s.is fHB_STATUS_SWITCHING k = false ∧
      s.actFirst 3 = true :=
  ⟨11, { own with hbm := { own.hbm with rateAt := [(11, 1)] } }, by
    decide +kernel⟩

theorem test_witness_rateChangeb : ∃ (k : Nat) (s : State),
      k < 12 ∧
      s.is fHB_STATUS_SWITCHING k = true ∧
      s.fld fMG_LEDGER_STATUS_UNREAD = 0 :=
  ⟨11, own.put fHB_STATUS_SWITCHING 11 0 1, by
    decide +kernel⟩

theorem test_witness_stepTablea : ∃ (rq : Rq) (i : Nat) (w : Nat) (s : State),
      i < 8 ∧
      w < 2 ^ 64 ∧
      s.csRefusal rq (tmAddr (256 + 8 * i)) true = none ∧
      s.tmBusy = false ∧
      s.stepEntryUsed i = false ∧
      s.stepEntryOk i (fieldOf 0 12 w) (fieldOf 12 10 w) (fieldOf 32 12 w) = true :=
  ⟨.firmware, 0, 400 + 560 * 2 ^ 12 + 1000 * 2 ^ 32, steps, by
    decide +kernel⟩

theorem test_witness_stepTableb : ∃ (rq : Rq) (i : Nat) (w : Nat) (s : State),
      i < 8 ∧
      w < 2 ^ 64 ∧
      s.csRefusal rq (tmAddr (256 + 8 * i)) true = none ∧
      s.tmBusy = false ∧
      s.stepEntryUsed i = false ∧
      s.stepEntryOk i (fieldOf 0 12 w) (fieldOf 12 10 w) (fieldOf 32 12 w) = false ∧
      s.fld fMG_LEDGER_STATUS_UNREAD = 0 :=
  ⟨.firmware, 0, 401 + 560 * 2 ^ 12 + 1000 * 2 ^ 32, steps, by
    decide +kernel⟩

theorem test_witness_switchWrite : ∃ (rq : Rq) (target : Nat) (count : Nat) (s : State),
      target < 8 ∧
      count < 2 ^ 61 ∧
      s.csRefusal rq (tmAddr 512) true = none ∧
      s.tmBusy = false :=
  ⟨.firmware, 7, 2 ^ 61 - 1, rdy, by
    decide +kernel⟩

theorem test_witness_switchesa : ∃ (_late : List (Nat × Nat)) (w : Switch) (s : State),
      s.tm.switch = some w ∧
      w.done = false ∧
      w.target < 8 ∧
      (∀ (r : Nat), r < 49 → s.reached w r = true) :=
  ⟨[(48, 1)], swi false [], { withSwi 5 (swi false []) with tm := { (withSwi 5 (swi false [])).tm with skew := (List.range 49).map (fun r => (r, 1)) } }, by
    decide +kernel⟩

theorem test_witness_switchesba : ∃ (r : Nat) (why : Nat) (w : Switch) (s : State),
      r < 49 ∧
      s.tm.switch = some w ∧
      w.done = true ∧
      (w.notReady = [(r, why)]) ∧
      why ≠ 0 ∧
      s.regionBoundary r 250 = true ∧
      w.at_ < s.regionNow r ∧
      s.fld fMG_LEDGER_STATUS_UNREAD = 0 :=
  ⟨48, 1, swi true [(48, 1)], skewed (withSwi 249 (swi true [(48, 1)])) 48, by
    decide +kernel⟩

theorem test_witness_switchesbba : ∃ (r : Nat) (w : Switch) (s : State),
      r < 49 ∧
      s.tm.switch = some w ∧
      w.done = true ∧
      (w.notReady = [(r, 0)]) ∧
      s.reached w r = true :=
  ⟨48, swi true [(48, 0)], skewed (withSwi 250 (swi true [(48, 0)])) 48, by
    decide +kernel⟩

theorem test_witness_switchesbbba : ∃ (w : Switch) (s : State),
      s.tm.switch = some w ∧
      w.done = true ∧
      w.notReady = [] ∧
      s.fld fMG_LEDGER_STATUS_UNREAD = 0 :=
  ⟨swi true [], withSwi 250 (swi true []), by
    decide +kernel⟩

theorem test_witness_switchesbbbb : ∃ (r : Nat) (s : State),
      r < 49 ∧
      s.regionBoundary r 250 = true ∧
      s.tm.switch = none :=
  ⟨48, skewed (at1 rdy 249) 48, by
    decide +kernel⟩

theorem test_witness_valu : ∃ (u : Nat) (x : Payload) (r : Nat → BitVec 32 × Nat) (s : State),
      s.issuesV u [] = true ∧
      (∀ (k : Nat), k < 64 → valuLane (xFn x) (s.vLane u (xA x) k) (s.vLane u (xB x) k) (s.vLane u (xD x) k) = some (r k)) :=
  ⟨0, pay 1 2 3 0, (fun k => (valuLane 0 (run.vLane 0 2 k) (run.vLane 0 3 k) (run.vLane 0 1 k)).getD (0, 0)), run, by
    decide +kernel⟩

theorem test_witness_vcmp : ∃ (u : Nat) (x : Payload) (s : State),
      s.issuesV u [] = true ∧
      xFn x < 12 ∧
      xD x < 8 :=
  ⟨0, pay 7 2 3 11, run, by
    decide +kernel⟩

theorem test_witness_vred : ∃ (u : Nat) (x : Payload) (s : State),
      s.issuesV u [xD x] = true ∧
      xFn x % 8 < 5 :=
  ⟨0, pay 31 2 3 4, run, by
    decide +kernel⟩

theorem test_witness_vmova : ∃ (u : Nat) (x : Payload) (s : State),
      (s.issuesV u [xD x, xA x, xB x] = true) ∧
      xFn x = 0 :=
  ⟨0, pay 31 2 3 0, run, by
    decide +kernel⟩

theorem test_witness_vmovba : ∃ (u : Nat) (x : Payload) (s : State),
      (s.issuesV u [xD x, xA x, xB x] = true) ∧
      xFn x = 1 :=
  ⟨0, pay 31 2 3 1, run, by
    decide +kernel⟩

theorem test_witness_vmovbba : ∃ (u : Nat) (x : Payload) (s : State),
      (s.issuesV u [xD x, xA x, xB x] = true) ∧
      xFn x = 2 :=
  ⟨0, pay 31 2 3 2, run, by
    decide +kernel⟩

theorem test_witness_vmovbbba : ∃ (u : Nat) (x : Payload) (s : State),
      (s.issuesV u [xD x, xA x, xB x] = true) ∧
      xFn x = 3 :=
  ⟨0, pay 31 2 3 3, run, by
    decide +kernel⟩

theorem test_witness_vmovbbbb : ∃ (u : Nat) (x : Payload) (s : State),
      (s.issuesV u [xD x, xA x, xB x] = true) ∧
      xFn x = 4 :=
  ⟨0, pay 31 2 3 4, run, by
    decide +kernel⟩

theorem test_witness_keysab : ∃ (h : MsgHdr) (l : Nat) (k : Nat) (_id : Nat) (dir : Nat) (wrapped : Nat) (x : Session) (s : State) (r : Nat),
      Claim.heard s h x Role.host (some l) ∧
      s.mg.acts = [] ∧
      dir < 3 ∧
      l < 8 ∧
      k < 256 ∧
      s.fld fMG_LEDGER_STATUS_UNREAD = 0 ∧
      s.keyReason l k (Config.unwrapKey (nget s.mg.sessionKeys l - 1) wrapped) = r ∧
      r ≠ 0 :=
  ⟨hd, 0, 255, 0, 2, 0, ses 1, withSes own 1, 1, by
    unfold Claim.heard; decide +kernel⟩

theorem test_witness_keysb : ∃ (h : MsgHdr) (l : Nat) (k : Nat) (x : Session) (s : State),
      Claim.heard s h x Role.host (some l) ∧
      k < 256 ∧
      s.fld fSC_SLOT_RANGE_FIRST 0 l ≤ k ∧
      k < s.fld fSC_SLOT_RANGE_FIRST 0 l + s.fld fSC_SLOT_RANGE_COUNT 0 l ∧
      s.fld fSC_SLOT0_STATE 0 k ≠ 0 ∧
      s.fld fMG_LEDGER_STATUS_UNREAD = 0 :=
  ⟨hd, 0, 255, ses 1, puts (withSes own 1) [(fSC_SLOT_RANGE_FIRST, 0, 0, 255), (fSC_SLOT_RANGE_COUNT, 0, 0, 1), (fSC_SLOT0_STATE, 0, 255, 1)], by
    unfold Claim.heard; decide +kernel⟩

theorem test_witness_attest : ∃ (h : MsgHdr) (_nonce : Nat) (_m : Option (List (BitVec 8))) (x : Session) (s : State),
      Claim.heard s h x Role.either none ∧
      s.mg.acts = [] ∧
      s.is fSC_STATUS_IDENTITY_BAD = false ∧
      s.fld fMG_LEDGER_STATUS_UNREAD = 0 :=
  ⟨hd, 5, none, ses 1, withSes own 1, by
    unfold Claim.heard; decide +kernel⟩

theorem test_witness_mirrorSeta : ∃ (rq : Rq) (v : Nat) (s : State),
      v < 2 ^ 40 ∧
      v % 65536 = 0 ∧
      s.csRefusal rq (mgAddr 4136) true = none ∧
      v = 0 :=
  ⟨.firmware, 0, own, by
    decide +kernel⟩

theorem test_witness_mirrorSetb : ∃ (rq : Rq) (v : Nat) (s : State) (i : Nat) (r : LedgerRec),
      v < 2 ^ 40 ∧
      v % 65536 = 0 ∧
      s.csRefusal rq (mgAddr 4136) true = none ∧
      v ≠ 0 ∧
      v < hbmSize - 65536 ∧
      i < 1024 ∧
      (s.integ.ledger = [(i, some r)]) ∧
      r.detail.length ≤ 28 :=
  ⟨.firmware, 65536, led1023, 1023, lrec, by
    decide +kernel⟩

theorem test_witness_EventsAreRecordedInTheLedgerbaa : ∃ (_e : Ev) (s : State),
      s.fld fMG_LEDGER_STATUS_UNREAD = 0 :=
  ⟨evt, own, by
    decide +kernel⟩

theorem test_witness_EventsAreRecordedInTheLedgerbbaa : ∃ (e : Ev) (s : State),
      s.fld fMG_LEDGER_STATUS_UNREAD = 1024 ∧
      (∀ (q : LedgerRec), s.recAt ((s.fld fMG_LEDGER_READ_READ + 2047) % 1024) = some q → q.event ≠ e.event) :=
  ⟨evt, own.put fMG_LEDGER_STATUS_UNREAD 0 0 1024, by
    exact ⟨(by decide +kernel), fun q h => nomatch (show (none : Option LedgerRec) = some q from h)⟩⟩

theorem test_witness_EventsAreRecordedInTheLedgerbbba : ∃ (e : Ev) (q : LedgerRec) (s : State),
      s.fld fMG_LEDGER_STATUS_UNREAD = 1 ∧
      s.recAt (s.fld fMG_LEDGER_READ_READ) = some q ∧
      q.event = e.event ∧
      q.unit = e.unit ∧
      q.waybill = e.waybill ∧
      s.now ≤ q.time + 250000 ∧
      q.count < 16777215 :=
  ⟨evt, lrec, led 0, by
    decide +kernel⟩

theorem test_witness_unmappedRead : ∃ (rq : Rq) (a : Nat) (s : State),
      a % 8 = 0 ∧
      s.csRoute rq a = 0 ∧
      s.csRefusal rq a false = none ∧
      csDecode a = none :=
  ⟨.firmware, 0x0F0000FFFFF8, own, by
    decide +kernel⟩

theorem test_witness_ldNothing : ∃ (u : Nat) (x : Payload) (s : State),
      (Claim.executes s u x [xD x, xA x]) ∧
      s.lsFree u 1 = true ∧
      xSz x = 3 ∧
      s.lsAddr u x % 8 = 0 ∧
      addrForm (s.lsAddr u x) = 2 ∧
      s.csRoute (Rq.core u) (s.lsAddr u x) = 0 ∧
      s.csRefusal (Rq.core u) (s.lsAddr u x) false = none ∧
      csDecode (s.lsAddr u x) = none :=
  ⟨0, pay 5 1 24 0, sc 0x0F00103FFFF8 0 0 0, by
    unfold Claim.executes; decide +kernel⟩

theorem test_witness_registerWriteUnmapped : ∃ (rq : Rq) (a : Nat) (_w : Word) (s : State),
      a % 8 = 0 ∧
      s.csRoute rq a = 0 ∧
      s.csRefusal rq a true = none ∧
      csDecode a = none :=
  ⟨.firmware, 0x0F0000FFFFF8, 1#64, own, by
    decide +kernel⟩

theorem test_witness_reduceMergeaa : ∃ (r : Nat) (n : Nat) (f : RedFlit) (m : List RedEntry) (s : State),
      r < 48 ∧
      Claim.flitAt s r n f ∧
      m = List.filter (fun e => e.router == r && !e.lost) s.net.reds ∧
      f.merge = true ∧
      s.fld fNW_REDUCE_CFG_HOLD ≠ 0 ∧
      m.length < 64 ∧
      List.find? (fun e => !e.sent && e.addr == f.addr && e.lodging == f.lodging && decide (e.merges < 8)) m = none :=
  ⟨0, 0, flt true, [], red true [], by
    unfold Claim.flitAt; decide +kernel⟩

theorem test_witness_reduceMergeaba : ∃ (r : Nat) (n : Nat) (f : RedFlit) (m : List RedEntry) (s : State) (e : RedEntry),
      r < 48 ∧
      Claim.flitAt s r n f ∧
      m = List.filter (fun e => e.router == r && !e.lost) s.net.reds ∧
      f.merge = true ∧
      (List.map RedEntry.id s.net.reds).Nodup ∧
      List.find? (fun e => !e.sent && e.addr == f.addr && e.lodging == f.lodging && decide (e.merges < 8)) m = some e :=
  ⟨0, 0, flt true, [{ ren 0 0 false with merges := 7 }], red true [{ ren 0 0 false with merges := 7 }], { ren 0 0 false with merges := 7 }, by
    unfold Claim.flitAt; decide +kernel⟩

theorem test_witness_reduceMergeabb : ∃ (r : Nat) (n : Nat) (f : RedFlit) (m : List RedEntry) (s : State) (pa : Nat),
      r < 48 ∧
      Claim.flitAt s r n f ∧
      m = List.filter (fun e => e.router == r && !e.lost) s.net.reds ∧
      f.merge = false ∧
      r = flitTo f ∧
      f.addr % 64 = 0 ∧
      f.lanes.length = 16 ∧
      s.traffic = [] ∧
      (s.request f.rq f.addr 64 true false false = (Got.ok pa, s)) ∧
      (s.request f.rq f.addr 64 false true false = (Got.ok pa, s)) :=
  ⟨0, 0, flt false, [], red false [], cm0 + 0x1000, by
    unfold Claim.flitAt; decide +kernel⟩

/-- A flit on its way to cluster 47 at router 3, whose output is frozen. -/
def pos3 : Pos := ⟨3, 1, [(3, 2, 0), (4, 2, 0), (5, 2, 0), (6, 2, 0), (7, 3, 0), (15, 3, 0), (23, 3, 0), (31, 3, 0), (39, 3, 0), (47, 0, 0)], 0⟩
def flt3 : RedFlit := { flt true with addr := 0x01002F000000, pos := some pos3 }
def red3 : State := stopped3 { own with net := { own.net with flits := [flt3] } }

theorem test_witness_reduceMergeb : ∃ (r : Nat) (n : Nat) (f : RedFlit) (p : Pos) (m : Msg) (s : State),
      s.net.flits[n]? = some f ∧
      f.pos = some p ∧
      p.hops ≠ [] ∧
      s.flitNext f = r ∧
      (State.oneHop 4 n 64 s).snd.msgAt 4 n = some m ∧
      (State.oneHop 4 n 64 s).snd.cutOff m = false ∧
      (State.oneHop 4 n 64 s).fst = false :=
  ⟨4, 0, flt3, pos3, ((State.oneHop 4 0 64 red3).2.msgAt 4 0).get (by decide +kernel), red3, by
    decide +kernel⟩

theorem test_witness_reduceForwarda : ∃ (id : Nat) (e : RedEntry) (s : State),
      List.find? (fun x => x.id == id && !x.sent && !x.lost) s.net.reds = some e ∧
      (8 ≤ e.merges ∨ s.fld fNW_REDUCE_CFG_HOLD ≤ 6 * (s.now - e.since)) :=
  ⟨2, ren 8 0 false, red true [ren 8 0 false], by
    decide +kernel⟩

theorem test_witness_reduceForwardb : ∃ (id : Nat) (e : RedEntry) (f : RedFlit) (o : LongOp) (s : State),
      List.find? (fun x => x.id == id && x.reply != 0 && !x.lost) s.net.reds = some e ∧
      e.reply = 1 ∧
      e.parts = [f] ∧
      f.entry = none ∧
      s.opAt f.op = some o :=
  ⟨2, ren 0 1 true, flt true, lop [], withOp (red true [ren 0 1 true]) (lop []), by
    decide +kernel⟩

theorem test_witness_capturesaa : ∃ (l : Nat) (s : State) (d : Nat),
      l < 8 ∧
      Claim.portsOk s ∧
      s.ckDue l = some d ∧
      s.actFirst 5 = true ∧
      nget s.ck.phase l = 0 :=
  ⟨0, cap 0 0, 0, by
    unfold Claim.portsOk; decide +kernel⟩

theorem test_witness_capturesab : ∃ (l : Nat) (s : State) (d : Nat),
      l < 8 ∧
      Claim.portsOk s ∧
      s.ckDue l = some d ∧
      s.actFirst 5 = true ∧
      nget s.ck.phase l = 3 ∧
      s.fld fMG_LEDGER_STATUS_UNREAD = 0 :=
  ⟨0, cap 3 0, 0, by
    unfold Claim.portsOk; decide +kernel⟩

theorem test_witness_capturesbb : ∃ (l : Nat) (s : State),
      l < 8 ∧
      Claim.portsOk s ∧
      nget s.ck.phase l = 1 ∧
      nget s.ck.dueAt l + s.ckLimit l ≤ s.now :=
  ⟨0, cap 1 (2 ^ 62), by
    unfold Claim.portsOk; decide +kernel⟩

/-- A taking ends, and connection 1 is open. -/
def drn : State :=
  let s := (withCon (paged own) (con [])).put fET_CKPT_CFG1_CONN 0 0 1
  { s with ck := { s.ck with phase := nput [] 0 2 } }
def drnB : Got (List (BitVec 8)) × State := (Claim.drainReads drn 0).readMem (Rq.host 0 0) 0 4096

theorem test_witness_stateTakenb : ∃ (l : Nat) (c : Nat) (n : Nat) (s : State),
      l < 8 ∧
      Claim.portsOk s ∧
      nget s.ck.phase l = 2 ∧
      s.fld fMG_LEDGER_STATUS_UNREAD = 0 ∧
      (∀ (id : Nat), id ∈ s.sq.held → s.streamLodging id ≠ l) ∧
      c = s.fld fET_CKPT_CFG1_CONN 0 l ∧
      n = s.fld fET_CKPT_STATUS_CAPTURES 0 l ∧
      s.fld fET_CONN_POST_STATE 0 (connIx l c) ≠ 1 :=
  ⟨0, 0, 0, cap 2 0, by
    unfold Claim.portsOk; decide +kernel⟩

set_option maxRecDepth 100000 in
theorem test_witness_stateTakena : ∃ (l : Nat) (c : Nat) (n : Nat) (s : State) (x : Conn) (k : Nat) (bs : List (BitVec 8)) (u : State),
      l < 8 ∧
      Claim.portsOk s ∧
      nget s.ck.phase l = 2 ∧
      s.fld fMG_LEDGER_STATUS_UNREAD = 0 ∧
      (∀ (id : Nat), id ∈ s.sq.held → s.streamLodging id ≠ l) ∧
      c = s.fld fET_CKPT_CFG1_CONN 0 l ∧
      n = s.fld fET_CKPT_STATUS_CAPTURES 0 l ∧
      s.conn l c = some x ∧
      s.fld fET_CONN_POST_STATE 0 (connIx l c) = 1 ∧
      s.txOpen x.req.port x.req.sub (some l) = true ∧
      s.ck.drains = [] ∧
      ((Claim.drainReads s l).readMem (Rq.host l x.req.port) (s.ckBuffer l n) (min 4096 ((s.imageSizes l).snd.snd - 32)) = (Got.ok bs, u)) ∧
      u.ck = (Claim.drainReads s l).ck ∧
      u.fld fET_CONN_POST_STATE 0 (connIx l c) = 3 ∧
      u.slotLoaded x.req.txSlot = true ∧
      u.fld fSC_SLOT1_INVOCATIONS 0 x.req.txSlot = k ∧
      k + 6 < 2 ^ 48 ∧
      1024 ≤ x.req.mtu ∧
      bs.length ≤ 4096 :=
  ⟨0, 1, 0, drn, con [], 0, List.replicate 4096 0, drnB.2, by
    unfold Claim.portsOk Claim.drainReads; decide +kernel⟩

theorem test_witness_resumeb : ∃ (l : Nat) (img : List (BitVec 8)) (u : State) (s : State),
      l < 8 ∧
      s.fld fET_RESUME_STATUS_RESULT 0 l = 1 ∧
      (s.readImage l = (Got.ok img, u)) :=
  ⟨0, rsmI 1, (rsmE 1).2, rsm 1, by
    decide +kernel⟩

/-! What only a signed image, a wrapped key or a hash can meet is met as soon as there is one. -/

theorem test_witness_imageEndaa (bs : List (BitVec 8)) (h : State.reset.imageFails bs = 0) :
    ∃ (source : Nat) (x : Transfer) (s : State),
      Claim.loading s source x ∧ x.bytes.length = x.size ∧ s.imageFails x.bytes = 0 :=
  ⟨0, ⟨0, false, 1, bs.length, false, bs, [], 0, none⟩, withTr boots ⟨0, false, 1, bs.length, false, bs, [], 0, none⟩,
    ⟨rfl, by cbv, rfl, rfl, rfl⟩, rfl, h⟩

theorem test_witness_imageLoadbba (b : BitVec 8) (bs : List (BitVec 8)) (h : State.reset.imageFails (b :: bs) = 0) :
    ∃ (s : State) (x : Transfer),
      s.pins.vstby = true ∧ s.mg.ctrl = 0 ∧ Claim.loading s 3 x ∧ x.bytes.length = x.size ∧ s.imageFails x.bytes = 0 ∧
        x.bytes ≠ [] :=
  ⟨withTr jboots ⟨3, false, 1, (b :: bs).length, false, b :: bs, [], 0, none⟩,
    ⟨3, false, 1, (b :: bs).length, false, b :: bs, [], 0, none⟩, rfl, rfl, ⟨rfl, by cbv, rfl, rfl, rfl⟩, rfl, h,
    List.cons_ne_nil _ _⟩

theorem test_witness_stepCompletebba (bs : List (BitVec 8)) (h : State.reset.imageFails bs = 0) :
    ∃ (k : Nat) (r : StepReport) (s : State),
      s.stepRuns k = true ∧ s.boot.alt = false ∧ s.boot.instruct = none ∧ s.boot.journalNext < 32 ∧ r.ok = true ∧ k = 3 ∧
        s.imageFails s.boot.image = 0 :=
  ⟨3, ⟨true, 0, [], 0, [], []⟩, { atStep 3 with boot := { (atStep 3).boot with image := bs } }, by cbv, rfl, rfl,
    by cbv, rfl, rfl, h⟩

def keyed : State :=
  let s : State := { withSes own 1 with mg := { (withSes own 1).mg with sessionKeys := [(0, 5)] } }
  s.put fSC_SLOT_RANGE_COUNT 0 0 256

theorem test_witness_keysaa (wrapped k0 : Nat) (hk : Config.unwrapKey 4 wrapped = some k0) :
    ∃ (h : MsgHdr) (l : Nat) (k : Nat) (_id : Nat) (dir : Nat) (wrapped : Nat) (x : Session) (s : State) (key : Nat),
      Claim.heard s h x Role.host (some l) ∧ s.mg.acts = [] ∧ dir < 3 ∧ l < 8 ∧ k < 256 ∧
        s.fld fMG_LEDGER_STATUS_UNREAD = 0 ∧ Config.unwrapKey (nget s.mg.sessionKeys l - 1) wrapped = some key ∧
        s.keyReason l k (some key) = 0 :=
  ⟨hd, 0, 255, 0, 2, wrapped, ses 1, keyed, k0, by unfold Claim.heard; decide +kernel, by decide +kernel, by decide, by decide,
    by decide, by decide +kernel, hk, by cbv⟩

def rsm2 : State := inPage (paged own) 0 (wordBytes [0x249524B48, 0, 0, 0, 0, 0, 0, 0, 0, 0, 0, 0, 0, 288])
def rsm2E : Got (List (BitVec 8)) × State := (rsm2.put fET_RESUME0_BASE 0 0 0).readImage 0
def rsm2I : List (BitVec 8) := match rsm2E.1 with
  | .ok i => i
  | _ => []

theorem test_witness_resumeab :
    ∃ (rq : Rq) (l : Nat) (base : Nat) (r : Nat) (img : List (BitVec 8)) (u : State) (s : State),
      l < 8 ∧ base < 2 ^ 40 ∧ Claim.portsOk u ∧ base % 65536 = 0 ∧ s.csRefusal rq (etAddr (4864 + 16 * l)) true = none ∧
        s.fld fET_RESUME_STATUS_RESULT 0 l ≠ 1 ∧ (s.put fET_RESUME0_BASE 0 l base).readImage l = (Got.ok img, u) ∧
        u.resumeReason l img = r ∧ r ≠ 0 ∧ u.fld fMG_LEDGER_STATUS_UNREAD = 0 :=
  ⟨.firmware, 0, 0, _, rsm2I, rsm2E.2, rsm2, by decide, by decide, by unfold Claim.portsOk; decide +kernel, by decide, by decide +kernel,
    by decide +kernel, by decide +kernel, rfl, by
      have h : imgNat rsm2I 4 2 ≠ 1 := by decide +kernel
      simp only [State.resumeReason, if_pos h]
      split <;> decide, by decide +kernel⟩

def dOnly : State :=
  let s := rdy.put fMG_DRESS_CFG_EN 0 0 1
  let s : State := { s with integ := { s.integ with dueAt := (List.range 28).map (fun u => (u, if u = 0 then 1 else 2 ^ 63)) } }
  let s := s.put fCL_ROW_SPARE_FENCED 0 0 (2 ^ 28 - 1)
  { s with regs := s.regs ++ (List.range 47).flatMap (fun c =>
    [(rkey rCL_CORE_MAP (c + 1) 0, BitVec.allOnes 64), (rkey rCL_CORE_MAP (c + 1) 1, BitVec.allOnes 64)]) }

def actives : List Nat := [1, 2, 3, 4, 5, 7, 8, 9, 10, 11, 12, 14, 15, 16, 17, 18, 19, 21, 22, 23, 24, 25, 26]

theorem test_absent_slots (s : State) (c x : Nat) (hx : x < 28) (h0 : s.reg rCL_CORE_MAP c 0 = BitVec.allOnes 64)
    (h1 : s.reg rCL_CORE_MAP c 1 = BitVec.allOnes 64) : s.logicalOf (28 * c + x) = 31 := by
  have hm : ∀ l, l < 24 → s.slotOf c l = 31 := by
    intro l hl
    have hr : s.reg rCL_CORE_MAP c (l / 12) = BitVec.allOnes 64 := by
      have : l / 12 = 0 ∨ l / 12 = 1 := by omega
      rcases this with e | e <;> rw [e] <;> assumption
    unfold State.slotOf
    rw [hr]
    exact (by decide : ∀ l, l < 24 → fieldOf (5 * (l % 12)) 5 (BitVec.allOnes 64).toNat = 31) l hl
  unfold State.logicalOf
  have hd : (28 * c + x) / 28 = c := by omega
  have hn : (28 * c + x) % 28 = x := by omega
  rw [hd, hn, List.find?_eq_none.2]
  · rfl
  · intro l hl
    rw [hm l (List.mem_range.1 hl), beq_iff_eq]
    omega

theorem test_only_cluster0 : dOnly.allActive = 0 :: actives := by
  have hz : ∀ c ∈ List.range 47, ((List.range 28).map (fun x => 28 * (c + 1) + x)).filter
      (fun u => dOnly.logicalOf u != 31 || dOnly.integ.redo.contains u) = [] := by
    intro c hc
    have hr : ∀ c ∈ List.range 47, dOnly.reg rCL_CORE_MAP (c + 1) 0 = BitVec.allOnes 64 ∧
        dOnly.reg rCL_CORE_MAP (c + 1) 1 = BitVec.allOnes 64 := by decide +kernel
    refine List.filter_eq_nil_iff.2 fun u hu => ?_
    obtain ⟨x, hx, rfl⟩ := List.mem_map.1 hu
    rw [test_absent_slots dOnly (c + 1) x (List.mem_range.1 hx) (hr c hc).1 (hr c hc).2]
    simp [show dOnly.integ.redo = [] from rfl]
  unfold State.allActive
  rw [List.range_succ_eq_map (n := 47), List.flatMap_cons, List.flatMap_map, List.flatMap_eq_nil_iff.2 hz]
  decide +kernel

theorem test_witness_dressingSchedule :
    ∃ (u : Nat) (s : State),
      u < 1344 ∧ s.atBoundary 250000000 = true ∧ s.is fMG_DRESS_CFG_EN = true ∧ s.mg.ctrl = 0 ∧
        s.fld fMG_START_STATUS_STATE = 1 ∧ s.mg.leases = [] ∧ s.integ.dressings = [] ∧ s.integ.takeovers = [] ∧ s.integ.redo = [] ∧ s.actFirst 8 = true ∧
        (∀ v, v ∈ s.allActive → s.now < nget s.integ.dueAt v) ∧
        s.earliest (s.allActive.filter (fun v => s.dressReady v)) = some u ∧ s.spareFits u = false := by
  have h0 : dOnly.dressReady 0 = true := by
    unfold State.dressReady State.dressWarm
    generalize Config.nearerSensor 0 = b
    cases b <;> decide +kernel
  have h2 := test_only_cluster0
  have h1 : ∀ v, v ∈ actives → dOnly.dressReady v = false := by decide +kernel
  refine ⟨0, dOnly, by decide, by decide +kernel, by decide +kernel, rfl, by decide +kernel, rfl, rfl, rfl, rfl, by decide +kernel, ?_, ?_,
    by decide +kernel⟩
  · rw [h2]
    decide +kernel
  · rw [h2, List.filter_cons_of_pos (by exact h0), List.filter_eq_nil_iff.2 (fun v hv => by simp [h1 v hv])]
    rfl

/-- The image of a checkpoint names the device, so that its bytes are not known here: the write's answer is a premise. -/
theorem test_witness_capturesba (u : State)
    (hu : (cap 1 0).writeAll (Rq.host 0 ((cap 1 0).ckPort 0))
      ((cap 1 0).ckBuffer 0 ((cap 1 0).fld fET_CKPT_STATUS_CAPTURES 0 0)) ((cap 1 0).scheduleImage 0) = (Got.ok (), u)) :
    ∃ (l : Nat) (s : State) (u : State),
      l < 8 ∧ Claim.portsOk s ∧ nget s.ck.phase l = 1 ∧ s.quiescent l = true ∧ s.now + 1 ≤ nget s.ck.dueAt l + s.ckLimit l ∧
        s.writeAll (Rq.host l (s.ckPort l)) (s.ckBuffer l (s.fld fET_CKPT_STATUS_CAPTURES 0 l)) (s.scheduleImage l) =
          (Got.ok (), u) :=
  ⟨0, cap 1 0, u, by decide, by unfold Claim.portsOk; decide +kernel, by decide +kernel, by decide +kernel, by decide +kernel, hu⟩

/-- A trailer is a hash that Config leaves open: an image that passes is a premise. -/
theorem test_witness_resumeaa (img : List (BitVec 8)) (u : State) (hp : Claim.portsOk u)
    (hi : (rsm2.put fET_RESUME0_BASE 0 0 0).readImage 0 = (Got.ok img, u)) (hr : u.resumeReason 0 img = 0) :
    ∃ (rq : Rq) (l : Nat) (base : Nat) (r : Nat) (img : List (BitVec 8)) (u : State) (s : State),
      l < 8 ∧ base < 2 ^ 40 ∧ Claim.portsOk u ∧ base % 65536 = 0 ∧ s.csRefusal rq (etAddr (4864 + 16 * l)) true = none ∧
        s.fld fET_RESUME_STATUS_RESULT 0 l ≠ 1 ∧ (s.put fET_RESUME0_BASE 0 l base).readImage l = (Got.ok img, u) ∧
        u.resumeReason l img = r ∧ r = 0 :=
  ⟨.firmware, 0, 0, 0, img, u, rsm2, by decide, by decide, hp, by decide, by decide +kernel, by decide +kernel, hi, hr, rfl⟩

/-! The checks of WellFormed: the first value refused and the last one accepted. -/

theorem test_wf_slot : (Instr.programEnd 1344).wellFormed = false ∧ (Instr.programEnd 1343).wellFormed = true := by decide
theorem test_wf_cluster : (Instr.stormHoldEnd 48).wellFormed = false ∧ (Instr.stormHoldEnd 47).wellFormed = true := by decide
theorem test_wf_logical :
    (Instr.coreProgramStart 0 24).wellFormed = false ∧ (Instr.coreProgramStart 0 23).wellFormed = true := by decide
theorem test_wf_lodging :
    (Instr.lodgingFreezePoint 8).wellFormed = false ∧ (Instr.lodgingFreezePoint 7).wellFormed = true := by decide
theorem test_wf_port :
    (Instr.addrSet hd 8 0 0 0 0).wellFormed = false ∧ (Instr.addrSet hd 0 4 0 0 0).wellFormed = false ∧
      (Instr.addrSet hd 7 3 0 0 0).wellFormed = true := by decide
theorem test_wf_connection :
    (Instr.connClose hd 0 1024).wellFormed = false ∧ (Instr.connClose hd 7 1023).wellFormed = true := by decide
theorem test_wf_link :
    (Instr.linkIdleTimeout 140).wellFormed = false ∧ (Instr.linkIdleTimeout 139).wellFormed = true := by decide
theorem test_wf_router :
    (Instr.sweepStart .firmware 48).wellFormed = false ∧ (Instr.sweepStart .firmware 47).wellFormed = true := by decide
theorem test_wf_stack :
    (Instr.hbmRateChange 12).wellFormed = false ∧ (Instr.hbmRateChange 11).wellFormed = true := by decide
theorem test_wf_region :
    (Instr.regionLateSwitch 49).wellFormed = false ∧ (Instr.regionLateSwitch 48).wellFormed = true := by decide
theorem test_wf_requester :
    (Instr.sweepStart (.core 1344) 0).wellFormed = false ∧ (Instr.sweepStart (.seqDma 48) 0).wellFormed = false ∧
      (Instr.sweepStart (.host 8 0) 0).wellFormed = false ∧ (Instr.sweepStart (.host 7 7) 0).wellFormed = true := by decide
theorem test_wf_packet :
    (Instr.send { pkt 0 [] with psn := 2 ^ 24 }).wellFormed = false ∧ (Instr.send { pkt 0 [] with l := 8 }).wellFormed = false ∧
      (Instr.send (pkt (2 ^ 24 - 1) [])).wellFormed = true := by decide +kernel
theorem test_wf_header :
    (Instr.detach { hd with seq := 2 ^ 32 }).wellFormed = false ∧ (Instr.detach { hd with session := 2 ^ 32 }).wellFormed = false ∧
      (Instr.detach { hd with seq := 2 ^ 32 - 1 }).wellFormed = true := by decide
theorem test_wf_slot_index :
    (Instr.tensor 0 16).wellFormed = false ∧ (Instr.tensor 47 15).wellFormed = true := by decide
theorem test_wf_flag :
    (Instr.flagWriteSet .firmware 0 4096 0).wellFormed = false ∧ (Instr.flagWriteSet .firmware 0 4095 0).wellFormed = true := by
  decide
theorem test_wf_semaphore :
    (Instr.semWriteSet .firmware 0 256 0).wellFormed = false ∧ (Instr.semWriteSet .firmware 0 255 0).wellFormed = true := by decide
theorem test_wf_stream :
    (Instr.streamStop .firmware 65536).wellFormed = false ∧ (Instr.streamStop .firmware 65535).wellFormed = true := by decide
theorem test_wf_parts :
    (Instr.memPowerOff .firmware 0 4).wellFormed = false ∧ (Instr.cmPowerOff .firmware 0 32).wellFormed = false ∧
      (Instr.cmPowerOff .firmware 0 31).wellFormed = true := by decide
theorem test_wf_barrier :
    (Instr.barrierWaveRelease 64).wellFormed = false ∧ (Instr.barrierWaveRelease 63).wellFormed = true := by decide
theorem test_wf_fields :
    (Instr.fieldRoutersOff 6).wellFormed = false ∧ (Instr.capScheduleStep 16).wellFormed = false ∧
      (Instr.capWrite .firmware 3 0).wellFormed = false ∧ (Instr.bootInstruct 3).wellFormed = false ∧
      (Instr.coreReset .firmware 0 28).wellFormed = false ∧ (Instr.fieldRoutersOff 5).wellFormed = true := by decide
theorem test_wf_step :
    (Instr.startStepComplete 0 ⟨true, 0, [], 0, [], []⟩).wellFormed = false ∧
      (Instr.startStepComplete 15 ⟨true, 0, [], 0, [], []⟩).wellFormed = false ∧
      (Instr.startStepComplete 14 ⟨true, 0, [], 0, [], []⟩).wellFormed = true := by decide
theorem test_wf_role :
    (Instr.attach hd true 2 0 0 []).wellFormed = false ∧ (Instr.attach hd true 1 7 0 []).wellFormed = true := by decide
theorem test_wf_bytes :
    (Instr.registerWrite .firmware 0 9 0).wellFormed = false ∧ (Instr.registerWrite .firmware 0 8 0).wellFormed = true := by decide

/-! Worked examples of the spec. -/

/-- 00, worked example: the core registers of slot 9 of cluster 13. -/
theorem test_core_register_address : coAddr (28 * 13 + 9) 0 = 0x0F001D890000 := by decide

/-- 05, worked example: the fields of the MATMUL that the two words 0x8014_2B00 and 0x6110_2100 spell. -/
theorem test_matmul_words :
    lOpc 0x80142B00 = 0x20 ∧ lPred 0x80142B00 = 0 ∧ lNeg 0x80142B00 = false ∧ lSA 0x80142B00 = 10 ∧ lDA 0x80142B00 = 1 ∧
      lSB 0x80142B00 = 11 ∧ lDB 0x80142B00 = 0 ∧ lSub 0x80142B00 = 0 ∧ lSY 0x61102100 = 12 ∧ lDY 0x61102100 = 2 ∧
      lQ 0x61102100 = 1 ∧ lTag 0x61102100 = 0x021 := by decide

/-- 05, worked example: the quad s4 = 0x2220_0004_0000_0000. -/
theorem test_quad_fields :
    (quadOf [0x2220000400000000#64, 0, 0, 0]).fmtA = 2 ∧ (quadOf [0x2220000400000000#64, 0, 0, 0]).fmtB = 2 ∧
      (quadOf [0x2220000400000000#64, 0, 0, 0]).fmtD = 2 ∧ (quadOf [0x2220000400000000#64, 0, 0, 0]).sat = true := by decide

/-- 06, worked example: the record of SEM_WAIT full[0], 8. -/
theorem test_sem_wait_record :
    let x : Iss := ⟨5, 0, 0x201, 0, [0x0500000000000000#64, 0x0000020100071003#64, 0x0000000800000500#64, 0, 0, 0, 0, 0]⟩
    x.opc = 5 ∧ x.way = 0x00071003 ∧ recStream x.words = 0x201 ∧ semAmount (x.w 2) = 8 ∧ recLegal x.words = true := by decide

/-- 06, worked example: word 0 lies in memory as 00 00 00 00 00 00 00 05. -/
theorem test_record_bytes : leBytes 8 0x0500000000000000 = [0, 0, 0, 0, 0, 0, 0, 5] := by decide

/-- 09, worked example: lodging 3's entry for page 0x12_3456. -/
theorem test_pte_address :
    (State.reset.put fGL_PT_REGION_FIRST 0 3 4194304).pteAddr 3 0x123456 = 0xBFFA91A2B0 := by decide +kernel

/-- 09, worked example: stack 7, stack address 0x2_8091_B890, and router 29. -/
theorem test_hbm_decoding :
    let s := State.reset.put fGL_BAND_MODE_FIELD_LOCAL 0 0 (2 ^ 10)
    s.stackOf 0x1F81237890 = 7 ∧ s.stackAddr 0x1F81237890 = 0x28091B890 ∧ s.hbmRouter 0x1F81237890 = 29 := by decide +kernel

/-- 13, worked example: 70 defective rows in a bank of a WM half leave 127 units; 1 leaves all 128. -/
theorem test_usable_units : usableUnits 4096 64 128 [0, 0, 70, 0] = 127 ∧ usableUnits 4096 64 128 [0, 1, 0, 0] = 128 := by decide

/-! One command on a small state. -/

def after (i : Instr) (s : State) : State := match exec i s with
  | .next t => t
  | _ => s

/-- R135: ADD keeps 64 bits; R130: S0 discards. -/
theorem test_add_wraps : (after (.alu 0 (pay 5 1 2 0)) (sc (2 ^ 64 - 1) 3 0 0)).sReg 0 5 = 2#64 := by decide +kernel
theorem test_s0_discards : (after (.alu 0 (pay 0 1 2 0)) (sc 7 3 0 0)).sReg 0 0 = 0#64 := by decide +kernel
/-- R135: a signed division by 0 gives -1, its remainder the dividend, and the quotient truncates. -/
theorem test_division_corners :
    (after (.alu 0 (pay 5 1 2 0x0A)) (sc 7 0 0 0)).sReg 0 5 = BitVec.allOnes 64 ∧
      (after (.alu 0 (pay 5 1 2 0x0C)) (sc 7 0 0 0)).sReg 0 5 = 7#64 ∧
      (after (.alu 0 (pay 5 1 2 0x0A)) (sc (2 ^ 64 - 7) 2 0 0)).sReg 0 5 = BitVec.ofInt 64 (-3) := by decide +kernel
/-- The destination may be a source. -/
theorem test_destination_is_source : (after (.alu 0 (pay 1 1 1 0)) (sc 21 0 0 0)).sReg 0 1 = 42#64 := by decide +kernel
/-- 05: words lie little-endian in memory. -/
theorem test_ld_little_endian :
    (after (.ld 0 (pay 5 1 24 0)) ((sc cm0 0 0 0).physWrite cm0 [1, 2, 3, 4, 5, 6, 7, 8])).sReg 0 5 = 0x0807060504030201#64 := by
  decide +kernel
theorem test_st_stores_bytes :
    (after (.st 0 (pay 2 1 24 1)) (sc cm0 0x0102 0 0)).physRead (cm0 + 7) 4 = [0, 2, 1, 0] := by decide +kernel
/-- R99: additions to a semaphore. -/
theorem test_sem_add : (after (.semWriteAdd .firmware 47 255 5) (own.put fCL_SEM_COUNT 47 255 7)).fld fCL_SEM_COUNT 47 255 = 12 := by
  decide +kernel
/-- 06: MAX keeps the larger value. -/
theorem test_flag_max :
    (after (.flagWriteMax .firmware 47 9 5) (own.put fCL_FLAG_VALUE 47 9 7)).fld fCL_FLAG_VALUE 47 9 = 7 := by decide +kernel
/-- 06: DMA copies its runs. -/
theorem test_dma_record :
    (after (.dma 0 0) ((seqs dmaR).physWrite (cm0 + 0x1000) [9, 8, 7])).physRead (cm0 + 0x2000) 3 = [9, 8, 7] := by decide +kernel
/-- 06: BRANCH goes to the record that its displacement names. -/
theorem test_branch_taken :
    (after (.branch 0 0) (seqs (brR 0))).fld fGL_STREAM3_POSITION 0 0 = 64 ∧
      (after (.branch 0 0) (seqs (brR 1))).fld fGL_STREAM3_POSITION 0 0 = 64 := by decide +kernel
/-- R6: a write to an unmapped address is discarded, and MG_STICKY0 tells of it. -/
theorem test_unmapped_write :
    after (.registerWrite .firmware 0x0F0000FFFFF8 8 5#64) own = own.put fMG_STICKY0_UNMAPPED_WRITE 0 0 1 := by decide +kernel
/-- The step takes the command at the front of the queue, and idles by one count of site time on an empty queue (log 2). -/
theorem test_step_takes_front :
    (match step { (sc 21 0 0 0) with pending := [.alu 0 (pay 1 1 1 0), .programEnd 0] } with
      | .next t => (t.sReg 0 1, t.pending)
      | _ => (0, [])) = (42#64, [.programEnd 0]) := by decide +kernel
theorem test_idle_counts : (match step State.reset with
    | .next t => t.now
    | _ => 0) = 1 := by decide +kernel
/-- Table 2.2: the largest FP8 E4M3 is 448. -/
theorem test_e4m3_max : (cvtToF32 2 0 0x7E).1 = 0x43E00000#32 := by decide +kernel

end Sys2Proof.Tests
end

section
/-! SUPPORT. Every command answers a next state, and that state keeps what `Keeps` says: the queue, the canonical form of memory
and of the registers, and all that OTP held. One lemma for each command, assembled from the lemmas of the operations it calls. -/

namespace Sys2Proof.Machine

/-- The outcome is a next state, and that state keeps of `r` what `Keeps` says. -/
def Answers (r : State) (o : Outcome) : Prop := ∃ t, o = .next t ∧ Keeps r t

section
variable {r s t : State}

theorem answers_next (h : Keeps r t) : Answers r (.next t) := ⟨t, rfl, h⟩

/-- An outcome that is known to be a next state, whose next states keep. -/
theorem answers_of_keeps {o : Outcome} (ho : ∃ t, o = .next t) (h : ∀ t, o = .next t → Keeps r t) : Answers r o := by
  obtain ⟨t, e⟩ := ho
  exact ⟨t, e, h t e⟩

theorem answers_ite {c : Prop} [Decidable c] {o p : Outcome} (ho : Answers r o) (hp : Answers r p) :
    Answers r (if c then o else p) := by
  split <;> assumption

/-- An update of parts other than the queue, the registers, memory and OTP. -/
theorem keeps_update {sh core ms sq net hbm integ tm pw mg boot rst ck rt pins out fresh} (h : Keeps r s) :
    Keeps r (State.mk s.pending s.regs sh s.mem core ms sq net hbm integ tm pw mg s.otp boot rst ck rt pins out fresh) :=
  keeps_mk _ _ _ _ _ _ _ _ _ _ _ _ _ _ _ _ _ h

/-- A command that acts only when its condition holds (log 3). -/
theorem answers_guard {b : Bool} {f : State → State} (h : Keeps r s) (hf : ∀ t, Keeps r t → Keeps r (f t)) :
    Answers r (s.guard b f) :=
  answers_of_keeps ⟨_, rfl⟩ (keeps_guard b f h hf)

theorem answers_sys {u fn : Nat} {x : Payload} {regs : List Nat} {body : State → State} (h : Keeps r s)
    (hb : ∀ t, Keeps r t → Keeps r (body t)) : Answers r (s.sys u fn x regs body) :=
  answers_of_keeps ⟨_, rfl⟩ (keeps_sys u fn x regs body h hb)

theorem answers_issueLong (u opc : Nat) (bcast : Bool) (w : LPayload) (h : Keeps r s) :
    Answers r (s.issueLong u opc bcast w) := by
  refine answers_of_keeps ?_ (keeps_issueLong u opc bcast w h)
  unfold State.issueLong
  split
  · split
    · exact ⟨_, rfl⟩
    · exact ⟨_, rfl⟩
  · exact ⟨_, rfl⟩

theorem answers_issueDma (u : Nat) (bcast : Bool) (w : LPayload) (subs : List Nat) (h : Keeps r s) :
    Answers r (s.issueDma u bcast w subs) :=
  answers_ite (answers_issueLong u 0x23 bcast w h) (answers_next h)

theorem answers_entryAct (rq : Rq) (id : Nat) (w : Word) (b : Bool) (h : Keeps r s) : Answers r (s.entryAct rq id w b) :=
  answers_of_keeps ⟨_, rfl⟩ (keeps_entryAct rq id w b h)

/-- A record that a slot issues, if its own work keeps. -/
theorem answers_issueRec {c i : Nat} {kind : Nat → Bool} {run : Iss → State → Option State} (h : Keeps r s)
    (hr : ∀ x t, Keeps r t → ∀ v, run x t = some v → Keeps r v) : Answers r (s.issueRec c i kind run) :=
  answers_of_keeps ⟨_, rfl⟩ (keeps_issueRec c i kind run h hr)

theorem answers_issueNow {c i opc : Nat} {run : Iss → State → State} (h : Keeps r s)
    (hr : ∀ x t, Keeps r t → Keeps r (run x t)) : Answers r (s.issueNow c i opc run) :=
  answers_of_keeps ⟨_, rfl⟩ (keeps_issueNow c i opc run h hr)

theorem answers_flagWrite (rq : Rq) (op c k v : Nat) (h : Keeps r s) : Answers r (s.flagWrite rq op c k v) :=
  answers_of_keeps ⟨_, rfl⟩ (keeps_flagWrite rq op c k v h)

theorem answers_capture (l : Nat) (h : Keeps r s) : Answers r (s.capture l) := by
  refine answers_of_keeps ?_ (keeps_capture l h)
  unfold State.capture
  dsimp only
  split <;> exact ⟨_, rfl⟩

theorem answers_smbusDo {hung : Bool} {f : State → State} (h : Keeps r s) (hf : ∀ t, Keeps r t → Keeps r (f t)) :
    Answers r (s.smbusDo hung f) :=
  answers_of_keeps ⟨_, rfl⟩ (keeps_smbusDo hung f h hf)

theorem answers_imageLoad {f : State → State} (h : Keeps r s) (hf : ∀ t, Keeps r t → Keeps r (f t)) :
    Answers r (s.imageLoad f) :=
  answers_of_keeps ⟨_, rfl⟩ (keeps_imageLoad f h hf)

end

/-- An owner added to OTP. -/
theorem keeps_addOwner {r s : State} (k : Nat) (h : Keeps r s) :
    Keeps r { s with otp := { s.otp with owners := s.otp.owners ++ [k] } } :=
  ⟨h.pending, h.mem, h.regs, h.gens, h.owners.trans (List.prefix_append _ _), h.minVersions⟩

/-- A minimum version added to OTP. -/
theorem keeps_addMinVersion {r s : State} (v : Nat) (h : Keeps r s) :
    Keeps r { s with otp := { s.otp with minVersions := s.otp.minVersions ++ [v] } } :=
  ⟨h.pending, h.mem, h.regs, h.gens, h.owners, h.minVersions.trans (List.prefix_append _ _)⟩

/-! ### Registers, and the memories and semaphores of cores and clusters -/

section
variable {r s : State} {a bytes b u n parity stall width dst pitch q c k v : Nat} {rq : Rq} {w : Word}
  {bs : List (BitVec 8)} {mx : Bool} {rows : List Nat}

theorem answers_execRegisterWrite (h : Keeps r s) : Answers r (execRegisterWrite rq a bytes w s) :=
  answers_next (keeps_ite _ (keeps_csNarrow _ _ h) (keeps_csWrite _ _ _ h))

theorem answers_execShCommit {b : Block} (h : Keeps r s) : Answers r (execShCommit b u s) :=
  answers_next (keeps_forEach _ _ (fun _ _ h => keeps_commitSh _ _ _ h) _ h)

theorem answers_execSramRead (h : Keeps r s) : Answers r (execSramRead rq a n parity stall s) :=
  answers_guard h fun _ h => keeps_sramServe _ _ _ _ _ _ _ h fun _ _ h => keeps_emit _ _ _ _ h

theorem answers_execSramWrite (h : Keeps r s) : Answers r (execSramWrite rq a bs parity stall s) :=
  answers_guard h fun _ h => keeps_sramServe _ _ _ _ _ _ _ h fun _ _ h => keeps_emit _ _ _ _ (keeps_storeBytes _ _ h)

theorem answers_execTransposingWrite {stall : Bool} (h : Keeps r s) :
    Answers r (execTransposingWrite rq width dst pitch mx rows stall s) :=
  answers_guard h fun _ h => keeps_tileCommand _ _ _ _ _ _ _ h

theorem answers_execMemPowerOff (h : Keeps r s) : Answers r (execMemPowerOff rq u q s) :=
  answers_next (keeps_regAct _ _ _ _ h fun _ h => keeps_powerRequest _ _ h)

theorem answers_execMemPowerOn (h : Keeps r s) : Answers r (execMemPowerOn rq u q s) :=
  answers_next (keeps_regAct _ _ _ _ h fun _ h => keeps_powerRequest _ _ h)

theorem answers_execCmPowerOff (h : Keeps r s) : Answers r (execCmPowerOff rq c b s) :=
  answers_next (keeps_regAct _ _ _ _ h fun _ h => keeps_powerRequest _ _ h)

theorem answers_execCmPowerOn (h : Keeps r s) : Answers r (execCmPowerOn rq c b s) :=
  answers_next (keeps_regAct _ _ _ _ h fun _ h => keeps_powerRequest _ _ h)

theorem answers_execPowerDownComplete (h : Keeps r s) : Answers r (execPowerDownComplete k s) :=
  answers_guard h fun _ h => keeps_powerDown _ h

theorem answers_execPowerUpComplete (h : Keeps r s) : Answers r (execPowerUpComplete k s) :=
  answers_guard h fun _ h => keeps_powerUp _ h

theorem answers_execSemWriteSet (h : Keeps r s) : Answers r (execSemWriteSet rq c k v s) :=
  answers_next (keeps_regAct _ _ _ _ h fun _ h => keeps_semWrite _ _ _ _ _ h)

theorem answers_execSemWriteAdd (h : Keeps r s) : Answers r (execSemWriteAdd rq c k v s) :=
  answers_next (keeps_regAct _ _ _ _ h fun _ h => keeps_semWrite _ _ _ _ _ h)

theorem answers_execSemWriteSubtract (h : Keeps r s) : Answers r (execSemWriteSubtract rq c k v s) :=
  answers_next (keeps_regAct _ _ _ _ h fun _ h => keeps_semWrite _ _ _ _ _ h)

theorem answers_execSemaphoreSignal (h : Keeps r s) : Answers r (execSemaphoreSignal n s) := by
  unfold execSemaphoreSignal
  split
  · exact answers_next h
  · refine answers_next ?_
    split
    · next e => exact keeps_signalIn _ (keeps_update (keeps_of_eq e (keeps_sigTravel _ _ _ _ _ h)))
    · next e => exact keeps_update (keeps_of_eq e (keeps_sigTravel _ _ _ _ _ h))
    · next e => exact keeps_of_eq e (keeps_sigTravel _ _ _ _ _ h)

theorem answers_execSemaphoreWait (h : Keeps r s) : Answers r (execSemaphoreWait n s) := by
  unfold execSemaphoreWait
  split
  · exact answers_next h
  · refine answers_next ?_
    split
    · next e => exact keeps_waitIn _ (keeps_update (keeps_of_eq e (keeps_sigTravel _ _ _ _ _ h)))
    · next e => exact keeps_update (keeps_of_eq e (keeps_sigTravel _ _ _ _ _ h))
    · next e => exact keeps_of_eq e (keeps_sigTravel _ _ _ _ _ h)

theorem answers_execSemGrantArrival (h : Keeps r s) : Answers r (execSemGrantArrival n s) := by
  unfold execSemGrantArrival
  split
  · exact answers_next h
  · refine answers_next ?_
    split
    · next e => exact keeps_grantIn _ (keeps_update (keeps_of_eq e (keeps_sigTravel _ _ _ _ _ h)))
    · next e => exact keeps_update (keeps_of_eq e (keeps_sigTravel _ _ _ _ _ h))
    · next e => exact keeps_of_eq e (keeps_sigTravel _ _ _ _ _ h)

end

/-! ### Instructions of a core's own program -/

section
variable {r s : State} {u : Nat} {x : Payload}

theorem answers_execAlu (h : Keeps r s) : Answers r (execAlu u x s) :=
  answers_guard h fun _ h => keeps_predicated _ _ _ h fun _ h => keeps_aluBody _ _ h

theorem answers_execAddi (h : Keeps r s) : Answers r (execAddi u x s) :=
  answers_guard h fun _ h => keeps_immForm _ _ _ h

theorem answers_execAndi (h : Keeps r s) : Answers r (execAndi u x s) :=
  answers_guard h fun _ h => keeps_immForm _ _ _ h

theorem answers_execOri (h : Keeps r s) : Answers r (execOri u x s) :=
  answers_guard h fun _ h => keeps_immForm _ _ _ h

theorem answers_execXori (h : Keeps r s) : Answers r (execXori u x s) :=
  answers_guard h fun _ h => keeps_immForm _ _ _ h

theorem answers_execShi (h : Keeps r s) : Answers r (execShi u x s) :=
  answers_guard h fun _ h => keeps_predicated _ _ _ h fun _ h => keeps_shiBody _ _ h

theorem answers_execLih (h : Keeps r s) : Answers r (execLih u x s) :=
  answers_guard h fun _ h => keeps_lihBody _ _ h

theorem answers_execCmp (h : Keeps r s) : Answers r (execCmp u x s) :=
  answers_guard h fun _ h => keeps_predicated _ _ _ h fun _ h => keeps_cmpBody _ _ h

theorem answers_execPlog (h : Keeps r s) : Answers r (execPlog u x s) :=
  answers_guard h fun _ h => keeps_predicated _ _ _ h fun _ h => keeps_plogBody _ _ h

theorem answers_execLd (h : Keeps r s) : Answers r (execLd u x s) :=
  answers_guard h fun _ h => keeps_predicated _ _ _ h fun _ h => keeps_ldBody _ _ h

theorem answers_execSt (h : Keeps r s) : Answers r (execSt u x s) :=
  answers_guard h fun _ h => keeps_predicated _ _ _ h fun _ h => keeps_stBody _ _ h

theorem answers_execVld (h : Keeps r s) : Answers r (execVld u x s) :=
  answers_guard h fun _ h => keeps_vldBody _ _ h

theorem answers_execVst (h : Keeps r s) : Answers r (execVst u x s) :=
  answers_guard h fun _ h => keeps_vstBody _ _ h

theorem answers_execBr (h : Keeps r s) : Answers r (execBr u x s) :=
  answers_guard h fun _ h => keeps_branchBody _ _ h

theorem answers_execJ (h : Keeps r s) : Answers r (execJ u x s) :=
  answers_guard h fun _ h => keeps_predicated _ _ _ h fun _ h => keeps_jump _ _ h

theorem answers_execJr (h : Keeps r s) : Answers r (execJr u x s) :=
  answers_guard h fun _ h => keeps_predicated _ _ _ h fun _ h => keeps_jrBody _ _ h

theorem answers_execSysNop (h : Keeps r s) : Answers r (execSysNop u x s) :=
  answers_ite (answers_sys h fun _ h => keeps_progFault _ _ _ h) (answers_sys h fun _ h => keeps_advance _ _ h)

theorem answers_execSysEnd (h : Keeps r s) : Answers r (execSysEnd u x s) :=
  answers_sys h fun _ h => keeps_put _ _ _ _ (keeps_advance _ _ h)

theorem answers_execProgramEnd (h : Keeps r s) : Answers r (execProgramEnd u s) :=
  answers_guard h fun _ h => keeps_programEnd _ h

theorem answers_execSysFence (h : Keeps r s) : Answers r (execSysFence u x s) :=
  answers_sys h fun _ h => keeps_ite _ (keeps_coreWait _ _ _ h) (keeps_advance _ _ h)

theorem answers_execSemwait (h : Keeps r s) : Answers r (execSemwait u x s) :=
  answers_sys h fun _ h => keeps_semWaitBody _ _ h

theorem answers_execSemsig (h : Keeps r s) : Answers r (execSemsig u x s) :=
  answers_sys h fun _ h => keeps_semSigBody _ _ h

theorem answers_execSysIcinv (h : Keeps r s) : Answers r (execSysIcinv u x s) :=
  answers_sys h fun _ h => keeps_advance _ _ (keeps_icInv _ h)

theorem answers_execSysTrap (h : Keeps r s) : Answers r (execSysTrap u x s) :=
  answers_sys h fun _ h => keeps_progFault _ _ _ h

theorem answers_execRdtime (h : Keeps r s) : Answers r (execRdtime u x s) :=
  answers_sys h fun _ h => keeps_retire _ _ _ h

theorem answers_execRdcore (h : Keeps r s) : Answers r (execRdcore u x s) :=
  answers_sys h fun _ h => keeps_retire _ _ _ h

theorem answers_execQput (h : Keeps r s) : Answers r (execQput u x s) :=
  answers_sys h fun _ h => keeps_qputBody _ _ h

theorem answers_execRdbase (h : Keeps r s) : Answers r (execRdbase u x s) :=
  answers_sys h fun _ h => keeps_retire _ _ _ h

theorem answers_execLdd (h : Keeps r s) : Answers r (execLdd u x s) :=
  answers_guard h fun _ h => keeps_predicated _ _ _ h fun _ h => keeps_lddBody _ _ h

theorem answers_execStd (h : Keeps r s) : Answers r (execStd u x s) :=
  answers_guard h fun _ h => keeps_predicated _ _ _ h fun _ h => keeps_stdBody _ _ h

theorem answers_execDset (h : Keeps r s) : Answers r (execDset u x s) :=
  answers_guard h fun _ h => keeps_predicated _ _ _ h fun _ h => keeps_dsetBody _ _ h

theorem answers_execValu (h : Keeps r s) : Answers r (execValu u x s) :=
  answers_guard h fun _ h => keeps_valuBody _ _ h

theorem answers_execVcmp (h : Keeps r s) : Answers r (execVcmp u x s) :=
  answers_guard h fun _ h => keeps_vcmpBody _ _ h

theorem answers_execVcvto (h : Keeps r s) : Answers r (execVcvto u x s) :=
  answers_guard h fun _ h => keeps_vcvtoBody _ _ h

theorem answers_execVcvti (h : Keeps r s) : Answers r (execVcvti u x s) :=
  answers_guard h fun _ h => keeps_vcvtiBody _ _ h

theorem answers_execVsplit (h : Keeps r s) : Answers r (execVsplit u x s) :=
  answers_guard h fun _ h => keeps_vsplitBody _ _ h

theorem answers_execVred (h : Keeps r s) : Answers r (execVred u x s) :=
  answers_guard h fun _ h => keeps_vredBody _ _ h

theorem answers_execVmov (h : Keeps r s) : Answers r (execVmov u x s) :=
  answers_guard h fun _ h => keeps_vmovBody _ _ h

end

/-! ### Long instructions, and what becomes of a core's work -/

section
variable {r s : State} {u id error addr op event inst dev : Nat} {bcast parity lost : Bool} {w : LPayload}

theorem answers_execMatmul (h : Keeps r s) : Answers r (execMatmul u bcast w s) :=
  answers_issueLong _ _ _ _ h

theorem answers_execPmout (h : Keeps r s) : Answers r (execPmout u bcast w s) :=
  answers_issueLong _ _ _ _ h

theorem answers_execPmclr (h : Keeps r s) : Answers r (execPmclr u bcast w s) :=
  answers_issueLong _ _ _ _ h

theorem answers_execDmaGather (h : Keeps r s) : Answers r (execDmaGather u bcast w s) :=
  answers_issueDma _ _ _ _ h

theorem answers_execDmaScatter (h : Keeps r s) : Answers r (execDmaScatter u bcast w s) :=
  answers_issueDma _ _ _ _ h

theorem answers_execDmaTranspose (h : Keeps r s) : Answers r (execDmaTranspose u bcast w s) :=
  answers_issueDma _ _ _ _ h

theorem answers_execDmaFill (h : Keeps r s) : Answers r (execDmaFill u bcast w s) :=
  answers_issueDma _ _ _ _ h

theorem answers_execDmaDispatchGather (h : Keeps r s) : Answers r (execDmaDispatchGather u bcast w s) :=
  answers_issueDma _ _ _ _ h

theorem answers_execDmaDispatchScatter (h : Keeps r s) : Answers r (execDmaDispatchScatter u bcast w s) :=
  answers_issueDma _ _ _ _ h

theorem answers_execDmaReduceStore (h : Keeps r s) : Answers r (execDmaReduceStore u bcast w s) :=
  answers_issueDma _ _ _ _ h

theorem answers_execReduce (h : Keeps r s) : Answers r (execReduce u bcast w s) :=
  answers_issueLong _ _ _ _ h

theorem answers_execZmap (h : Keeps r s) : Answers r (execZmap u bcast w s) :=
  answers_issueLong _ _ _ _ h

theorem answers_execIcacheMiss (h : Keeps r s) : Answers r (execIcacheMiss u parity s) := by
  unfold execIcacheMiss
  refine answers_guard h fun t ht => ?_
  split
  · dsimp only
    split
    · next e => exact keeps_progFault _ _ _ (keeps_eventRq _ _ _ _ (keeps_of_eq e (keeps_icFetch _ _ (keeps_update ht))))
    · next e => exact keeps_eventRq _ _ _ _ (keeps_of_eq e (keeps_icFetch _ _ (keeps_update ht)))
    · exact ht
  · exact keeps_icMiss _ _ ht

theorem answers_execResponseArrival (h : Keeps r s) : Answers r (execResponseArrival id error addr s) := by
  unfold execResponseArrival
  dsimp only
  split
  · exact answers_next h
  · refine answers_next ?_
    split
    · next e => exact keeps_respIn _ _ _ (keeps_of_eq e (keeps_respTravel _ _ h))
    · next e => exact keeps_respLost _ (keeps_of_eq e (keeps_respTravel _ _ h))
    · next e => exact keeps_of_eq e (keeps_respTravel _ _ h)

theorem answers_execStepCommit (h : Keeps r s) : Answers r (execStepCommit u op s) := by
  unfold execStepCommit
  split
  · exact answers_guard h fun _ h => keeps_stormStop _ (keeps_replayDone _ _ h)
  · split
    · exact answers_next h
    · split
      · exact answers_guard h fun _ h => keeps_feed _ h
      · exact answers_guard h fun _ h => keeps_commitStep _ _ _ h

theorem answers_execLongInstructionComplete (h : Keeps r s) : Answers r (execLongInstructionComplete op s) := by
  unfold execLongInstructionComplete
  split
  · exact answers_next h
  · exact answers_guard h fun _ h => keeps_feed _ (keeps_completeOp _ h)

theorem answers_execStepReplay (h : Keeps r s) : Answers r (execStepReplay u op event inst dev lost s) := by
  unfold execStepReplay
  split
  · exact answers_next h
  · split
    · exact answers_guard h fun _ h => keeps_stateLost _ _ _ h
    · split
      · exact answers_guard h fun _ h => keeps_failStep _ _ _ _ _ h
      · split
        · exact answers_next h
        · exact answers_guard h fun _ h => keeps_failStep _ _ _ _ _ h

end

/-! ### Integrity -/

section
variable {r s : State} {c l u code verdict v : Nat} {bad silent : List Nat} {lost : Bool} {rq : Rq}

theorem answers_execTakeoverCopyDone (h : Keeps r s) : Answers r (execTakeoverCopyDone c l lost bad s) := by
  unfold execTakeoverCopyDone
  split
  · exact answers_next h
  · exact answers_next (keeps_takeoverEnd _ _ _ (keeps_moveCore _ _ (keeps_copyReads _ _ h)))

theorem answers_execMeInject (h : Keeps r s) : Answers r (execMeInject rq u code s) :=
  answers_next (keeps_csAct _ _ _ h fun _ h => keeps_ite _ h (keeps_update h))

theorem answers_execMeClrCounts (h : Keeps r s) : Answers r (execMeClrCounts rq u s) :=
  answers_next (keeps_csAct _ _ _ h fun _ h => keeps_clearCounts _ h)

theorem answers_execCoreHeartbeatProbe (h : Keeps r s) : Answers r (execCoreHeartbeatProbe c silent s) :=
  answers_guard h fun _ h => keeps_sameRow _ _ (keeps_forEach _ _ (fun _ _ h => keeps_probe _ _ _ h) _ h)

theorem answers_execStormHoldEnd (h : Keeps r s) : Answers r (execStormHoldEnd c s) := by
  unfold execStormHoldEnd
  split
  · exact answers_next h
  · exact answers_guard h fun _ h => keeps_setCeil _ _ _ (keeps_update h)

theorem answers_execStormCeilingLift (h : Keeps r s) : Answers r (execStormCeilingLift c s) := by
  unfold execStormCeilingLift
  split
  · exact answers_next h
  · split
    · exact answers_next h
    · exact answers_guard h fun _ h => keeps_setCeil _ _ _ (keeps_update h)

theorem answers_execSequencerMismatch (h : Keeps r s) : Answers r (execSequencerMismatch c s) :=
  answers_next (keeps_ite _ (keeps_fenceCluster _ _ (keeps_update (keeps_event _ _ _ h))) (keeps_resetSeq _
    (keeps_endStreams _ _ (keeps_update (keeps_event _ _ _ h)))))

theorem answers_execDressingSchedule (h : Keeps r s) : Answers r (execDressingSchedule s) := by
  refine answers_guard h fun t h => ?_
  have hl : Keeps r ((t.forEach t.allActive (fun u s => s.overdueCheck u)).showOverdue.leaseRuns) :=
    keeps_leaseRuns (keeps_showOverdue (keeps_forEach _ _ (fun _ _ h => keeps_overdueCheck _ h) _ h))
  refine keeps_ite _ hl ?_
  split
  · exact hl
  · exact keeps_startDress _ hl

theorem answers_execDressingRunEnd (h : Keeps r s) : Answers r (execDressingRunEnd u verdict s) := by
  unfold execDressingRunEnd
  split
  · exact answers_next h
  · exact answers_next (keeps_leaseRuns (keeps_ite _ (keeps_dressEnd _ _ _ h) (keeps_dressEnd _ _ _ h)))

theorem answers_execLedgerReadAdvance (h : Keeps r s) : Answers r (execLedgerReadAdvance rq v s) :=
  answers_next (keeps_csAct _ _ _ h fun _ h => keeps_ledgerAdvance _ h)

theorem answers_execLedgerMirrorSet (h : Keeps r s) : Answers r (execLedgerMirrorSet rq v s) :=
  answers_next (keeps_csAct _ _ _ h fun _ h => keeps_mirrorSet _ h)

end

/-! ### Streams and their records -/

section
variable {r s : State} {id c i l b n k v : Nat} {mismatch qput : Bool} {rq : Rq} {w : Word}

theorem answers_execStreamArm (h : Keeps r s) : Answers r (execStreamArm rq id w s) :=
  answers_entryAct _ _ _ _ h

theorem answers_execStreamDisarm (h : Keeps r s) : Answers r (execStreamDisarm rq id w s) :=
  answers_entryAct _ _ _ _ h

theorem answers_execStreamFree (h : Keeps r s) : Answers r (execStreamFree rq id w s) :=
  answers_entryAct _ _ _ _ h

theorem answers_execStreamReleaseBoundary (h : Keeps r s) : Answers r (execStreamReleaseBoundary mismatch s) :=
  answers_guard h fun _ h => keeps_ite _ (keeps_boundaryLost h) (keeps_boundary h)

theorem answers_execStreamSlotAssign (h : Keeps r s) : Answers r (execStreamSlotAssign c i s) := by
  unfold execStreamSlotAssign
  split
  · exact answers_next h
  · exact answers_guard h fun _ h => keeps_put _ _ _ _ (keeps_dropAhead _ _ (keeps_setWait _ _ (keeps_setReg _ _ _ _
      (keeps_update h))))

theorem answers_execStreamStop (h : Keeps r s) : Answers r (execStreamStop rq id s) :=
  answers_next (keeps_csAct _ _ _ h fun _ h => keeps_stopAct _ _ h)

theorem answers_execTensor (h : Keeps r s) : Answers r (execTensor c i s) :=
  answers_issueRec h fun _ _ h => keeps_tensor _ h

theorem answers_execTensorDelivery (h : Keeps r s) : Answers r (execTensorDelivery c s) := by
  unfold execTensorDelivery
  split
  · exact answers_next h
  · dsimp only
    split
    · exact answers_next (keeps_recFault _ _ _ (keeps_update h))
    · exact answers_ite (answers_next (keeps_recFault _ _ _ (keeps_update h)))
        (answers_next (keeps_ite _ (keeps_deliver _ _ (keeps_update h)) h))

theorem answers_execCallCore (h : Keeps r s) : Answers r (execCallCore c i s) :=
  answers_issueRec h fun _ _ h => keeps_callCore _ h

theorem answers_execCoreProgramStart (h : Keeps r s) : Answers r (execCoreProgramStart c l s) := by
  unfold execCoreProgramStart
  split
  · exact answers_next h
  · exact answers_guard h fun _ h => keeps_startProgram _ _ h

theorem answers_execDma (h : Keeps r s) : Answers r (execDma c i s) :=
  answers_issueRec h fun _ _ h => keeps_dmaRec _ h

theorem answers_execSemSignal (h : Keeps r s) : Answers r (execSemSignal c i s) :=
  answers_issueNow h fun _ _ h => keeps_semSignalRec _ h

theorem answers_execSemWait (h : Keeps r s) : Answers r (execSemWait c i s) :=
  answers_issueNow h fun _ _ h => keeps_semWaitRec _ h

theorem answers_execFlagSet (h : Keeps r s) : Answers r (execFlagSet c i s) :=
  answers_issueNow h fun _ _ h => keeps_flagSetRec _ h

theorem answers_execFlagWait (h : Keeps r s) : Answers r (execFlagWait c i s) :=
  answers_issueNow h fun _ _ h => keeps_flagWaitRec _ h

theorem answers_execBarrier (h : Keeps r s) : Answers r (execBarrier c i s) :=
  answers_issueNow h fun _ _ h => keeps_barrierRec _ h

theorem answers_execBarrierWaveRelease (h : Keeps r s) : Answers r (execBarrierWaveRelease b s) := by
  unfold execBarrierWaveRelease
  split
  · exact answers_next h
  · exact answers_guard h fun _ h => keeps_releaseWave _ _ _ _ h

theorem answers_execWaitTime (h : Keeps r s) : Answers r (execWaitTime c i s) :=
  answers_issueNow h fun _ _ h => keeps_waitTimeRec _ h

theorem answers_execWaitTimeExpiry (h : Keeps r s) : Answers r (execWaitTimeExpiry c i s) := by
  unfold execWaitTimeExpiry
  split
  · exact answers_next h
  · exact answers_guard h fun _ h => keeps_waitMet _ _ h

theorem answers_execReduceQ (h : Keeps r s) : Answers r (execReduceQ c i s) :=
  answers_issueNow h fun _ _ h => keeps_reduceQRec _ h

theorem answers_execBranch (h : Keeps r s) : Answers r (execBranch c i s) :=
  answers_issueRec h fun _ _ h => keeps_branchRec _ h

theorem answers_execRampNotice (h : Keeps r s) : Answers r (execRampNotice c i s) :=
  answers_issueNow h fun _ _ h => keeps_recDone _ (keeps_deliverNotice _ h)

theorem answers_execRampNoticeExpiry (h : Keeps r s) : Answers r (execRampNoticeExpiry s) :=
  answers_next (keeps_showNotices (keeps_update h))

theorem answers_execCheckpointMark (h : Keeps r s) : Answers r (execCheckpointMark c i s) :=
  answers_issueNow h fun _ _ h => keeps_markRec _ h

theorem answers_execEndCmd (h : Keeps r s) : Answers r (execEndCmd c i s) :=
  answers_issueNow h fun _ _ h => keeps_endRec _ h

theorem answers_execLaunchComplete (h : Keeps r s) : Answers r (execLaunchComplete n s) := by
  unfold execLaunchComplete
  split
  · exact answers_next h
  · exact answers_guard h fun _ h => keeps_launchDone _ h

theorem answers_execStreamWaitTimeout (h : Keeps r s) : Answers r (execStreamWaitTimeout qput k s) := by
  unfold execStreamWaitTimeout
  split
  · exact answers_guard h fun _ h => keeps_timeOut _ _ _ _ _ _ _ h
  · split
    · exact answers_next h
    · split
      · exact answers_next h
      · exact answers_guard h fun _ h => keeps_timeOut _ _ _ _ _ _ _ h

theorem answers_execFlagWriteSet (h : Keeps r s) : Answers r (execFlagWriteSet rq c k v s) :=
  answers_flagWrite _ _ _ _ _ h

theorem answers_execFlagWriteAdd (h : Keeps r s) : Answers r (execFlagWriteAdd rq c k v s) :=
  answers_flagWrite _ _ _ _ _ h

theorem answers_execFlagWriteMax (h : Keeps r s) : Answers r (execFlagWriteMax rq c k v s) :=
  answers_flagWrite _ _ _ _ _ h

end

/-! ### The router unit and the network -/

section
variable {r s : State} {c desc i flit k field kind unit index port n id : Nat} {again ok flitsLeft mismatch : Bool}
  {groups silent : List Nat} {rq : Rq} {bad : Option Nat} {reads : List (Rq × Nat × Nat)}

theorem answers_execRouteSubmit (h : Keeps r s) : Answers r (execRouteSubmit rq c desc s) :=
  answers_next (keeps_csAct _ _ _ h fun _ h => keeps_submitJob _ _ _ h)

theorem answers_execRoutingJobStart (h : Keeps r s) : Answers r (execRoutingJobStart c bad s) := by
  unfold execRoutingJobStart
  split
  · exact answers_next h
  · exact answers_guard h fun _ h => keeps_getD _ (keeps_startJob _ _ _ h) h

theorem answers_execRoutingJobEnd (h : Keeps r s) : Answers r (execRoutingJobEnd c bad s) := by
  unfold execRoutingJobEnd
  split
  · exact answers_next h
  · refine answers_guard h fun t h => keeps_getD _ ?_ h
    split
    · exact keeps_runJob _ _ _ _ _ h
    · exact keeps_jobDone _ h

theorem answers_execLinkCrcRetry (h : Keeps r s) : Answers r (execLinkCrcRetry i flit groups again s) :=
  answers_guard h fun _ h => keeps_crcRetry _ _ _ _ h

theorem answers_execLinkIdleTimeout (h : Keeps r s) : Answers r (execLinkIdleTimeout i s) :=
  answers_guard h fun _ h => keeps_retrain _ h

theorem answers_execLinkRetrainDone (h : Keeps r s) : Answers r (execLinkRetrainDone i ok s) :=
  answers_guard h fun _ h => keeps_ite _ (keeps_trained _ h) (keeps_untrained _ h)

theorem answers_execLinkRetrain (h : Keeps r s) : Answers r (execLinkRetrain rq i s) :=
  answers_next (keeps_csAct _ _ _ h fun _ h => keeps_when _ _ h fun _ h => keeps_retrain _ h)

theorem answers_execLinkRemove (h : Keeps r s) : Answers r (execLinkRemove rq i s) :=
  answers_next (keeps_csAct _ _ _ h fun _ h => keeps_when _ _ h fun _ h => keeps_removeLink _ h)

theorem answers_execRouterHeartbeatCheck (h : Keeps r s) : Answers r (execRouterHeartbeatCheck silent s) :=
  answers_guard h fun _ h => keeps_forEach _ _ (fun _ _ h => keeps_routerBeat _ _ h) _ h

theorem answers_execTopoSwitchArm (h : Keeps r s) : Answers r (execTopoSwitchArm rq s) :=
  answers_next (keeps_csAct _ _ _ h fun _ h => keeps_armSwitch h)

theorem answers_execTopoSwitch (h : Keeps r s) : Answers r (execTopoSwitch s) := by
  unfold execTopoSwitch
  split
  · exact answers_next h
  · exact answers_guard h fun _ h => keeps_switchTables _ h

theorem answers_execSweepStart (h : Keeps r s) : Answers r (execSweepStart rq k s) :=
  answers_next (keeps_csAct _ _ _ h fun _ h => keeps_armSweep _ h)

theorem answers_execSweepExpiry (h : Keeps r s) : Answers r (execSweepExpiry reads s) := by
  unfold execSweepExpiry
  split
  · exact answers_next h
  · exact answers_next (keeps_sweepNow _ _ h)

theorem answers_execRouterDrainEnd (h : Keeps r s) : Answers r (execRouterDrainEnd field flitsLeft s) := by
  unfold execRouterDrainEnd
  split
  · exact answers_next h
  · exact answers_guard h fun _ h => keeps_routersOff _ (keeps_update h)

theorem answers_execOstlerHoldWatchdog (h : Keeps r s) : Answers r (execOstlerHoldWatchdog kind unit index s) := by
  unfold execOstlerHoldWatchdog
  split
  · exact answers_next h
  · exact answers_guard h fun _ h => keeps_holdFires _ _ _ _ h

theorem answers_execCreditWatchdog (h : Keeps r s) : Answers r (execCreditWatchdog k port s) := by
  unfold execCreditWatchdog
  split
  · exact answers_next h
  · exact answers_guard h fun _ h => keeps_creditStall _ _ _ _ h

theorem answers_execReduceAddMerge (h : Keeps r s) : Answers r (execReduceAddMerge k n mismatch s) := by
  unfold execReduceAddMerge
  split
  · exact answers_next h
  · refine answers_guard h fun t h => ?_
    split
    · exact keeps_redEnter _ _ _ h
    · exact keeps_ite _ (keeps_redPerform _ _ _ h) (keeps_redMove _ _ _ h)

theorem answers_execReduceEntryForward (h : Keeps r s) : Answers r (execReduceEntryForward id s) := by
  unfold execReduceEntryForward
  split
  · exact answers_next h
  · exact answers_guard h fun _ h => keeps_redForward _ h

theorem answers_execReduceAck (h : Keeps r s) : Answers r (execReduceAck id s) := by
  unfold execReduceAck
  split
  · exact answers_next h
  · exact answers_next (keeps_forEach _ _ (fun _ _ h => keeps_replyFlit _ _ h) _ (keeps_update h))

end

/-! ### HBM and translation -/

section
variable {r s : State} {op pa parity ecc k va lost l first pages frames : Nat} {raw wr ex : Bool} {rq : Rq}
  {write : Option (List (Option (BitVec 8)))} {counts : List Nat} {bad : List (Nat × Nat)}

theorem answers_execHbmAccess (h : Keeps r s) : Answers r (execHbmAccess rq op pa raw write parity ecc s) := by
  refine answers_guard h fun t h => keeps_ite _ (keeps_physRefused _ _ _ h) (keeps_when _ _ h fun t h => ?_)
  split
  · exact keeps_hbmWrite _ _ _ _ _ _ (keeps_frontGrant _ _ h)
  · exact keeps_hbmRead _ _ _ _ _ (keeps_frontGrant _ _ h)

theorem answers_execHbmEcsPoll (h : Keeps r s) : Answers r (execHbmEcsPoll counts s) :=
  answers_guard h fun _ h => keeps_forEach _ _ (fun _ _ h => keeps_ite _ (keeps_event _ _ _ (keeps_update h))
    (keeps_update h)) _ h

theorem answers_execHbmRateChange (h : Keeps r s) : Answers r (execHbmRateChange k s) :=
  answers_guard h fun _ h => keeps_ite _ (keeps_update h) (keeps_put _ _ _ _ (keeps_update h))

theorem answers_execHbmRateChangeDone (h : Keeps r s) : Answers r (execHbmRateChangeDone k s) :=
  answers_guard h fun _ h => keeps_event _ _ _ (keeps_put _ _ _ _ (keeps_put _ _ _ _ h))

theorem answers_execTranslationWalk (h : Keeps r s) : Answers r (execTranslationWalk rq op va wr ex parity ecc lost s) :=
  answers_guard h fun _ h => keeps_walkRow _ _ _ _ _ _ _ _ h

theorem answers_execTlbInvalidate (h : Keeps r s) : Answers r (execTlbInvalidate rq l first pages s) :=
  answers_next (keeps_csAct _ _ _ h fun _ h => keeps_tlbInval _ _ _ h)

theorem answers_execTlbInvalidateDone (h : Keeps r s) : Answers r (execTlbInvalidateDone s) := by
  unfold execTlbInvalidateDone
  split
  · exact answers_next h
  · next l first pages _ =>
    have hi := keeps_afterInval (keeps_invalDone l first pages h)
    refine answers_next (keeps_pumpInval ?_)
    split
    · exact keeps_done _ _ _ hi
    · exact hi

theorem answers_execScrubSubmit (h : Keeps r s) : Answers r (execScrubSubmit rq first frames s) :=
  answers_next (keeps_csAct _ _ _ h fun _ h => keeps_scrubSubmit _ _ h)

theorem answers_execScrubJobDone (h : Keeps r s) : Answers r (execScrubJobDone bad s) := by
  unfold execScrubJobDone
  split
  · exact answers_next h
  · exact answers_guard h fun _ h => keeps_afterScrub _ (keeps_pumpScrub (keeps_freeScrubbed _ (keeps_scrubDone _ _ _ h)))

end

/-! ### Time and clocks -/

section
variable {r s : State} {kind port sub domain time frac amount v i w target count k : Nat} {faults late : List (Nat × Nat)}
  {who : List Nat} {rq : Rq}

theorem answers_execRegionSyncCheck (h : Keeps r s) : Answers r (execRegionSyncCheck faults s) :=
  answers_guard h fun _ h => keeps_forEach _ _ (fun _ _ h => keeps_skewRegion _ _ h) _ (keeps_forEach _ _ (fun _ _ h =>
    keeps_reloadRegion _ h) _ h)

theorem answers_execPtpSample (h : Keeps r s) : Answers r (execPtpSample kind port sub domain who time frac s) :=
  answers_guard h fun _ h => keeps_ptpFrame _ _ _ _ h

theorem answers_execSiteTickEdge (h : Keeps r s) : Answers r (execSiteTickEdge frac s) :=
  answers_guard h fun _ h => keeps_tickEdge _ h

theorem answers_execDisciplineHoldover (h : Keeps r s) : Answers r (execDisciplineHoldover s) := by
  unfold execDisciplineHoldover
  exact answers_guard h fun _ h => keeps_stick _ _ _ (keeps_event _ _ _ (keeps_put _ _ _ _ (keeps_update h)))

theorem answers_execStepForward (h : Keeps r s) : Answers r (execStepForward rq amount s) :=
  answers_next (keeps_csAct _ _ _ h fun _ h => keeps_stepForward _ h)

theorem answers_execSiteNowWrite (h : Keeps r s) : Answers r (execSiteNowWrite rq v s) :=
  answers_next (keeps_csAct _ _ _ h fun _ h => keeps_siteNowWrite _ h)

theorem answers_execSiteTickOutPulse (h : Keeps r s) : Answers r (execSiteTickOutPulse s) :=
  answers_guard h fun _ h => keeps_update h

theorem answers_execSiteTickOutEnd (h : Keeps r s) : Answers r (execSiteTickOutEnd s) :=
  answers_guard h fun _ h => keeps_update h

theorem answers_execStepTableWrite (h : Keeps r s) : Answers r (execStepTableWrite rq i w s) :=
  answers_guard h fun _ h => keeps_csAct _ _ _ h fun _ h => keeps_stepTableWrite _ _ h

theorem answers_execSwitchCountWrite (h : Keeps r s) : Answers r (execSwitchCountWrite rq target count s) :=
  answers_next (keeps_csAct _ _ _ h fun _ h => keeps_startSwitch _ _ h)

theorem answers_execFrequencySwitch (h : Keeps r s) : Answers r (execFrequencySwitch late s) := by
  unfold execFrequencySwitch
  split
  · exact answers_next h
  · exact answers_guard h fun _ h => keeps_switchAtS _ _ h

theorem answers_execRegionLateSwitch (h : Keeps r s) : Answers r (execRegionLateSwitch k s) := by
  unfold execRegionLateSwitch
  split
  · exact answers_next h
  · split
    · exact answers_next h
    · exact answers_ite (answers_guard h fun _ h => keeps_switchRegion _ _ h) (answers_guard h fun _ h =>
        keeps_lateSwitch _ _ h)

theorem answers_execFrequencySwitchComplete (h : Keeps r s) : Answers r (execFrequencySwitchComplete s) := by
  unfold execFrequencySwitchComplete
  split
  · exact answers_next h
  · exact answers_guard h fun _ h => keeps_event _ _ _ (keeps_put _ _ _ _ (keeps_update h))

theorem answers_execRegionCeilingSwitch (h : Keeps r s) : Answers r (execRegionCeilingSwitch k s) := by
  unfold execRegionCeilingSwitch
  exact answers_guard h fun _ h => keeps_when _ _ (keeps_moveClock _ h) fun _ h => keeps_cutRuns _ h

end

/-! ### Power and heat -/

section
variable {r s : State} {d phase board demand duty gate pace hbm which v i c f : Nat} {acts leaks temps bad : List Nat}
  {vals : List (Nat × Nat)} {pause : Bool} {rq : Rq}

theorem answers_execPhaseFault (h : Keeps r s) : Answers r (execPhaseFault d phase s) :=
  answers_guard h fun _ h => keeps_phaseFault _ _ h

theorem answers_execDomainMeasure (h : Keeps r s) : Answers r (execDomainMeasure vals s) :=
  answers_guard h fun _ h => keeps_update (keeps_forEach _ _ (fun _ _ h => keeps_measureDomain _ _ _ h) _ h)

theorem answers_execEstimatorCalibration (h : Keeps r s) : Answers r (execEstimatorCalibration s) :=
  answers_guard h fun _ h => keeps_forEach _ _ (fun _ _ h => keeps_calibrate _ h) _ h

theorem answers_execLimiterTick (h : Keeps r s) :
    Answers r (execLimiterTick acts leaks board demand duty pause gate pace hbm s) :=
  answers_guard h fun _ h => keeps_limit _ _ _ _ _ _ _ (keeps_takeCaps (keeps_history _ (keeps_estimate _ _ _ h)))

theorem answers_execCapWrite (h : Keeps r s) : Answers r (execCapWrite rq which v s) :=
  answers_guard h fun _ h => keeps_csAct _ _ _ h fun _ h => keeps_capWrite _ _ h

theorem answers_execShedAssert (h : Keeps r s) : Answers r (execShedAssert s) :=
  answers_guard h fun _ h => keeps_pwEvent _ _ _ _ _ (keeps_stick _ _ _ (keeps_put _ _ _ _ (keeps_update h)))

theorem answers_execShedRelease (h : Keeps r s) : Answers r (execShedRelease s) :=
  answers_guard h fun _ h => keeps_pwEvent _ _ _ _ _ (keeps_put _ _ _ _ (keeps_update h))

theorem answers_execPowerCeilingLower (h : Keeps r s) : Answers r (execPowerCeilingLower s) := by
  unfold execPowerCeilingLower
  split
  · exact answers_next h
  · exact answers_guard h fun _ h => keeps_overrides (keeps_update (keeps_forEach _ _ (fun _ _ h =>
      keeps_setCeil _ _ _ h) _ h))

theorem answers_execPowerCeilingRaise (h : Keeps r s) : Answers r (execPowerCeilingRaise s) := by
  unfold execPowerCeilingRaise
  split
  · exact answers_next h
  · exact answers_guard h fun _ h => keeps_overrides (keeps_update (keeps_forEach _ _ (fun _ _ h =>
      keeps_setCeil _ _ _ h) _ h))

theorem answers_execCapScheduleStep (h : Keeps r s) : Answers r (execCapScheduleStep i s) :=
  answers_guard h fun _ h => keeps_applySched _ h

theorem answers_execSensorScan (h : Keeps r s) : Answers r (execSensorScan temps bad s) :=
  answers_guard h fun _ h => keeps_overrides (keeps_scan _ _ h)

theorem answers_execThermalCeilingFall (h : Keeps r s) : Answers r (execThermalCeilingFall c s) := by
  unfold execThermalCeilingFall
  exact answers_guard h fun _ h => keeps_overrides (keeps_setThermal _ _ (keeps_update h))

theorem answers_execThermalCeilingRise (h : Keeps r s) : Answers r (execThermalCeilingRise c s) := by
  unfold execThermalCeilingRise
  exact answers_guard h fun _ h => keeps_overrides (keeps_setCeil _ _ _ (keeps_update h))

theorem answers_execFieldRoutersOff (h : Keeps r s) : Answers r (execFieldRoutersOff f s) := by
  unfold execFieldRoutersOff
  exact answers_guard h fun _ h => keeps_event _ _ _ (keeps_update (keeps_forEach _ _ (fun _ _ h => keeps_put _ _ _ _ h) _ h))

end

/-! ### Power pins and the start -/

section
variable {r s : State} {straps done source version size offset what fails : Nat} {resetN list cut : Bool}
  {hdr : Option MsgHdr} {bs : List (BitVec 8)} {p : HostList} {rq : Rq}

theorem answers_execVstbyValid (h : Keeps r s) : Answers r (execVstbyValid straps resetN s) :=
  answers_guard h fun _ h => keeps_standbyUp _ _ h

theorem answers_execPwrGoodRise (h : Keeps r s) : Answers r (execPwrGoodRise s) :=
  answers_guard h fun _ h => keeps_railsGood h

theorem answers_execPwrGoodFall (h : Keeps r s) : Answers r (execPwrGoodFall s) :=
  answers_guard h fun _ h => keeps_railsLost h

theorem answers_execResetNAssert (h : Keeps r s) : Answers r (execResetNAssert s) :=
  answers_guard h fun _ h => keeps_resetHeld h

theorem answers_execResetNRelease (h : Keeps r s) : Answers r (execResetNRelease straps s) :=
  answers_guard h fun _ h => keeps_resetReleased _ h

theorem answers_execStartSequence (h : Keeps r s) : Answers r (execStartSequence s) :=
  answers_guard h fun _ h => keeps_startSequence h

theorem answers_execStartStepWatchdog (h : Keeps r s) : Answers r (execStartStepWatchdog done s) :=
  answers_guard h fun _ h => keeps_deviceReset _ (keeps_outcomeSet _ (keeps_ite _ (keeps_put _ _ _ _ h) h))

theorem answers_execBootRequest (h : Keeps r s) : Answers r (execBootRequest s) :=
  answers_guard h fun _ h => keeps_forEach _ _ (fun _ _ h => keeps_emit _ _ _ _ h) _ (keeps_update h)

theorem answers_execImageOffer (h : Keeps r s) : Answers r (execImageOffer hdr source version size list s) := by
  unfold execImageOffer
  split
  · exact answers_next (keeps_ite _ (keeps_bootOffer _ _ _ _ h) h)
  · exact answers_next (keeps_message _ _ _ _ _ h fun _ _ h => keeps_stageOffer _ _ _ _ h)

theorem answers_execImageData (h : Keeps r s) : Answers r (execImageData hdr source offset bs s) := by
  unfold execImageData
  split
  · exact answers_next (keeps_inTransfer _ _ h fun _ _ h => keeps_chunk _ _ _ _ h)
  · exact answers_next (keeps_message _ _ _ _ _ h fun _ _ h => keeps_inTransfer _ _ h fun _ _ h => keeps_chunk _ _ _ _ h)

theorem answers_execDefectList (h : Keeps r s) : Answers r (execDefectList hdr source p s) := by
  unfold execDefectList
  split
  · exact answers_next (keeps_inTransfer _ _ h fun _ _ h => keeps_listMessage _ _ h)
  · exact answers_next (keeps_message _ _ _ _ _ h fun _ _ h => keeps_inTransfer _ _ h fun _ _ h => keeps_listMessage _ _ h)

theorem answers_execImageEnd (h : Keeps r s) : Answers r (execImageEnd hdr source s) := by
  unfold execImageEnd
  split
  · exact answers_next (keeps_inTransfer _ _ h fun _ _ h => keeps_bootEnd _ _ h)
  · exact answers_next (keeps_message _ _ _ _ _ h fun _ _ h => keeps_inTransfer _ _ h fun _ _ h => keeps_stageEnd _ _ h)

theorem answers_execImageTransferTimeout (h : Keeps r s) : Answers r (execImageTransferTimeout s) := by
  unfold execImageTransferTimeout
  split
  · exact answers_next h
  · exact answers_guard h fun _ h => keeps_update h

theorem answers_execBootInstruct (h : Keeps r s) : Answers r (execBootInstruct what s) :=
  answers_guard h fun _ h => keeps_instructed _ h

theorem answers_execWholeDeviceReset (h : Keeps r s) : Answers r (execWholeDeviceReset rq s) :=
  answers_next (keeps_csAct _ _ _ h fun _ h => keeps_deviceReset _ h)

theorem answers_execBurnGeneration (h : Keeps r s) : Answers r (execBurnGeneration rq fails cut s) :=
  answers_next (keeps_csAct _ _ _ h fun _ h => keeps_burn _ _ h)

theorem answers_execClearFailureCounts (h : Keeps r s) : Answers r (execClearFailureCounts rq s) :=
  answers_next (keeps_csAct _ _ _ h fun _ h => keeps_put _ _ _ _ h)

end

/-! ### Resets -/

section
variable {r s : State} {c slot l id : Nat} {rq : Rq} {scrub : Bool}

theorem answers_execCoreReset (h : Keeps r s) : Answers r (execCoreReset rq c slot s) :=
  answers_next (keeps_csAct _ _ _ h fun _ h => keeps_ite _ h (keeps_coreReset _ h))

theorem answers_execClusterReset (h : Keeps r s) : Answers r (execClusterReset rq c scrub s) :=
  answers_next (keeps_csAct _ _ _ h fun _ h => keeps_clusterResetReq _ _ h)

theorem answers_execGlLodgingResetStart (h : Keeps r s) : Answers r (execGlLodgingResetStart rq l scrub s) :=
  answers_next (keeps_csAct _ _ _ h fun _ h => keeps_lodgingResetReq _ _ h)

theorem answers_execLodgingFreezePoint (h : Keeps r s) : Answers r (execLodgingFreezePoint l s) := by
  unfold execLodgingFreezePoint
  split
  · exact answers_next h
  · exact answers_guard h fun _ h => keeps_setPhase _ _ (keeps_unpark _ h)

theorem answers_execLodgingResetSweep (h : Keeps r s) : Answers r (execLodgingResetSweep l s) := by
  unfold execLodgingResetSweep
  split
  · exact answers_next h
  · exact answers_guard h fun _ h => keeps_setPhase _ _ (keeps_sweepLodging _ h)

theorem answers_execLodgingResetComplete (h : Keeps r s) : Answers r (execLodgingResetComplete l s) := by
  unfold execLodgingResetComplete
  split
  · exact answers_next h
  · exact answers_guard h fun _ h => keeps_afterLodgingReset _ (keeps_lodgingResetEnd _ _ h)

theorem answers_execAbsorbedResponse (h : Keeps r s) : Answers r (execAbsorbedResponse id s) := by
  unfold execAbsorbedResponse
  split
  · exact answers_next h
  · exact answers_next (keeps_eventSummed _ _ _ _ (keeps_wrap _ _ _ _ (keeps_put _ _ _ _ (keeps_update h))))

end

/-! ### Sessions, lodgings and management -/

section
variable {r s : State}
  {role l key n nonce k id dir wrapped c port sub mac ip4 ip6 w dst written fails v mask start length count : Nat}
  {mgmt remove scrub free cut force intact : Bool} {hdr : MsgHdr} {versions : List (List Nat)}
  {modulus : Option (List (BitVec 8))} {q : LodgingReq} {es : List PageEntry} {fs : List Nat} {ws : List (Nat × Nat × Word)}

theorem answers_execAttach (h : Keeps r s) : Answers r (execAttach hdr mgmt role l key versions s) :=
  answers_guard h fun _ h => keeps_ite _ (keeps_stick _ _ _ h) (keeps_attachAct _ _ _ _ _ h)

theorem answers_execDetach (h : Keeps r s) : Answers r (execDetach hdr s) :=
  answers_next (keeps_message _ _ _ _ _ h fun _ _ h => keeps_endSession _ _ (keeps_done _ _ _ h))

theorem answers_execSessionTimeout (h : Keeps r s) : Answers r (execSessionTimeout n s) := by
  unfold execSessionTimeout
  split
  · exact answers_next h
  · exact answers_guard h fun _ h => keeps_endSession _ _ h

theorem answers_execOwnerBind (h : Keeps r s) : Answers r (execOwnerBind hdr s) :=
  answers_next (keeps_message _ _ _ _ _ h fun _ _ h => keeps_ite _ (keeps_refused _ _ _ _ h) (keeps_done _ _ _
    (keeps_event _ _ _ (keeps_addOwner _ h))))

theorem answers_execAttestReq (h : Keeps r s) : Answers r (execAttestReq hdr nonce modulus s) :=
  answers_next (keeps_serialMessage _ _ _ _ _ h fun _ _ h => keeps_ite _ (keeps_refused _ _ _ _ h) (keeps_attest _ _ _ h))

theorem answers_execKeyInstall (h : Keeps r s) : Answers r (execKeyInstall hdr l k id dir wrapped s) :=
  answers_next (keeps_serialMessage _ _ _ _ _ h fun _ _ h => keeps_ite _ (keeps_malformed _ _ h)
    (keeps_keyInstall _ _ _ _ _ _ h))

theorem answers_execKeyErase (h : Keeps r s) : Answers r (execKeyErase hdr l k s) :=
  answers_next (keeps_message _ _ _ _ _ h fun _ _ h => keeps_ite _ (keeps_refused _ _ _ _ (keeps_eventL _ _ _ _ h))
    (keeps_done _ _ _ (keeps_eraseSlot _ _ h)))

theorem answers_execLodgingOpen (h : Keeps r s) : Answers r (execLodgingOpen hdr q s) :=
  answers_next (keeps_serialMessage _ _ _ _ _ h fun _ _ h => keeps_ite _ (keeps_malformed _ _ h)
    (keeps_beginGrant _ _ _ _ _ h))

theorem answers_execLodgingChange (h : Keeps r s) : Answers r (execLodgingChange hdr q remove s) :=
  answers_next (keeps_serialMessage _ _ _ _ _ h fun _ _ h => keeps_ite _ (keeps_malformed _ _ h) (keeps_ite _ (keeps_ite _
    (keeps_beginLeave _ _ _ h) (keeps_refused _ _ _ _ h)) (keeps_beginGrant _ _ _ _ _ h)))

theorem answers_execLodgingClose (h : Keeps r s) : Answers r (execLodgingClose hdr l s) :=
  answers_next (keeps_serialMessage _ _ _ _ _ h fun _ _ h => keeps_ite _ (keeps_malformed _ _ h) (keeps_ite _
    (keeps_beginLeave _ _ _ h) (keeps_refused _ _ _ _ h)))

theorem answers_execLodgingReset (h : Keeps r s) : Answers r (execLodgingReset hdr l scrub s) :=
  answers_next (keeps_serialMessage _ _ _ _ _ h fun _ _ h => keeps_ite _ (keeps_malformed _ _ h) (keeps_ite _
    (keeps_lodgingResetReq _ _ (keeps_update h)) (keeps_refused _ _ _ _ h)))

theorem answers_execPageMap (h : Keeps r s) : Answers r (execPageMap hdr l es s) :=
  answers_next (keeps_serialMessage _ _ _ _ _ h fun _ _ h => keeps_ite _ (keeps_malformed _ _ h) (keeps_ite _
    (keeps_refused _ _ _ _ h) (keeps_ite _ (keeps_done _ _ _ h) (keeps_pageMap _ _ _ h))))

theorem answers_execFrameReturn (h : Keeps r s) : Answers r (execFrameReturn hdr l fs s) :=
  answers_next (keeps_serialMessage _ _ _ _ _ h fun _ _ h => keeps_ite _ (keeps_refused _ _ _ _ h) (keeps_ite _
    (keeps_done _ _ _ h) (keeps_releaseFrames _ _ _ h)))

theorem answers_execConnOpen {q : ConnReq} (h : Keeps r s) : Answers r (execConnOpen hdr l q s) :=
  answers_next (keeps_message _ _ _ _ _ h fun _ _ h => keeps_ite _ (keeps_malformed _ _ h) (keeps_ite _
    (keeps_connOpen _ _ _ h) (keeps_refused _ _ _ _ (keeps_openEvent _ _ _ h))))

theorem answers_execConnClose (h : Keeps r s) : Answers r (execConnClose hdr l c s) :=
  answers_next (keeps_message _ _ _ _ _ h fun _ _ h => keeps_ite _ (keeps_refused _ _ _ _ h) (keeps_done _ _ _
    (keeps_connClose _ _ h)))

theorem answers_execAddrSet (h : Keeps r s) : Answers r (execAddrSet hdr port sub mac ip4 ip6 s) :=
  answers_next (keeps_message _ _ _ _ _ h fun _ _ h => keeps_ite _ (keeps_malformed _ _ h) (keeps_done _ _ _
    (keeps_update h)))

theorem answers_execLedgerRead (h : Keeps r s) : Answers r (execLedgerRead hdr w free s) :=
  answers_next (keeps_message _ _ _ _ _ h fun _ _ h => keeps_ledgerRead _ _ _ h)

theorem answers_execEventPushRetry (h : Keeps r s) : Answers r (execEventPushRetry dst written s) := by
  unfold execEventPushRetry
  split
  · exact answers_next h
  · exact answers_guard h fun _ h => keeps_pushAgain _ h

theorem answers_execEventPushAck (h : Keeps r s) : Answers r (execEventPushAck hdr written s) := by
  refine answers_guard h fun t h => keeps_ite _ (keeps_stick _ _ _ h) ?_
  split
  · exact keeps_authDrop h
  · exact keeps_ite _ (keeps_pushAcked _ _ h) (keeps_authDrop h)

theorem answers_execDefectRead (h : Keeps r s) : Answers r (execDefectRead hdr s) :=
  answers_next (keeps_message _ _ _ _ _ h fun _ _ h => keeps_done _ _ _ h)

theorem answers_execOtpBurn (h : Keeps r s) : Answers r (execOtpBurn hdr fails cut s) :=
  answers_next (keeps_message _ _ _ _ _ h fun _ _ h => keeps_otpBurn _ _ _ h)

theorem answers_execFwMinRaise (h : Keeps r s) : Answers r (execFwMinRaise hdr v s) :=
  answers_next (keeps_message _ _ _ _ _ h fun _ _ h => keeps_ite _ (keeps_refused _ _ _ _ (keeps_event _ _ _ h))
    (keeps_done _ _ _ (keeps_addMinVersion _ h)))

theorem answers_execPowerSet (h : Keeps r s) : Answers r (execPowerSet hdr ws s) :=
  answers_next (keeps_message _ _ _ _ _ h fun _ _ h => keeps_ite _ (keeps_powerSet _ _ h) (keeps_malformed _ _ h))

theorem answers_execTelemetryRead (h : Keeps r s) : Answers r (execTelemetryRead hdr s) :=
  answers_next (keeps_message _ _ _ _ _ h fun _ _ h => keeps_done _ _ _ h)

theorem answers_execSiteSet (h : Keeps r s) : Answers r (execSiteSet hdr ws s) :=
  answers_next (keeps_message _ _ _ _ _ h fun _ _ h => keeps_ite _ (keeps_siteSet _ _ h) (keeps_malformed _ _ h))

theorem answers_execDressLease (h : Keeps r s) : Answers r (execDressLease hdr c mask start length s) :=
  answers_next (keeps_message _ _ _ _ _ h fun _ _ h => keeps_ite _ (keeps_malformed _ _ h) (keeps_ite _
    (keeps_refused _ _ _ _ h) (keeps_leaseGrant _ _ _ _ _ h)))

theorem answers_execDressLeaseEnd (h : Keeps r s) : Answers r (execDressLeaseEnd c s) := by
  unfold execDressLeaseEnd
  split
  · exact answers_next h
  · exact answers_next (keeps_leaseEnd _ h)

theorem answers_execDressStatus (h : Keeps r s) : Answers r (execDressStatus hdr s) :=
  answers_next (keeps_message _ _ _ _ _ h fun _ _ h => keeps_done _ _ _ h)

theorem answers_execUpdateCommit (h : Keeps r s) : Answers r (execUpdateCommit hdr count force s) :=
  answers_next (keeps_message _ _ _ _ _ h fun _ _ h => keeps_ite _ (keeps_refused _ _ _ _ (keeps_record _ h))
    (keeps_done _ _ _ (keeps_update h)))

theorem answers_execUpdateCommitExecute (h : Keeps r s) : Answers r (execUpdateCommitExecute intact s) := by
  unfold execUpdateCommitExecute
  split
  · exact answers_guard h fun _ h => keeps_commitNow _ _ h
  · exact answers_next h

theorem answers_execControllerMismatch (h : Keeps r s) : Answers r (execControllerMismatch s) :=
  answers_guard h fun _ h => keeps_mismatch h

end

/-! ### SMBus and JTAG -/

section
variable {r s : State} {cmd cells size w : Nat} {hung busy : Bool}

theorem answers_execSmbusReadByte (h : Keeps r s) : Answers r (execSmbusReadByte cmd hung s) :=
  answers_smbusDo h fun _ h => keeps_smbusAnswer _ _ h

theorem answers_execSmbusReadWord (h : Keeps r s) : Answers r (execSmbusReadWord cmd hung s) :=
  answers_smbusDo h fun _ h => keeps_smbusAnswer _ _ h

theorem answers_execSmbusTimeout (h : Keeps r s) : Answers r (execSmbusTimeout s) :=
  answers_guard h fun _ h => keeps_update h

theorem answers_execExtest (h : Keeps r s) : Answers r (execExtest cells s) :=
  answers_guard h fun _ h => keeps_ite _ (keeps_scanCells _ (keeps_loadIr _ _ h)) (keeps_loadIr _ _ h)

theorem answers_execSamplePreload (h : Keeps r s) : Answers r (execSamplePreload cells s) :=
  answers_guard h fun _ h => keeps_scanCells _ (keeps_loadIr _ _ h)

theorem answers_execIdcode (h : Keeps r s) : Answers r (execIdcode s) :=
  answers_guard h fun _ h => keeps_emit _ _ _ _ (keeps_loadIr _ _ h)

theorem answers_execClamp (h : Keeps r s) : Answers r (execClamp s) :=
  answers_guard h fun _ h => keeps_loadIr _ _ h

theorem answers_execHighz (h : Keeps r s) : Answers r (execHighz s) :=
  answers_guard h fun _ h => keeps_loadIr _ _ h

theorem answers_execBypass (h : Keeps r s) : Answers r (execBypass s) :=
  answers_guard h fun _ h => keeps_loadIr _ _ h

theorem answers_execJtagTapReset (h : Keeps r s) : Answers r (execJtagTapReset s) :=
  answers_guard h fun _ h => keeps_loadIr _ _ h

theorem answers_execImageLoadOffer (h : Keeps r s) : Answers r (execImageLoadOffer size s) :=
  answers_imageLoad h fun _ h => keeps_ite _ (keeps_setLoad _ (keeps_bootOffer _ _ _ _ h)) h

theorem answers_execImageLoadData (h : Keeps r s) : Answers r (execImageLoadData w busy s) :=
  answers_imageLoad h fun _ h => keeps_ite _ h (keeps_inTransfer _ _ h fun _ _ h => keeps_loadBytes _ _ h)

theorem answers_execImageLoadEnd (h : Keeps r s) : Answers r (execImageLoadEnd s) :=
  answers_imageLoad h fun _ h => keeps_inTransfer _ _ h fun _ _ h => keeps_setLoad _ (keeps_bootEnd _ _ h)

end

/-! ### Ethernet -/

section
variable {r s : State} {syndrome l c port sub ip prio : Nat} {on up stall : Bool} {p : Pkt} {rq : Rq} {w : Word}

theorem answers_execRdmaWrite (h : Keeps r s) : Answers r (execRdmaWrite p s) :=
  answers_next (keeps_recv _ _ h fun _ _ h => keeps_inOrder _ _ _ h fun _ _ h => keeps_writePkt _ _ _ h)

theorem answers_execRdmaWriteWithImmediate (h : Keeps r s) : Answers r (execRdmaWriteWithImmediate p s) :=
  answers_guard h fun _ h => keeps_recv _ _ h fun _ _ h => keeps_inOrder _ _ _ h fun _ _ h => keeps_writePkt _ _ _ h

theorem answers_execRdmaRead (h : Keeps r s) : Answers r (execRdmaRead p s) :=
  answers_next (keeps_recv _ _ h fun _ _ h => keeps_readPkt _ _ h)

theorem answers_execSend (h : Keeps r s) : Answers r (execSend p s) :=
  answers_next (keeps_recv _ _ h fun _ _ h => keeps_inOrder _ _ _ h fun _ _ h => keeps_sendPkt _ _ _ h)

theorem answers_execSendWithImmediate (h : Keeps r s) : Answers r (execSendWithImmediate p s) :=
  answers_guard h fun _ h => keeps_recv _ _ h fun _ _ h => keeps_inOrder _ _ _ h fun _ _ h => keeps_sendPkt _ _ _ h

theorem answers_execRdmaReadResponse (h : Keeps r s) : Answers r (execRdmaReadResponse p s) :=
  answers_next (keeps_recv _ _ h fun _ _ h => keeps_readResponse _ _ h)

theorem answers_execAcknowledgement (h : Keeps r s) : Answers r (execAcknowledgement p syndrome s) :=
  answers_next (keeps_recv _ _ h fun _ _ h => keeps_ite _ (keeps_ackRecv _ _ h) (keeps_nakRecv _ _ _ h))

theorem answers_execAckTimeout (h : Keeps r s) : Answers r (execAckTimeout l c s) := by
  unfold execAckTimeout
  split
  · exact answers_next h
  · exact answers_guard h fun _ h => keeps_getD _ (keeps_retry _ _ h) h

theorem answers_execCnp (h : Keeps r s) : Answers r (execCnp p s) :=
  answers_next (keeps_recv _ _ h fun _ _ h => keeps_putConn _ h)

theorem answers_execCnpRateRecovery (h : Keeps r s) : Answers r (execCnpRateRecovery l c s) := by
  unfold execCnpRateRecovery
  split
  · exact answers_next h
  · exact answers_guard h fun _ h => keeps_putConn _ h

theorem answers_execArpRequest (h : Keeps r s) : Answers r (execArpRequest port sub ip s) :=
  answers_guard h fun _ h => keeps_neighbor _ _ _ _ _ h

theorem answers_execNeighborSolicitation (h : Keeps r s) : Answers r (execNeighborSolicitation port sub ip s) :=
  answers_guard h fun _ h => keeps_neighbor _ _ _ _ _ h

theorem answers_execPauseFrame (h : Keeps r s) : Answers r (execPauseFrame port sub prio on s) :=
  answers_guard h fun _ h => keeps_pauseFrame _ _ _ _ h

theorem answers_execSubportLinkChange (h : Keeps r s) : Answers r (execSubportLinkChange port sub up s) :=
  answers_guard h fun _ h => keeps_linkChange _ _ _ h

theorem answers_execSendRingPost (h : Keeps r s) : Answers r (execSendRingPost rq l c w s) :=
  answers_guard h fun _ h => keeps_csWrite _ _ _ h

theorem answers_execRxRingFree (h : Keeps r s) : Answers r (execRxRingFree rq l c w s) :=
  answers_guard h fun _ h => keeps_csWrite _ _ _ h

theorem answers_execWorkRequestStart (h : Keeps r s) : Answers r (execWorkRequestStart l c stall s) := by
  unfold execWorkRequestStart
  split
  · exact answers_next h
  · exact answers_guard h fun _ h => keeps_workNext _ _ h

end

/-! ### Checkpoints, and the events without a requester -/

section
variable {r s : State} {l base u c k pc bank frac cmd port sub i : Nat} {imageOk corrected mgmt hung bcast : Bool} {rq : Rq}
  {rep : StepReport} {temps : List Nat} {p : Pkt} {word : BitVec 32}

theorem answers_execCheckpointDue (h : Keeps r s) : Answers r (execCheckpointDue l s) := by
  unfold execCheckpointDue
  split
  · exact answers_next h
  · exact answers_guard h fun _ h => keeps_captureDue _ _ h

theorem answers_execCheckpointCapture (h : Keeps r s) : Answers r (execCheckpointCapture l s) :=
  answers_ite (answers_capture _ h) (answers_next h)

theorem answers_execCaptureLimitExpiry (h : Keeps r s) : Answers r (execCaptureLimitExpiry l s) :=
  answers_guard h fun _ h => keeps_abandonCapture _ h

theorem answers_execResume (h : Keeps r s) : Answers r (execResume rq l base s) :=
  answers_next (keeps_csAct _ _ _ h fun _ h => keeps_getD _ (keeps_resumeStart _ _ h) h)

theorem answers_execCoreResetComplete (h : Keeps r s) : Answers r (execCoreResetComplete u s) :=
  answers_guard h fun _ h => keeps_fencesDue _ (keeps_event _ _ _ (keeps_ite _ (keeps_put _ _ _ _ (keeps_showCoreBusy _
    (keeps_update h))) (keeps_showCoreBusy _ (keeps_update h))))

theorem answers_execClusterResetComplete (h : Keeps r s) : Answers r (execClusterResetComplete c s) :=
  answers_guard h fun _ h => keeps_afterClusterReset (keeps_clusterResetEnd _ h)

theorem answers_execStartStepComplete (h : Keeps r s) : Answers r (execStartStepComplete k rep s) :=
  answers_guard h fun _ h => keeps_stepEnd _ _ h

theorem answers_execCheckpointStateTaken (h : Keeps r s) : Answers r (execCheckpointStateTaken l s) :=
  answers_ite (answers_next (keeps_getD _ (keeps_taken _ h) h)) (answers_next h)

theorem answers_execResumeCompleted (h : Keeps r s) : Answers r (execResumeCompleted l s) := by
  unfold execResumeCompleted
  split
  · split
    · exact answers_next h
    · next e => exact answers_next (keeps_resumeRefuse _ _ (keeps_of_eq e (keeps_readImage _ h)))
    · next e => exact answers_next (keeps_restore _ _ (keeps_of_eq e (keeps_readImage _ h)))
  · exact answers_next h

theorem answers_execControllerResume (h : Keeps r s) : Answers r (execControllerResume imageOk s) :=
  answers_guard h fun _ h => keeps_ite _ (keeps_update h) (keeps_stopController h)

theorem answers_execRouterStorageError (h : Keeps r s) : Answers r (execRouterStorageError k corrected s) :=
  answers_guard h fun _ h => keeps_ite _ (keeps_eventSummed _ _ _ _ (keeps_sat _ _ _ _ h)) (keeps_fenceRouter _ h)

theorem answers_execClusterInterfaceFailure (h : Keeps r s) : Answers r (execClusterInterfaceFailure c s) :=
  answers_next (keeps_fenceCluster _ _ h)

theorem answers_execHbmRefresh (h : Keeps r s) : Answers r (execHbmRefresh k pc bank mgmt s) :=
  answers_guard h fun _ h => keeps_update (keeps_when _ _ (keeps_when _ _ h fun _ h => keeps_served _ _ _ _ h) fun _ h =>
    keeps_update h)

theorem answers_execHbmTemperatureReadout (h : Keeps r s) : Answers r (execHbmTemperatureReadout temps s) :=
  answers_guard h fun _ h => keeps_forEach _ _ (fun _ _ h => keeps_put _ _ _ _ (keeps_update h)) _ h

theorem answers_execDelayReq (h : Keeps r s) : Answers r (execDelayReq frac s) :=
  answers_guard h fun _ h => keeps_emit _ _ _ _ (keeps_mgmtFrame _ _ (keeps_update h))

theorem answers_execSmbusWrite (h : Keeps r s) : Answers r (execSmbusWrite cmd hung s) :=
  answers_smbusDo h fun _ h => keeps_emit _ _ _ _ h

theorem answers_execFrameNotAccepted (h : Keeps r s) : Answers r (execFrameNotAccepted port sub s) :=
  answers_guard h fun _ h => keeps_frameDrop _ h

theorem answers_execUnsupportedOperation (h : Keeps r s) : Answers r (execUnsupportedOperation p s) :=
  answers_next (keeps_recv _ _ h fun _ _ h => keeps_inOrder _ _ _ h fun _ _ h => keeps_nakPkt _ _ _ _ _ h)

theorem answers_execVstbyRemoval (h : Keeps r s) : Answers r (execVstbyRemoval s) :=
  answers_guard h fun _ h => keeps_standbyLost h

theorem answers_execReservedOpcode (h : Keeps r s) : Answers r (execReservedOpcode u bcast word s) := by
  unfold execReservedOpcode
  split
  · split
    · exact answers_next h
    · exact answers_guard h fun _ h => keeps_reservedBcast _ _ h
  · exact answers_guard h fun _ h => keeps_reservedBody _ h

theorem answers_execReservedCommandKind (h : Keeps r s) : Answers r (execReservedCommandKind c i s) :=
  answers_issueRec h fun _ _ _ _ e => nomatch e

end

/-- Every command answers a next state that keeps the queue, the canonical forms and what OTP holds. -/
theorem answers_exec {r s : State} (i : Instr) (h : Keeps r s) : Answers r (exec i s) := by
  cases i with
  | registerWrite => exact answers_execRegisterWrite h
  | shCommit => exact answers_execShCommit h
  | sramRead => exact answers_execSramRead h
  | sramWrite => exact answers_execSramWrite h
  | transposingWrite => exact answers_execTransposingWrite h
  | memPowerOff => exact answers_execMemPowerOff h
  | memPowerOn => exact answers_execMemPowerOn h
  | cmPowerOff => exact answers_execCmPowerOff h
  | cmPowerOn => exact answers_execCmPowerOn h
  | powerDownComplete => exact answers_execPowerDownComplete h
  | powerUpComplete => exact answers_execPowerUpComplete h
  | semWriteSet => exact answers_execSemWriteSet h
  | semWriteAdd => exact answers_execSemWriteAdd h
  | semWriteSubtract => exact answers_execSemWriteSubtract h
  | semaphoreSignal => exact answers_execSemaphoreSignal h
  | semaphoreWait => exact answers_execSemaphoreWait h
  | semGrantArrival => exact answers_execSemGrantArrival h
  | alu => exact answers_execAlu h
  | addi => exact answers_execAddi h
  | andi => exact answers_execAndi h
  | ori => exact answers_execOri h
  | xori => exact answers_execXori h
  | shi => exact answers_execShi h
  | lih => exact answers_execLih h
  | cmp => exact answers_execCmp h
  | plog => exact answers_execPlog h
  | ld => exact answers_execLd h
  | st => exact answers_execSt h
  | vld => exact answers_execVld h
  | vst => exact answers_execVst h
  | br => exact answers_execBr h
  | j => exact answers_execJ h
  | jr => exact answers_execJr h
  | sysNop => exact answers_execSysNop h
  | sysEnd => exact answers_execSysEnd h
  | programEnd => exact answers_execProgramEnd h
  | sysFence => exact answers_execSysFence h
  | semwait => exact answers_execSemwait h
  | semsig => exact answers_execSemsig h
  | sysIcinv => exact answers_execSysIcinv h
  | sysTrap => exact answers_execSysTrap h
  | rdtime => exact answers_execRdtime h
  | rdcore => exact answers_execRdcore h
  | qput => exact answers_execQput h
  | rdbase => exact answers_execRdbase h
  | ldd => exact answers_execLdd h
  | std => exact answers_execStd h
  | dset => exact answers_execDset h
  | valu => exact answers_execValu h
  | vcmp => exact answers_execVcmp h
  | vcvto => exact answers_execVcvto h
  | vcvti => exact answers_execVcvti h
  | vsplit => exact answers_execVsplit h
  | vred => exact answers_execVred h
  | vmov => exact answers_execVmov h
  | matmul => exact answers_execMatmul h
  | pmout => exact answers_execPmout h
  | pmclr => exact answers_execPmclr h
  | dmaGather => exact answers_execDmaGather h
  | dmaScatter => exact answers_execDmaScatter h
  | dmaTranspose => exact answers_execDmaTranspose h
  | dmaFill => exact answers_execDmaFill h
  | dmaDispatchGather => exact answers_execDmaDispatchGather h
  | dmaDispatchScatter => exact answers_execDmaDispatchScatter h
  | dmaReduceStore => exact answers_execDmaReduceStore h
  | reduce => exact answers_execReduce h
  | zmap => exact answers_execZmap h
  | icacheMiss => exact answers_execIcacheMiss h
  | responseArrival => exact answers_execResponseArrival h
  | stepCommit => exact answers_execStepCommit h
  | longInstructionComplete => exact answers_execLongInstructionComplete h
  | stepReplay => exact answers_execStepReplay h
  | takeoverCopyDone => exact answers_execTakeoverCopyDone h
  | meInject => exact answers_execMeInject h
  | meClrCounts => exact answers_execMeClrCounts h
  | coreHeartbeatProbe => exact answers_execCoreHeartbeatProbe h
  | stormHoldEnd => exact answers_execStormHoldEnd h
  | stormCeilingLift => exact answers_execStormCeilingLift h
  | sequencerMismatch => exact answers_execSequencerMismatch h
  | dressingSchedule => exact answers_execDressingSchedule h
  | dressingRunEnd => exact answers_execDressingRunEnd h
  | ledgerReadAdvance => exact answers_execLedgerReadAdvance h
  | ledgerMirrorSet => exact answers_execLedgerMirrorSet h
  | streamArm => exact answers_execStreamArm h
  | streamDisarm => exact answers_execStreamDisarm h
  | streamFree => exact answers_execStreamFree h
  | streamReleaseBoundary => exact answers_execStreamReleaseBoundary h
  | streamSlotAssign => exact answers_execStreamSlotAssign h
  | streamStop => exact answers_execStreamStop h
  | tensor => exact answers_execTensor h
  | tensorDelivery => exact answers_execTensorDelivery h
  | callCore => exact answers_execCallCore h
  | coreProgramStart => exact answers_execCoreProgramStart h
  | dma => exact answers_execDma h
  | semSignal => exact answers_execSemSignal h
  | semWait => exact answers_execSemWait h
  | flagSet => exact answers_execFlagSet h
  | flagWait => exact answers_execFlagWait h
  | barrier => exact answers_execBarrier h
  | barrierWaveRelease => exact answers_execBarrierWaveRelease h
  | waitTime => exact answers_execWaitTime h
  | waitTimeExpiry => exact answers_execWaitTimeExpiry h
  | reduceQ => exact answers_execReduceQ h
  | branch => exact answers_execBranch h
  | rampNotice => exact answers_execRampNotice h
  | rampNoticeExpiry => exact answers_execRampNoticeExpiry h
  | checkpointMark => exact answers_execCheckpointMark h
  | endCmd => exact answers_execEndCmd h
  | launchComplete => exact answers_execLaunchComplete h
  | streamWaitTimeout => exact answers_execStreamWaitTimeout h
  | flagWriteSet => exact answers_execFlagWriteSet h
  | flagWriteAdd => exact answers_execFlagWriteAdd h
  | flagWriteMax => exact answers_execFlagWriteMax h
  | routeSubmit => exact answers_execRouteSubmit h
  | routingJobStart => exact answers_execRoutingJobStart h
  | routingJobEnd => exact answers_execRoutingJobEnd h
  | linkCrcRetry => exact answers_execLinkCrcRetry h
  | linkIdleTimeout => exact answers_execLinkIdleTimeout h
  | linkRetrainDone => exact answers_execLinkRetrainDone h
  | linkRetrain => exact answers_execLinkRetrain h
  | linkRemove => exact answers_execLinkRemove h
  | routerHeartbeatCheck => exact answers_execRouterHeartbeatCheck h
  | topoSwitchArm => exact answers_execTopoSwitchArm h
  | topoSwitch => exact answers_execTopoSwitch h
  | sweepStart => exact answers_execSweepStart h
  | sweepExpiry => exact answers_execSweepExpiry h
  | routerDrainEnd => exact answers_execRouterDrainEnd h
  | ostlerHoldWatchdog => exact answers_execOstlerHoldWatchdog h
  | creditWatchdog => exact answers_execCreditWatchdog h
  | reduceAddMerge => exact answers_execReduceAddMerge h
  | reduceEntryForward => exact answers_execReduceEntryForward h
  | reduceAck => exact answers_execReduceAck h
  | hbmAccess => exact answers_execHbmAccess h
  | hbmEcsPoll => exact answers_execHbmEcsPoll h
  | hbmRateChange => exact answers_execHbmRateChange h
  | hbmRateChangeDone => exact answers_execHbmRateChangeDone h
  | translationWalk => exact answers_execTranslationWalk h
  | tlbInvalidate => exact answers_execTlbInvalidate h
  | tlbInvalidateDone => exact answers_execTlbInvalidateDone h
  | scrubSubmit => exact answers_execScrubSubmit h
  | scrubJobDone => exact answers_execScrubJobDone h
  | regionSyncCheck => exact answers_execRegionSyncCheck h
  | ptpSample => exact answers_execPtpSample h
  | siteTickEdge => exact answers_execSiteTickEdge h
  | disciplineHoldover => exact answers_execDisciplineHoldover h
  | stepForward => exact answers_execStepForward h
  | siteNowWrite => exact answers_execSiteNowWrite h
  | siteTickOutPulse => exact answers_execSiteTickOutPulse h
  | siteTickOutEnd => exact answers_execSiteTickOutEnd h
  | stepTableWrite => exact answers_execStepTableWrite h
  | switchCountWrite => exact answers_execSwitchCountWrite h
  | frequencySwitch => exact answers_execFrequencySwitch h
  | regionLateSwitch => exact answers_execRegionLateSwitch h
  | frequencySwitchComplete => exact answers_execFrequencySwitchComplete h
  | regionCeilingSwitch => exact answers_execRegionCeilingSwitch h
  | phaseFault => exact answers_execPhaseFault h
  | domainMeasure => exact answers_execDomainMeasure h
  | estimatorCalibration => exact answers_execEstimatorCalibration h
  | limiterTick => exact answers_execLimiterTick h
  | capWrite => exact answers_execCapWrite h
  | shedAssert => exact answers_execShedAssert h
  | shedRelease => exact answers_execShedRelease h
  | powerCeilingLower => exact answers_execPowerCeilingLower h
  | powerCeilingRaise => exact answers_execPowerCeilingRaise h
  | capScheduleStep => exact answers_execCapScheduleStep h
  | sensorScan => exact answers_execSensorScan h
  | thermalCeilingFall => exact answers_execThermalCeilingFall h
  | thermalCeilingRise => exact answers_execThermalCeilingRise h
  | fieldRoutersOff => exact answers_execFieldRoutersOff h
  | vstbyValid => exact answers_execVstbyValid h
  | pwrGoodRise => exact answers_execPwrGoodRise h
  | pwrGoodFall => exact answers_execPwrGoodFall h
  | resetNAssert => exact answers_execResetNAssert h
  | resetNRelease => exact answers_execResetNRelease h
  | startSequence => exact answers_execStartSequence h
  | startStepWatchdog => exact answers_execStartStepWatchdog h
  | bootRequest => exact answers_execBootRequest h
  | imageOffer => exact answers_execImageOffer h
  | imageData => exact answers_execImageData h
  | defectList => exact answers_execDefectList h
  | imageEnd => exact answers_execImageEnd h
  | imageTransferTimeout => exact answers_execImageTransferTimeout h
  | bootInstruct => exact answers_execBootInstruct h
  | wholeDeviceReset => exact answers_execWholeDeviceReset h
  | burnGeneration => exact answers_execBurnGeneration h
  | clearFailureCounts => exact answers_execClearFailureCounts h
  | coreReset => exact answers_execCoreReset h
  | clusterReset => exact answers_execClusterReset h
  | glLodgingResetStart => exact answers_execGlLodgingResetStart h
  | lodgingFreezePoint => exact answers_execLodgingFreezePoint h
  | lodgingResetSweep => exact answers_execLodgingResetSweep h
  | lodgingResetComplete => exact answers_execLodgingResetComplete h
  | absorbedResponse => exact answers_execAbsorbedResponse h
  | attach => exact answers_execAttach h
  | detach => exact answers_execDetach h
  | sessionTimeout => exact answers_execSessionTimeout h
  | ownerBind => exact answers_execOwnerBind h
  | attestReq => exact answers_execAttestReq h
  | keyInstall => exact answers_execKeyInstall h
  | keyErase => exact answers_execKeyErase h
  | lodgingOpen => exact answers_execLodgingOpen h
  | lodgingChange => exact answers_execLodgingChange h
  | lodgingClose => exact answers_execLodgingClose h
  | lodgingReset => exact answers_execLodgingReset h
  | pageMap => exact answers_execPageMap h
  | frameReturn => exact answers_execFrameReturn h
  | connOpen => exact answers_execConnOpen h
  | connClose => exact answers_execConnClose h
  | addrSet => exact answers_execAddrSet h
  | ledgerRead => exact answers_execLedgerRead h
  | eventPushRetry => exact answers_execEventPushRetry h
  | eventPushAck => exact answers_execEventPushAck h
  | defectRead => exact answers_execDefectRead h
  | otpBurn => exact answers_execOtpBurn h
  | fwMinRaise => exact answers_execFwMinRaise h
  | powerSet => exact answers_execPowerSet h
  | telemetryRead => exact answers_execTelemetryRead h
  | siteSet => exact answers_execSiteSet h
  | dressLease => exact answers_execDressLease h
  | dressLeaseEnd => exact answers_execDressLeaseEnd h
  | dressStatus => exact answers_execDressStatus h
  | updateCommit => exact answers_execUpdateCommit h
  | updateCommitExecute => exact answers_execUpdateCommitExecute h
  | controllerMismatch => exact answers_execControllerMismatch h
  | smbusReadByte => exact answers_execSmbusReadByte h
  | smbusReadWord => exact answers_execSmbusReadWord h
  | smbusTimeout => exact answers_execSmbusTimeout h
  | extest => exact answers_execExtest h
  | samplePreload => exact answers_execSamplePreload h
  | idcode => exact answers_execIdcode h
  | clamp => exact answers_execClamp h
  | highz => exact answers_execHighz h
  | bypass => exact answers_execBypass h
  | jtagTapReset => exact answers_execJtagTapReset h
  | imageLoadOffer => exact answers_execImageLoadOffer h
  | imageLoadData => exact answers_execImageLoadData h
  | imageLoadEnd => exact answers_execImageLoadEnd h
  | rdmaWrite => exact answers_execRdmaWrite h
  | rdmaWriteWithImmediate => exact answers_execRdmaWriteWithImmediate h
  | rdmaRead => exact answers_execRdmaRead h
  | send => exact answers_execSend h
  | sendWithImmediate => exact answers_execSendWithImmediate h
  | rdmaReadResponse => exact answers_execRdmaReadResponse h
  | acknowledgement => exact answers_execAcknowledgement h
  | ackTimeout => exact answers_execAckTimeout h
  | cnp => exact answers_execCnp h
  | cnpRateRecovery => exact answers_execCnpRateRecovery h
  | arpRequest => exact answers_execArpRequest h
  | neighborSolicitation => exact answers_execNeighborSolicitation h
  | pauseFrame => exact answers_execPauseFrame h
  | subportLinkChange => exact answers_execSubportLinkChange h
  | sendRingPost => exact answers_execSendRingPost h
  | rxRingFree => exact answers_execRxRingFree h
  | workRequestStart => exact answers_execWorkRequestStart h
  | checkpointDue => exact answers_execCheckpointDue h
  | checkpointCapture => exact answers_execCheckpointCapture h
  | captureLimitExpiry => exact answers_execCaptureLimitExpiry h
  | resume => exact answers_execResume h
  | coreResetComplete => exact answers_execCoreResetComplete h
  | clusterResetComplete => exact answers_execClusterResetComplete h
  | startStepComplete => exact answers_execStartStepComplete h
  | checkpointStateTaken => exact answers_execCheckpointStateTaken h
  | resumeCompleted => exact answers_execResumeCompleted h
  | controllerResume => exact answers_execControllerResume h
  | routerStorageError => exact answers_execRouterStorageError h
  | clusterInterfaceFailure => exact answers_execClusterInterfaceFailure h
  | hbmRefresh => exact answers_execHbmRefresh h
  | hbmTemperatureReadout => exact answers_execHbmTemperatureReadout h
  | delayReq => exact answers_execDelayReq h
  | smbusWrite => exact answers_execSmbusWrite h
  | frameNotAccepted => exact answers_execFrameNotAccepted h
  | unsupportedOperation => exact answers_execUnsupportedOperation h
  | vstbyRemoval => exact answers_execVstbyRemoval h
  | reservedOpcode => exact answers_execReservedOpcode h
  | reservedCommandKind => exact answers_execReservedCommandKind h

/-- What a command's next state keeps of the state it started from. -/
theorem exec_keeps {i : Instr} {s t : State} (e : exec i s = .next t) : Keeps s t := by
  obtain ⟨u, eu, hu⟩ := answers_exec i (Keeps.refl s)
  cases eu.symm.trans e
  exact hu

theorem canonical_iff (s : State) :
    s.canonical = true ↔ Memory.wf s.mem = true ∧ mwf regReset s.regs = true := by
  simp [State.canonical]

theorem Keeps.canonical {s t : State} (h : Keeps s t) (hs : s.canonical = true) : t.canonical = true := by
  obtain ⟨hm, hr⟩ := (canonical_iff s).mp hs
  exact (canonical_iff t).mpr ⟨h.mem hm, h.regs hr⟩

/-- Settles O57: every command's lemma gives its next state. -/
theorem everyCommandCompletes : Obligations.EveryCommandCompletes := fun c s => by
  obtain ⟨t, e, -⟩ := answers_exec c (Keeps.refl s)
  exact ⟨t, e⟩

/-- Settles O56: with a command in front the step is that command on the queue's rest, and every command keeps the canonical form;
with none it is a count of site time, which keeps it too. -/
theorem everyStepKeepsCanonicalForm : Obligations.EveryStepKeepsCanonicalForm := by
  intro s t hs e
  unfold step at e
  split at e
  · cases e
    exact (keeps_tick (Keeps.refl s)).canonical hs
  · exact (exec_keeps e).canonical hs

end Sys2Proof.Machine
end

section
/-! SUPPORT. The fields of the Reset columns after reset (00_scope.md R4, log 5, log 6). -/

namespace Sys2Proof.Machine

/-- Whether the field of an entry of the reset column, found through its address, holds the column's value. -/
def resetHolds (p : Nat × Nat × Nat × Nat) : Bool :=
  match csDecode p.1 with
  | some (r, u, i) => fieldOf p.2.1 p.2.2.1 (State.reset.reg r u i).toNat == p.2.2.2
  | none => false

theorem resetHolds_iff (p : Nat × Nat × Nat × Nat) : resetHolds p = true ↔
    ∃ r u i, csDecode p.1 = some (r, u, i) ∧ fieldOf p.2.1 p.2.2.1 (State.reset.reg r u i).toNat = p.2.2.2 := by
  unfold resetHolds
  split
  · next e => exact ⟨fun h => ⟨_, _, _, e, beq_iff_eq.mp h⟩, fun ⟨_, _, _, hd, h⟩ => by
      cases e.symm.trans hd
      exact beq_iff_eq.mpr h⟩
  · next e => exact ⟨fun h => absurd h Bool.false_ne_true, fun ⟨_, _, _, hd, _⟩ => by cases e.symm.trans hd⟩

theorem resetColumn_holds : Claim.resetColumn.all resetHolds = true := by decide +kernel

/-- Settles O55: every address of the column is decoded and the word found there evaluated; no list of the reset state holds
anything. -/
theorem resetLeavesTheResetColumns : Obligations.ResetLeavesTheResetColumns :=
  ⟨fun p hp => (resetHolds_iff p).mp (List.all_eq_true.mp resetColumn_holds p hp), rfl, rfl, rfl, rfl⟩

end Sys2Proof.Machine
end

section
/-! SUPPORT. The fields of one register word: the fields of every row of the register table lie apart, so that an update of some
of them sets each of these and leaves the others; and what a plain write and a commit do to a word (Table 0.7, R12). -/

namespace Sys2Proof.Machine

/-! ### Fields that lie apart -/

/-- The fields of a row lie inside the word, and no two of them overlap. -/
def FieldsApart (fs : List (Nat × Nat × Acc)) : Prop :=
  (∀ f ∈ fs, f.1 + f.2.1 ≤ 64) ∧ fs.Pairwise (fun f g => f.1 + f.2.1 ≤ g.1 ∨ g.1 + g.2.1 ≤ f.1)

theorem fieldsApart_cons {f : Nat × Nat × Acc} {fs : List (Nat × Nat × Acc)} : FieldsApart (f :: fs) ↔
    (f.1 + f.2.1 ≤ 64 ∧ ∀ g ∈ fs, f.1 + f.2.1 ≤ g.1 ∨ g.1 + g.2.1 ≤ f.1) ∧ FieldsApart fs := by
  unfold FieldsApart
  rw [List.forall_mem_cons, List.pairwise_cons]
  exact ⟨fun ⟨⟨hf, hfs⟩, ha, hp⟩ => ⟨⟨hf, ha⟩, hfs, hp⟩, fun ⟨⟨hf, ha⟩, hfs, hp⟩ => ⟨⟨hf, hfs⟩, ha, hp⟩⟩

theorem regTable_fieldsApart : ∀ row ∈ regTable, FieldsApart row.fields := by
  unfold FieldsApart
  decide +kernel

theorem regRow_mem_or (r : Nat) : regRow r ∈ regTable ∨ (regRow r).fields = [] := by
  unfold regRow
  rw [List.getD_eq_getElem?_getD]
  cases e : regTable[r]? with
  | none => exact .inr rfl
  | some row => exact .inl (List.mem_of_getElem? e)

theorem regRow_fieldsApart (r : Nat) : FieldsApart (regRow r).fields := by
  rcases regRow_mem_or r with h | h
  · exact regTable_fieldsApart _ h
  · rw [h]
    exact ⟨List.forall_mem_nil _, List.Pairwise.nil⟩

/-! ### An update of some fields of one word -/

/-- The fields `p` picks, of a register's word, each take `v` of themselves and their value. -/
def State.mapFields (s : State) (r u i : Nat) (p : Acc → Prop) [DecidablePred p] (v : Nat × Nat × Acc → Nat → Nat)
    (fs : List (Nat × Nat × Acc)) : State :=
  fs.foldl (fun t f => if p f.2.2 then t.put ⟨r, f.1, f.2.1⟩ u i (v f (t.fld ⟨r, f.1, f.2.1⟩ u i)) else t) s

section
variable {s : State} {r u i : Nat} {p : Acc → Prop} [DecidablePred p] {v : Nat × Nat × Acc → Nat → Nat}
  {f g : Nat × Nat × Acc} {fs : List (Nat × Nat × Acc)}

theorem mapFields_cons : s.mapFields r u i p v (f :: fs) =
    (if p f.2.2 then s.put ⟨r, f.1, f.2.1⟩ u i (v f (s.fld ⟨r, f.1, f.2.1⟩ u i)) else s).mapFields r u i p v fs := rfl

/-- Registers alone change. -/
theorem mapFields_eq : s.mapFields r u i p v fs = { s with regs := (s.mapFields r u i p v fs).regs } := by
  induction fs generalizing s with
  | nil => rfl
  | cons f fs ih =>
    rw [mapFields_cons]
    split
    · exact ih
    · exact ih

/-- Of the registers, one word alone changes. -/
theorem mapFields_regsKept : s.regsKept (s.mapFields r u i p v fs) [rkey r u i] := by
  intro k hk
  have hne : k ≠ rkey r u i := fun e => hk (by simp [e])
  induction fs generalizing s with
  | nil => rfl
  | cons f fs ih =>
    rw [mapFields_cons, ih]
    split
    · exact State.put_regsKept s ⟨r, f.1, f.2.1⟩ u i _ k hne
    · rfl

/-- A field apart from all that may change is as before. -/
theorem fld_mapFields_apart (hfs : FieldsApart fs) (hg : ∀ f ∈ fs, f.1 + f.2.1 ≤ g.1 ∨ g.1 + g.2.1 ≤ f.1) :
    (s.mapFields r u i p v fs).fld ⟨r, g.1, g.2.1⟩ u i = s.fld ⟨r, g.1, g.2.1⟩ u i := by
  induction fs generalizing s with
  | nil => rfl
  | cons f fs ih =>
    obtain ⟨⟨hf, -⟩, hfs⟩ := fieldsApart_cons.mp hfs
    rw [List.forall_mem_cons] at hg
    rw [mapFields_cons, ih hfs hg.2]
    split
    · exact State.fld_put_apart s ⟨r, f.1, f.2.1⟩ ⟨r, g.1, g.2.1⟩ u i _ rfl hf hg.1
    · rfl

/-- A field that is picked takes its value, and one that is not keeps it. -/
theorem fld_mapFields (hfs : FieldsApart fs) (hv : ∀ f x, x < 2 ^ f.2.1 → v f x < 2 ^ f.2.1) (hg : g ∈ fs) :
    (s.mapFields r u i p v fs).fld ⟨r, g.1, g.2.1⟩ u i =
      if p g.2.2 then v g (s.fld ⟨r, g.1, g.2.1⟩ u i) else s.fld ⟨r, g.1, g.2.1⟩ u i := by
  induction fs generalizing s with
  | nil => cases hg
  | cons f fs ih =>
    obtain ⟨⟨hf, hap⟩, hrest⟩ := fieldsApart_cons.mp hfs
    rw [mapFields_cons]
    rcases List.mem_cons.mp hg with rfl | hg
    · rw [fld_mapFields_apart hrest (fun f hf => (hap f hf).symm)]
      split
      · rw [State.fld_put_same s ⟨r, g.1, g.2.1⟩ u i _ hf]
        exact Nat.mod_eq_of_lt (hv g _ (fieldOf_lt _ _ _))
      · rfl
    · have e : (if p f.2.2 then s.put ⟨r, f.1, f.2.1⟩ u i (v f (s.fld ⟨r, f.1, f.2.1⟩ u i)) else s).fld
          ⟨r, g.1, g.2.1⟩ u i = s.fld ⟨r, g.1, g.2.1⟩ u i := by
        split
        · exact State.fld_put_apart s ⟨r, f.1, f.2.1⟩ ⟨r, g.1, g.2.1⟩ u i _ rfl hf (hap g hg)
        · rfl
      rw [ih hrest hg, e]

end

/-! ### A plain write and a commit -/

/-- What a write sets a field to whose bits it sets. -/
def takenBits (w : Word) (f : Nat × Nat × Acc) (_ : Nat) : Nat := fieldOf f.1 f.2.1 w.toNat

/-- What a write leaves of a field whose bits it clears. -/
def clearedBits (w : Word) (f : Nat × Nat × Acc) (x : Nat) : Nat := x &&& (2 ^ f.2.1 - 1 - fieldOf f.1 f.2.1 w.toNat)

theorem takenBits_lt (w : Word) (f : Nat × Nat × Acc) (x : Nat) (_ : x < 2 ^ f.2.1) : takenBits w f x < 2 ^ f.2.1 :=
  fieldOf_lt _ _ _

theorem clearedBits_lt (w : Word) (f : Nat × Nat × Acc) (x : Nat) (h : x < 2 ^ f.2.1) : clearedBits w f x < 2 ^ f.2.1 :=
  Nat.lt_of_le_of_lt Nat.and_le_left h

theorem writeAcc_eq_mapFields (s : State) (k : Acc) (r u i : Nat) (w : Word) :
    s.writeAcc k r u i w = s.mapFields r u i (· = k) (takenBits w) (regRow r).fields := rfl

/-- Table 0.7, but for the hold of an SH word: the RW fields take the word, and the RWS and W1C bits written 1 clear. -/
def State.regTaken (s : State) (r u i : Nat) (w : Word) : State :=
  (s.writeAcc .rw r u i w).mapFields r u i (fun a => a = .rws ∨ a = .w1c) (clearedBits w) (regRow r).fields

theorem regPlain_eq (s : State) (r u i : Nat) (w : Word) : s.regPlain r u i w =
    if (regRow r).fields.any (fun f => decide (f.2.2 = .sh)) then (s.regTaken r u i w).holdSh (rkey r u i) w
    else s.regTaken r u i w := rfl

theorem regTaken_eq (s : State) (r u i : Nat) (w : Word) : s.regTaken r u i w = { s with regs := (s.regTaken r u i w).regs } := by
  unfold State.regTaken
  rw [mapFields_eq, writeAcc_eq_mapFields, mapFields_eq]

theorem regTaken_regsKept (s : State) (r u i : Nat) (w : Word) : s.regsKept (s.regTaken r u i w) [rkey r u i] := by
  intro k hk
  unfold State.regTaken
  rw [mapFields_regsKept k hk, writeAcc_eq_mapFields, mapFields_regsKept k hk]

/-- Table 0.7: what a write makes of a field, from the value it held. -/
def fieldWritten (w : Word) (f : Nat × Nat × Acc) (x : Nat) : Nat :=
  match f.2.2 with
  | .rw => takenBits w f x
  | .rws | .w1c => clearedBits w f x
  | .ro | .wo | .sh => x

theorem fld_regTaken (s : State) (r u i : Nat) (w : Word) {f : Nat × Nat × Acc} (hf : f ∈ (regRow r).fields) :
    (s.regTaken r u i w).fld ⟨r, f.1, f.2.1⟩ u i = fieldWritten w f (s.fld ⟨r, f.1, f.2.1⟩ u i) := by
  have hap := regRow_fieldsApart r
  unfold State.regTaken
  rw [fld_mapFields hap (clearedBits_lt w) hf, writeAcc_eq_mapFields, fld_mapFields hap (takenBits_lt w) hf]
  obtain ⟨lo, n, k⟩ := f
  cases k <;> rfl

theorem pendingSh_holdSh (s : State) (k : Nat) (w : Word) : (s.holdSh k w).pendingSh k = some w := by
  have h : (s.sh.filter (fun p => p.1 != k)).find? (fun p => p.1 == k) = none :=
    List.find?_eq_none.mpr fun p hp => by simpa using (List.mem_filter.mp hp).2
  simp [State.pendingSh, State.holdSh, List.find?_append, h]

/-- What a plain write leaves: its registers and its held words differ, and nothing else. -/
theorem regPlain_frame (s : State) (r u i : Nat) (w : Word) :
    s.regPlain r u i w = { s with regs := (s.regPlain r u i w).regs, sh := (s.regPlain r u i w).sh } := by
  rw [regPlain_eq]
  split
  · rw [regTaken_eq]; rfl
  · rw [regTaken_eq]

theorem regPlain_regs (s : State) (r u i : Nat) (w : Word) : (s.regPlain r u i w).regs = (s.regTaken r u i w).regs := by
  rw [regPlain_eq]
  split <;> rfl

theorem regPlain_pendingSh (s : State) (r u i : Nat) (w : Word)
    (h : (regRow r).fields.any (fun f => decide (f.2.2 = .sh)) = true) :
    (s.regPlain r u i w).pendingSh (rkey r u i) = some w := by
  rw [regPlain_eq, if_pos h]
  exact pendingSh_holdSh _ _ _

end Sys2Proof.Machine
end

section
/-! SUPPORT. Accesses to control space that are let through: what a passage leaves, the block and the unit of a decoded address,
and the registers whose writes follow Table 0.7 alone. -/

namespace Sys2Proof.Machine

/-! ### Passage and refusal -/

@[simp] theorem still_csCrossed (s : State) (rq : Rq) (a : Nat) : (s.csCrossed rq a).still = s.still := by
  unfold State.csCrossed
  split
  · exact still_crossed _ _ _ _ _
  · rfl

theorem csRefusal_still (s : State) (rq : Rq) (a : Nat) (wr : Bool) : s.still.csRefusal rq a wr = s.csRefusal rq a wr := rfl

/-- What refuses an access does not depend on its passage. -/
theorem csRefusal_csCrossed (s : State) (rq : Rq) (a : Nat) (wr : Bool) :
    (s.csCrossed rq a).csRefusal rq a wr = s.csRefusal rq a wr := by
  rw [← csRefusal_still, still_csCrossed, csRefusal_still]

theorem csHeld_of_unmapped {s : State} {rq : Rq} {a : Nat} (h : csDecode a = none) : s.csHeld rq a = false := by
  unfold State.csHeld
  rw [h]
  cases rq <;> rfl

section
variable {s : State} {rq : Rq} {a : Nat} (hal : a % 8 = 0) (hrt : s.csRoute rq a = 0)
include hal hrt

/-- R6: a read that is let through of an address without a register. -/
theorem csRead_unmapped (hrf : s.csRefusal rq a false = none) (hd : csDecode a = none) :
    s.csRead rq a = (.ok 0#64, s.csCrossed rq a) := by
  unfold State.csRead
  simp [hal, hrt, csRefusal_csCrossed, hrf, hd]

/-- R6: a write that is let through to an address without a register. -/
theorem csWrite_unmapped (w : Word) (hrf : s.csRefusal rq a true = none) (hd : csDecode a = none) :
    s.csWrite rq a w = (.ok (), (s.csCrossed rq a).stick fMG_STICKY0_UNMAPPED_WRITE) := by
  unfold State.csWrite
  simp [hal, hrt, csHeld_of_unmapped hd, csRefusal_csCrossed, hrf, hd]

/-- A write that is let through to a register does what the register makes of it. -/
theorem csWrite_mapped {r u i : Nat} {w : Word} {t : State} (hh : s.csHeld rq a = false) (hrf : s.csRefusal rq a true = none)
    (hd : csDecode a = some (r, u, i)) (ht : (s.csCrossed rq a).regWrite rq r u i w = some t) : (s.csWrite rq a w).2 = t := by
  unfold State.csWrite
  simp only [hal, hrt, hh, csRefusal_csCrossed, hrf, hd, ht, ne_eq, not_true_eq_false, Bool.false_eq_true, if_false]
  split <;> rfl

end

theorem csWrite_misaligned (s : State) (rq : Rq) (a : Nat) (w : Word) (h : a % 8 ≠ 0) :
    (s.csWrite rq a w).2 = s.csNarrow rq a := by
  unfold State.csWrite
  rw [if_pos h]
  rfl

/-! ### The row and the unit of an address -/

/-- The index that an offset names in a row of a block. -/
def rowHit (b : Block) (o : Nat) (row : RegRow) : Option Nat :=
  if row.block = b ∧ row.off ≤ o then dimIndex row.dims (o - row.off) else none

/-- One row of the search for an offset's row. -/
def takeRow (b : Block) (o : Nat) (acc : Nat × Option (Nat × Nat × Nat)) (row : RegRow) : Nat × Option (Nat × Nat × Nat) :=
  (acc.1 + 1, match acc.2, rowHit b o row with
    | some (off, _, _), some i => if off < row.off then some (row.off, acc.1, i) else acc.2
    | none, some i => some (row.off, acc.1, i)
    | x, none => x)

theorem findRow_eq (b : Block) (o : Nat) :
    findRow b o = (regTable.foldl (takeRow b o) (0, none)).2.map (fun t => (t.2.1, t.2.2)) := rfl

theorem rowHit_block {b : Block} {o : Nat} {row : RegRow} {i : Nat} (h : rowHit b o row = some i) : row.block = b := by
  unfold rowHit at h
  split at h
  · next hb => exact hb.1
  · cases h

/-- What the search has found is a row of the block. -/
def SearchOk (b : Block) (acc : Nat × Option (Nat × Nat × Nat)) : Prop := ∀ x ∈ acc.2, (regRow x.2.1).block = b

theorem searchOk_takeRow {b : Block} {o : Nat} {acc : Nat × Option (Nat × Nat × Nat)} {row : RegRow}
    (hrow : regRow acc.1 = row) (h : SearchOk b acc) : SearchOk b (takeRow b o acc row) := by
  unfold SearchOk takeRow at *
  dsimp only
  split
  · next i hx hi =>
    split
    · rintro x ⟨⟩
      rw [hrow]
      exact rowHit_block hi
    · exact h
  · next i hx hi =>
    rintro x ⟨⟩
    rw [hrow]
    exact rowHit_block hi
  · exact h

theorem searchOk_foldl (b : Block) (o : Nat) (l : List RegRow) (acc : Nat × Option (Nat × Nat × Nat))
    (hl : regTable.drop acc.1 = l) (h : SearchOk b acc) : SearchOk b (l.foldl (takeRow b o) acc) := by
  induction l generalizing acc with
  | nil => exact h
  | cons row l ih =>
    have hrow : regRow acc.1 = row := by
      have e : regTable[acc.1]? = some row := by
        rw [← List.head?_drop, hl, List.head?_cons]
      rw [regRow, List.getD_eq_getElem?_getD, e, Option.getD_some]
    refine ih _ ?_ (searchOk_takeRow hrow h)
    change regTable.drop (acc.1 + 1) = l
    rw [← List.tail_drop, hl, List.tail_cons]

/-- The row found for an offset of a block is a row of the block. -/
theorem findRow_block {b : Block} {o r i : Nat} (h : findRow b o = some (r, i)) : (regRow r).block = b := by
  rw [findRow_eq, Option.map_eq_some_iff] at h
  obtain ⟨x, hx, e⟩ := h
  cases e
  exact searchOk_foldl b o regTable (0, none) rfl (fun _ h => by cases h) x hx

/-- The blocks of which there is one alone. -/
def singleBlock (b : Block) : Bool :=
  match b with
  | .hb | .cl | .sq | .co => false
  | _ => true

theorem option_all_ite {A : Type} {p : A → Bool} {c : Prop} [Decidable c] {x y : Option A} (hx : x.all p = true)
    (hy : y.all p = true) : (if c then x else y).all p = true := by
  split <;> assumption

theorem csBlock_single_all (a : Nat) : (csBlock a).all (fun x => !singleBlock x.1 || x.2.1 == 0) = true := by
  unfold csBlock
  dsimp only
  repeat' apply option_all_ite
  all_goals rfl

theorem csBlock_single {a : Nat} {b : Block} {u o : Nat} (h : csBlock a = some (b, u, o)) (hb : singleBlock b = true) :
    u = 0 := by
  have hall := csBlock_single_all a
  rw [h] at hall
  simpa [hb] using hall

theorem csDecode_single {a r u i : Nat} (h : csDecode a = some (r, u, i)) (hb : singleBlock (regRow r).block = true) : u = 0 := by
  unfold csDecode at h
  split at h
  · cases h
  · next b u' o e =>
    obtain ⟨p, hp, ep⟩ := Option.map_eq_some_iff.mp h
    cases ep
    exact csBlock_single e (findRow_block hp ▸ hb)

/-! ### Registers without a rule of their own -/

theorem streamRow_iff (r : Nat) : streamRow r = true ↔
    r ∈ [rGL_STREAM0, rGL_STREAM1, rGL_STREAM2, rGL_STREAM3, rGL_STREAM4, rGL_STREAM5, rGL_STREAM6, rGL_STREAM7] := by
  rw [streamRow, Bool.and_eq_true, decide_eq_true_eq, decide_eq_true_eq]
  simp only [List.mem_cons, List.not_mem_nil, or_false, rGL_STREAM0, rGL_STREAM1, rGL_STREAM2, rGL_STREAM3, rGL_STREAM4,
    rGL_STREAM5, rGL_STREAM6, rGL_STREAM7]
  omega

section
variable {s : State} {rq : Rq} {r u i : Nat} {w : Word} (h : r ∉ Claim.ownRuleRows)
include h

theorem not_streamRow : streamRow r = false := by
  rw [Bool.eq_false_iff, Ne, streamRow_iff]
  have hsub : (Claim.ownRuleRows.drop 11).take 8 =
      [rGL_STREAM0, rGL_STREAM1, rGL_STREAM2, rGL_STREAM3, rGL_STREAM4, rGL_STREAM5, rGL_STREAM6, rGL_STREAM7] := rfl
  exact fun hm => h (List.mem_of_mem_drop (List.mem_of_mem_take (hsub ▸ hm)))

/-- A write of a register without a rule of its own is a plain write. -/
theorem regWrite_plain (hu : singleBlock (regRow r).block = true → u = 0) :
    s.regWrite rq r u i w = some (s.regPlain r u i w) := by
  have hs := not_streamRow h
  simp only [Claim.ownRuleRows, List.mem_cons, List.not_mem_nil, or_false, not_or] at h
  unfold State.regWrite
  cases hb : (regRow r).block with
  | co => simp [State.coWrite, h]
  | cl => simp [State.clWrite, h]
  | sq => simp [State.sqWrite, h]
  | hb => simp [State.hbWrite, h]
  | gl => simp [State.glWrite, h, hs, hu (by rw [hb]; rfl)]
  | nw => simp [State.nwWrite, h, hu (by rw [hb]; rfl)]
  | mg => simp [State.mgWrite, h, hu (by rw [hb]; rfl)]
  | tm => simp [State.tmWrite, h, hu (by rw [hb]; rfl)]
  | pw => simp [State.pwWrite, h, hu (by rw [hb]; rfl)]
  | et => simp [State.etWrite, h, hu (by rw [hb]; rfl)]
  | sc => simp [hu (by rw [hb]; rfl)]

end

end Sys2Proof.Machine
end

section
/-! SUPPORT. Reads and writes of control space, commits of held words, and a core's load of an address without a register. -/

namespace Sys2Proof.Machine

/-! ### REGISTER_WRITE -/

theorem registerWrite_completes : Claim.registerWrite := by
  intro rq a w r u i s hal hrt hh hrf hd hr
  have hplain := regWrite_plain (s := s.csCrossed rq a) (rq := rq) (i := i) (w := w) hr (csDecode_single hd)
  have hregs : (s.csCrossed rq a).regs = s.regs := (still_shares (still_csCrossed s rq a)).2.1
  refine ⟨(s.csCrossed rq a).regPlain r u i w, ?_, ?_, ?_, ?_, regPlain_pendingSh _ r u i w⟩
  · change Host.Outcome.next (s.csWrite rq a w).2 = _
    rw [csWrite_mapped hal hrt hh hrf hd hplain]
  · rw [← still_csCrossed s rq a, regPlain_frame]
    rfl
  · intro k hk
    rw [regPlain_regs, regTaken_regsKept _ r u i w k hk, hregs]
  · intro f hf
    have hfld : ∀ g : Fld, (s.csCrossed rq a).fld g u i = s.fld g u i := fun g => by
      rw [State.fld, State.fld, State.reg, State.reg, hregs]
    rw [State.fld, State.reg, regPlain_regs, ← State.reg, ← State.fld, fld_regTaken _ r u i w hf, hfld]
    obtain ⟨lo, n, k⟩ := f
    cases k <;> rfl

theorem registerWrite_refused : Claim.registerWriteRefused := by
  intro rq a bytes w s h
  unfold exec execRegisterWrite
  dsimp only
  split
  · rfl
  · next hb =>
    rw [csWrite_misaligned s rq a w (h.resolve_left hb)]
    rfl

theorem registerWrite_unmapped : Claim.registerWriteUnmapped := by
  intro rq a w s hal hrt hrf hd
  refine ⟨(s.csCrossed rq a).stick fMG_STICKY0_UNMAPPED_WRITE, ?_, ?_⟩
  · change Host.Outcome.next (s.csWrite rq a w).2 = _
    rw [csWrite_unmapped hal hrt w hrf hd]
  · change (s.csCrossed rq a).still.put fMG_STICKY0_UNMAPPED_WRITE 0 0 1 = _
    rw [still_csCrossed]
    rfl

/-! ### SH_COMMIT -/

theorem rkey_row {r u i : Nat} (hu : u < 4096) (hi : i < 2 ^ 20) : rkey r u i / 2 ^ 32 = r := by
  unfold rkey
  omega

theorem rkey_unit {r u i : Nat} (hu : u < 4096) (hi : i < 2 ^ 20) : rkey r u i / 2 ^ 20 % 2 ^ 12 = u := by
  unfold rkey
  omega

theorem rkey_index {r u i : Nat} (hi : i < 2 ^ 20) : rkey r u i % 2 ^ 20 = i := by
  unfold rkey
  omega

section
variable {s : State} {r u i : Nat} {w : Word} (hsh : s.sh = [(rkey r u i, w)])
include hsh

/-- Of one word that waits, a commit point of its block and unit takes that word. -/
theorem execShCommit_single (hu : u < 4096) (hi : i < 2 ^ 20) (hc : s.atCommit r i = true) :
    execShCommit (regRow r).block u s = .next (s.commitSh r u i) := by
  have hdue : s.sh.filter (fun p => decide ((regRow (p.1 / 2 ^ 32)).block = (regRow r).block) && p.1 / 2 ^ 20 % 2 ^ 12 == u &&
      s.atCommit (p.1 / 2 ^ 32) (p.1 % 2 ^ 20)) = [(rkey r u i, w)] := by
    rw [hsh, List.filter_cons_of_pos, List.filter_nil]
    rw [rkey_row hu hi, rkey_unit hu hi, rkey_index hi, hc]
    simp
  unfold execShCommit
  dsimp only
  rw [hdue, State.forEach_cons, State.forEach_nil, rkey_row hu hi, rkey_index hi]

theorem pendingSh_single : s.pendingSh (rkey r u i) = some w := by
  simp [State.pendingSh, hsh]

theorem dropSh_single : s.dropSh (rkey r u i) = { s with sh := [] } := by
  simp [State.dropSh, hsh]

theorem takeSh_single : s.takeSh r u i =
    State.mapFields { s with sh := [] } r u i (· = .sh) (takenBits w) (regRow r).fields := by
  unfold State.takeSh
  rw [pendingSh_single hsh, ← writeAcc_eq_mapFields, ← dropSh_single hsh]

/-- The commit of a register whose commit starts nothing: its word takes effect. -/
theorem commitSh_plain (hr : r ∉ [rCO_SR_SEED, rTM_DISC_CFG, rMG_LEDGER_READ, rNW_OSTLER_CTRL]) :
    s.commitSh r u i = s.takeSh r u i := by
  simp only [List.mem_cons, List.not_mem_nil, or_false, not_or] at hr
  obtain ⟨hseed, hdisc, hread, hctrl⟩ := hr
  unfold State.commitSh
  rw [pendingSh_single hsh]
  simp only [hseed, hdisc, hread, hctrl, if_false]

end

theorem shCommit_completes : Claim.shCommit := by
  intro r u i w s hu hi hr hsh hc
  refine ⟨s.takeSh r u i, ?_, ?_, ?_, ?_⟩
  · change execShCommit (regRow r).block u s = _
    rw [execShCommit_single hsh hu hi hc, commitSh_plain hsh hr]
  · rw [takeSh_single hsh, mapFields_eq]
  · rw [takeSh_single hsh]
    exact mapFields_regsKept
  · intro f hf
    rw [takeSh_single hsh]
    exact fld_mapFields (regRow_fieldsApart r) (takenBits_lt w) hf

/-- Settles O2: a write is a plain write of the register's word, whose fields lie apart. -/
theorem registerWritesFollowAccessCodes : Obligations.RegisterWritesFollowAccessCodes :=
  ⟨registerWrite_completes, registerWrite_refused, shCommit_completes⟩

/-! ### Loads of addresses without a register -/

theorem sReg_setS (s : State) (u d v r : Nat) (w : Word) (hd : d < 32) (hr : r < 32) :
    (s.setS u d w).sReg v r = if v = u ∧ r = d ∧ r ≠ 0 then w else s.sReg v r := by
  unfold State.setS State.sReg
  by_cases hr0 : r = 0
  · simp [hr0]
  · by_cases hd0 : d = 0
    · have : ¬ r = d := fun e => hr0 (e.trans hd0)
      simp [hd0, hr0]
    · have hk : 32 * v + r = 32 * u + d ↔ v = u ∧ r = d := by omega
      simp [hd0, hr0, mget_mput, hk]

theorem setS_regs (s : State) (u d : Nat) (w : Word) : (s.setS u d w).regs = s.regs := by
  unfold State.setS
  split <;> rfl

theorem setS_frame (s : State) (u d : Nat) (w : Word) :
    s.setS u d w = { s with core := { s.core with s := (s.setS u d w).core.s } } := by
  unfold State.setS
  split <;> rfl

theorem advance_eq (s : State) (u n : Nat) : s.advance u n = s.put fCO_CORE_STATUS_PC u 0 (s.fld fCO_CORE_STATUS_PC u + n) := rfl

theorem put_frame (s : State) (f : Fld) (u i v : Nat) : s.put f u i v = { s with regs := (s.put f u i v).regs } := rfl

theorem put_sReg (s : State) (f : Fld) (u i v a b : Nat) : (s.put f u i v).sReg a b = s.sReg a b := rfl

/-- An instruction that changes nothing but the program counter. -/
theorem issued_advance (s : State) (u : Nat) : Claim.issued s (s.advance u 4) u 0 := by
  rw [advance_eq]
  refine ⟨?_, ?_, ?_, ?_, ?_⟩
  · rw [put_frame]
  · intro k hk
    exact State.put_regsKept s _ u 0 _ k fun e => hk (by simp [e, fCO_CORE_STATUS_PC, rCO_CORE_STATUS])
  · have hne : rkey rCO_NUM_STATUS u 0 ≠ rkey fCO_CORE_STATUS_PC.reg u 0 := by
      simp only [rkey, rCO_NUM_STATUS, fCO_CORE_STATUS_PC]
      omega
    rw [State.put, State.reg_setReg, if_neg hne]
    simp
  · exact State.fld_put_same s fCO_CORE_STATUS_PC u 0 _ (by decide)
  · intro lo n h
    exact State.fld_put_apart s fCO_CORE_STATUS_PC ⟨rCO_CORE_STATUS, lo, n⟩ u 0 _ rfl (by decide) (.inr h)

theorem scalar_retire (s : State) (u d : Nat) (w : Word) (hd : d < 32) : Claim.scalar s (s.retire u d w) u d w 0 := by
  have hregs := setS_regs s u d w
  have hreg : ∀ r u' i, (s.setS u d w).reg r u' i = s.reg r u' i := fun r u' i => by rw [State.reg, State.reg, hregs]
  have hcore : (s.retire u d w).core = { s.core with s := (s.setS u d w).core.s } := by
    rw [State.retire, advance_eq, State.put_core]
    exact congrArg State.core (setS_frame s u d w)
  obtain ⟨-, hkept, hnum, hpc, hlow⟩ := issued_advance (s.setS u d w) u
  refine ⟨⟨?_, ?_, ?_, ?_, ?_⟩, ?_, ?_, ?_, ?_, ?_, ?_⟩
  · rw [State.retire, advance_eq, put_frame, setS_frame]
  · intro k hk
    rw [State.retire, hkept k hk, hregs]
  · rw [State.retire, hnum, hreg]
  · rw [State.retire, hpc, State.fld, State.fld, hreg]
  · intro lo n h
    rw [State.retire, hlow lo n h, hreg]
  · intro v r hr
    rw [State.retire, advance_eq, put_sReg]
    exact sReg_setS s u d v r w hd hr
  · rw [hcore]
  · rw [hcore]
  · rw [hcore]
  · rw [hcore]
  · rw [State.retire, advance_eq, State.put_fresh, setS_frame]

theorem xD_lt (x : Payload) : xD x < 32 := fieldOf_lt 17 5 x.toNat

theorem lsFault_none {a : Nat} (hal : a % 8 = 0) (hf : addrForm a = 2) : lsFault a 3 = none := by
  simp [lsFault, hal, hf]

/-- A load that executes, of control space, retires the word that its read answers. -/
theorem exec_ld_of_csRead {s t : State} {u : Nat} {x : Payload} {w : Word} (he : Claim.executes s u x [xD x, xA x])
    (hls : s.lsFree u 1 = true) (hsz : xSz x = 3) (hal : s.lsAddr u x % 8 = 0) (hf : addrForm (s.lsAddr u x) = 2)
    (hrd : s.csRead (.core u) (s.lsAddr u x) = (.ok w, t)) : exec (.ld u x) s = .next (t.retire u (xD x) w) := by
  obtain ⟨hi, hp⟩ := he
  change execLd u x s = _
  unfold execLd State.guard State.predicated State.ldBody State.lsRead State.lsGot
  simp only [hi, hls, hp, hsz, lsFault_none hal hf, hf, hrd, Bool.and_self, if_true]

theorem ld_unmapped : Claim.ldNothing := by
  intro u x s he hls hsz hal hf hrt hrf hd
  exact ⟨s.csCrossed (.core u) (s.lsAddr u x), _, exec_ld_of_csRead he hls hsz hal hf (csRead_unmapped hal hrt hrf hd),
    still_csCrossed _ _ _, scalar_retire _ u (xD x) 0#64 (xD_lt x)⟩

theorem csRead_of_unmapped : Claim.unmappedRead := fun _ _ _ hal hrt hrf hd =>
  ⟨_, csRead_unmapped hal hrt hrf hd, still_csCrossed _ _ _⟩

/-- Settles O17: what is let through to an address without a register has passed the network, and answers 0 or sets the bit. -/
theorem unmappedControlSpaceReadsZero : Obligations.UnmappedControlSpaceReadsZero :=
  ⟨csRead_of_unmapped, ld_unmapped, registerWrite_unmapped⟩

end Sys2Proof.Machine
end
